-- ==== Sys2Proof/Word.lean ====
section
/-! DEFINITION. The words, bytes and names the manual uses (R9, R10, R12): 64-bit registers and addresses, bytes,
512-bit descriptors, and the names of tiles, contexts and engines. -/

namespace Sys2Proof

/-- A 64-bit register, address or CSR value. -/
abbrev Word := BitVec 64

/-- One byte of memory or of a message. -/
abbrev Byte := BitVec 8

/-- A 512-bit descriptor register (R67). -/
abbrev Desc := BitVec 512

/-- A sequence of bytes, lowest address first (R10). -/
abbrev Bytes := List Byte

/-- The completion status codes of R12. Codes 0x0E to 0xFF do not exist as values: the device never returns them. -/
inductive Status where
  | ok | poison | timeout | revoked | versionConflict | notOwner | aborted | fenceIncomplete
  | quota | limit | retryFromStart | access | badRequest | busy
deriving DecidableEq, Repr

/-- The name of a Thorum context: (tile, core, context), R64. -/
structure CtxId where
  tile : Nat
  core : Nat
  ctx : Nat
deriving DecidableEq, Repr

/-- The name of an engine instance: tile, engine class and instance (R78). -/
structure EngId where
  tile : Nat
  cls : Nat
  inst : Nat
deriving DecidableEq, Repr

/-- A region ID of R351: record index and generation. -/
structure RegionId where
  index : Nat
  gen : Nat
deriving DecidableEq, Repr

end Sys2Proof
end

