-- ==== Sys2Proof/Syntax.lean ====
section
/-! DEFINITION. The commands the block takes: one constructor of Instr per row of spec/opcode_table.json, with the operands
that the rules give the row. Values that the surroundings decide (measurements, received bytes, outcomes of analogue runs)
are operands. -/

namespace Sys2Proof

/-- The routing extension of a MSG and of its answers (R160). -/
structure Route where
  dstDev : BitVec 12
  srcDev : BitVec 12
  dstPart : BitVec 4
  dstTile : BitVec 4
  dstCore : BitVec 4
  dstCtx : BitVec 4
  hops : BitVec 3
  notify : Word
deriving DecidableEq, Repr

/-- A Galter transaction as its flits carry it (R135, R136). The row of the table says its TYPE. -/
structure Txn where
  tag : BitVec 13
  stream : BitVec 8
  rseq : BitVec 16
  tc : BitVec 3
  cong : Bool
  rtx : Bool
  len : BitVec 13
  opx : BitVec 5
  /-- a field marked reserved is not 0 (check 1 of R137) -/
  rsv : Bool
  addr : Word
  flagAddr : Word
  flagVal : Word
  priorCnt : BitVec 16
  prevRseq : BitVec 16
  prevV : Bool
  opcode : BitVec 16
  nops : BitVec 3
  ops : List Word
  route : Route
  data : Bytes
deriving DecidableEq, Repr

/-- An answer (ACK or NAK) as its flits carry it (R136, R140). -/
structure Answer where
  tag : BitVec 13
  stream : BitVec 8
  rseq : BitVec 16
  tc : BitVec 3
  cong : Bool
  compl : Bool
  status : BitVec 8
  aux : BitVec 32
  route : Option Route
  data : Bytes
deriving DecidableEq, Repr

/-- An EVT that arrives on a link, as far as the device looks at it (R167, R218). -/
structure EvtIn where
  link : Nat
  tc : BitVec 3
  cong : Bool
deriving DecidableEq, Repr

/-- What an admission step brings: its failure reason, 0 for none, the reads of the self-test that needed correction (R547), and the other
member's digest of the configuration (R435). -/
structure AdmResult where
  fail : Nat
  corrected : Nat
  digest : Bytes
deriving DecidableEq, Repr

/-- A coherence message (R180), less its CMSG, which the row of the table gives. -/
structure CohMsg where
  id : BitVec 13
  rseq : BitVec 16
  ca : BitVec 4
  way : BitVec 4
  htile : BitVec 4
  newst : BitVec 3
  d : Bool
  rtx : Bool
  status : BitVec 8
  /-- a reserved field of the header is not 0 -/
  rsv : Bool
  addr : Word
  data : Bytes
deriving DecidableEq, Repr

/-- A PAIR frame (R417), less its PTYPE, which the row of the table gives. -/
structure PairFrame where
  stream : BitVec 4
  mseq : BitVec 32
  len : BitVec 13
  rtx : Bool
  word1 : Word
  data : Bytes
deriving DecidableEq, Repr

/-- Fields of the formats of R561 below OP. Fields that a row gives as 0 are kept, because a nonzero one raises BAD_INSTR. -/
structure RegF where
  rd : BitVec 6
  ra : BitVec 6
  rb : BitVec 6
deriving DecidableEq, Repr

/-- REG format outside ALU: the FN field must be 0 (R560), or selects dmov and dclr. -/
structure RegFnF where
  rd : BitVec 6
  ra : BitVec 6
  rb : BitVec 6
  fn : BitVec 8
deriving DecidableEq, Repr

structure ImmF where
  rd : BitVec 6
  ra : BitVec 6
  imm : BitVec 14
deriving DecidableEq, Repr

structure CmpF where
  pd : BitVec 3
  cc : BitVec 3
  ra : BitVec 6
  imm : BitVec 14
deriving DecidableEq, Repr

structure LongF where
  rd : BitVec 6
  imm : BitVec 20
deriving DecidableEq, Repr

structure BrF where
  ra : BitVec 6
  off : BitVec 20
deriving DecidableEq, Repr

structure SpcF where
  rd : BitVec 6
  ra : BitVec 6
  rb : BitVec 6
  sz : BitVec 2
  st : BitVec 1
  aop : BitVec 4
  z : BitVec 1
deriving DecidableEq, Repr

structure CpyF where
  rd : BitVec 6
  ra : BitVec 6
  rb : BitVec 6
  rc : BitVec 6
  z : BitVec 2
deriving DecidableEq, Repr

/-- FLD format of dins: dd and ra. -/
structure DinsF where
  dd : BitVec 4
  ra : BitVec 6
  pos : BitVec 9
  wm1 : BitVec 6
  z : BitVec 1
deriving DecidableEq, Repr

/-- FLD format of dext: rd and ds. -/
structure DextF where
  rd : BitVec 6
  ds : BitVec 4
  pos : BitVec 9
  wm1 : BitVec 6
  z : BitVec 1
deriving DecidableEq, Repr

structure ShortF where
  p : BitVec 3
  z : BitVec 7
  imm : BitVec 16
deriving DecidableEq, Repr

/-- What the monitors measure over a 1 ms window (R347, R533), with which background classes met their period (R42). -/
structure MsMeas where
  /-- energy of each link's transmit lanes, fJ -/
  etx : List Nat
  /-- VNEAR energy, fJ, and every byte read from NEAR banks -/
  eNear : Nat
  bNearAll : Nat
  /-- energy of cell plane and mesh, fJ, and every byte written into switch cells -/
  eFab : Nat
  bCellAll : Nat
  /-- measured charge times rail voltage of each Mica array, fJ, keyed by array 0 to 767 -/
  qMica : List (Nat × Nat)
  /-- mean junction temperature of each tile over the window, kelvin / 256 -/
  tjK : List Nat
  /-- mean power of the window, W -/
  power : Nat
  /-- bit i: class i of R41's table met its period in the window -/
  bgMet : BitVec 6
deriving DecidableEq, Repr

/-- A scheduled resource whose wings slot is offered (R41). -/
inductive WingsRes where
  | nearBank (tile : Nat)
  | stack (stack : Nat)
  | micaArray (array : Nat)
  | tileEngine (tile : Nat)
  | portEngine (link : Nat)
  | issue (tile core : Nat)
  | switchBank (tile : Nat)
  | hub
deriving DecidableEq, Repr

/-- What one column of a Mica array converted in a calibration run (R337): sums of codes over the conversions of each step. -/
structure ColMeas where
  /-- OFFSET: 256 conversions at 0 -/
  offset : Nat
  /-- GAIN: 256 conversions at +24 LSB, 256 at -24 LSB -/
  plus : Nat
  minus : Nat
  /-- LINEARITY: 32 conversions at each of -28, -20, ..., +28 LSB -/
  lin : List Nat
  /-- VERIFY: 256 conversions at 0, the sum of their squares, 128 conversions at +24 LSB and 128 at -24 LSB -/
  zero : Nat
  zeroSq : Nat
  verPlus : Nat
  verMinus : Nat
  /-- CAL_FIRST and RETEST: for S = 0 to 7, as many conversions at +16 LSB as at -16 LSB -/
  steps : List (Nat × Nat)
deriving DecidableEq, Repr

/-- A calibrated unit (R333): class 0 Mica arrays, 1 SerDes lanes, 2 monitors, 3 PLLs. -/
structure CalUnit where
  cls : Nat
  unit : Nat
deriving DecidableEq, Repr

/-- Why a calibration run starts (R334, R337, R339). -/
inductive CalWhy where
  | first | scheduled | early | retry | retest
deriving DecidableEq, Repr

/-- The result of a run: per column for Mica arrays, pass or fail with its limit for the other classes. -/
inductive CalResult where
  | mica (cols : List ColMeas) (temp : Int)
  | other (pass : Bool) (reason : Nat)
deriving DecidableEq, Repr

/-- Outcome of a bring-up stage (R546). -/
inductive StageRes where
  | rom (fwOk : Bool) (slot : Nat) (svn : Nat) (partRec : Bool) (vmin : List Nat) (pllOk : Bool)
  | keys (rootOk : Bool)
  | identity (idOk : Bool)
  | memory (ok : Bool) (corrected : Nat)
  | cxl (width : Nat) (rate : Nat)
deriving DecidableEq, Repr

/-- A report that a detector gives to the hub (R480, R487). -/
structure Report where
  code : Nat
  sev : Nat
  step : Nat
  status : Nat
  origin : BitVec 32
  a : Word
  b : Word
  c : Word
  /-- cue of detection: TBASE / 250 -/
  cue : Nat
  tbase : Nat
deriving DecidableEq, Repr

/-- The inputs of a session CREATE (R390). -/
structure SesCreate where
  id : Nat
  part : Nat
  layers : Nat
  groups : Nat
  d : Nat
  fmt : Nat
  tier : Nat
  policy : Nat
  kvmir : Bool
  proj : Word
  maxlen : Nat
deriving DecidableEq, Repr

/-- The inputs of an APPEND (R390). -/
structure SesAppend where
  id : Nat
  pos : Nat
  count : Nat
  layerLo : Nat
  nLayer : Nat
  src : Word
  input : Word
  inLen : Nat
  sync : Bool
deriving DecidableEq, Repr

/-- The inputs of a MOVE (R390). -/
structure SesMove where
  id : Nat
  dev : Nat
  part : Nat
  tid : Nat
  proj : Word
  tier : Nat
  mode : Nat
  deadline : Nat
deriving DecidableEq, Repr

/-- The inputs of GTH_TABLE_ADD (R263). -/
structure TableAdd where
  region : RegionId
  version : Nat
  rows : Nat
  rowBytes : Nat
  fmt : Nat
  dim : Nat
  share : BitVec 16
deriving DecidableEq, Repr

/-- Where an SPDM request arrives (R506): the CXL DOE mailbox, a PAIR link or a link in training. -/
inductive SpdmSrc where
  | doe
  | link (k : Nat)
deriving DecidableEq, Repr

/-- An IDENT message of R528. -/
structure IdentMsg where
  kind : Nat
  role : Nat
  devid : Nat
  instanceId : Word
  enc : Bool
deriving DecidableEq, Repr

/-- The commands. One constructor per row of spec/opcode_table.json. -/
inductive Instr where
  -- cue, timebase and wings
  | cueBoundary (telOk : Bool)
  | wuOverrun (e : EngId)
  | msBoundary (m : MsMeas)
  | wingsSlot (r : WingsRes)
  | eccWriteback (addr : Word)
  | ppsEdge (aclk : Nat) (sub : Nat)
  | holdover
  | freeRun
  | applyShares
  | csrWrite (addr : Word) (size : Nat) (v : Word)
  -- dispatch
  | opreq (link : Nat) (t : Txn)
  | contextFree (c : CtxId)
  | admitTimeout (tile : Nat) (part : Nat)
  | budgetTimeout (c : CtxId)
  | rdcContrib (link : Nat) (t : Txn)
  | rdcAbort (link : Nat) (t : Txn)
  -- transactions
  | rd (link : Nat) (t : Txn)
  | wr (link : Nat) (t : Txn)
  | wrf (link : Nat) (t : Txn)
  | atom (link : Nat) (t : Txn)
  | msg (link : Nat) (t : Txn)
  | ack (link : Nat) (a : Answer)
  | nak (link : Nat) (a : Answer)
  | evtReceived (e : EvtIn)
  | receipt (link : Nat) (tag : BitVec 13)
  | flagWrite (link : Nat) (stream : BitVec 8) (rseq : BitVec 16)
  | wrfTimeout (link : Nat) (stream : BitVec 8) (rseq : BitVec 16)
  | replayExpiry (link : Nat) (tag : BitVec 13)
  | meshEdgeFailed (edge : Nat)
  | tAckExpiry (tag : Nat)
  | tDoneExpiry (tag : Nat)
  | lostExpiry (tag : Nat)
  | msgRecordExpiry (srcDev : BitVec 12) (tag : BitVec 13)
  | noticeResend (id : Nat)
  | evtRepeat (id : Nat)
  -- coherence
  | rds (link : Nat) (m : CohMsg)
  | rdx (link : Nat) (m : CohMsg)
  | upg (link : Nat) (m : CohMsg)
  | evc (link : Nat) (m : CohMsg)
  | evd (link : Nat) (m : CohMsg)
  | sr (link : Nat) (m : CohMsg)
  | gack (link : Nat) (m : CohMsg)
  | tSnpExpiry (line : Nat)
  | tGackExpiry (line : Nat)
  | caEnable (n : Nat) (v : Word)
  | caDisable (n : Nat) (v : Word)
  | drainDone (n : Nat)
  -- switch core
  | auditPass
  | linkTransmit (link : Nat)
  | reseqGapLost (flow : Nat)
  | polRateWrite (n : Nat) (v : Word)
  | polBurstWrite (n : Nat) (v : Word)
  | swAuditCfgWrite (v : Word)
  -- reductions
  | reduceOpen (e : EngId) (part : Nat)
  | contrib (e : EngId) (part : Nat)
  | abort (e : EngId) (part : Nat)
  | groupReduce (part : Nat) (group : Nat)
  | part (link : Nat) (t : Txn)
  | partEnd (link : Nat) (t : Txn)
  | res (link : Nat) (t : Txn)
  | resEnd (link : Nat) (t : Txn)
  | abortNotice (link : Nat) (t : Txn)
  | groupDeadline (part : Nat) (group : Nat)
  | earlyExpiry (tile : Nat) (idx : Nat)
  | groupHoldExpiry (part : Nat) (group : Nat)
  -- gather
  | gather (e : EngId) (part : Nat)
  | pooled (e : EngId) (part : Nat)
  | blockFetchDone (tile : Nat) (part : Nat) (slot : Nat) (version : Nat) (block : Nat)
  | gthTableAdd (a : TableAdd)
  | gthTableRemove (slot : Nat)
  | gthTableQuery (slot : Nat)
  | gthSlotFree (slot : Nat)
  | gthCacheCfgWrite (v : Word)
  -- filter
  | select (e : EngId) (part : Nat)
  | topk (e : EngId) (part : Nat)
  -- check-value
  | compute (e : EngId) (part : Nat)
  | snoopEngine (e : EngId) (part : Nat)
  | snoopPort (e : EngId) (part : Nat)
  -- attention
  | dense (e : EngId) (part : Nat)
  | sketch (e : EngId) (part : Nat)
  | score (e : EngId) (part : Nat)
  | sketchSelect (e : EngId) (part : Nat)
  | exact (e : EngId) (part : Nat)
  | merge (e : EngId) (part : Nat)
  | shadow (e : EngId) (part : Nat)
  | arrayWithdraw (tile : Nat) (array : Nat)
  -- codec
  | pack (e : EngId) (part : Nat)
  | unpack (e : EngId) (part : Nat)
  -- engines in general
  | workUnit (e : EngId) (part : Nat)
  | ticketComplete (c : CtxId) (slot : Nat)
  | cueCapExpiry (e : EngId) (part : Nat)
  | spaceAccessComplete (c : CtxId) (key : Nat)
  -- analogue shell
  | calRun (u : CalUnit) (why : CalWhy)
  | calRunDone (u : CalUnit) (r : CalResult)
  | retest (tile : Nat)
  | micaShadowCfgWrite (p : Nat) (v : Word)
  | tjSample (temps : List Int)
  -- regions and versions
  | regionCreate (part : Nat) (policy : Nat) (mirrored : Bool)
  | destroy (r : RegionId)
  | place (r : RegionId) (slot : Nat) (tier : Nat) (len : Nat) (list : Word)
  | load (r : RegionId) (slot : Nat) (tier : Nat) (version : Nat) (list : Word)
  | unplace (r : RegionId) (slot : Nat) (force : Bool)
  | pin (r : RegionId) (slot : Nat)
  | unpin (r : RegionId) (slot : Nat)
  | seal (r : RegionId) (slot : Nat) (pub : Bool) (expect : Nat)
  | publish (r : RegionId) (version : Nat) (expect : Nat)
  | openVersion (r : RegionId) (version : Nat)
  | close (r : RegionId) (version : Nat)
  | discard (r : RegionId) (version : Nat)
  | revoke (r : RegionId) (version : Nat)
  | drainComplete (r : RegionId) (version : Nat)
  | quarantineEnd (extent : Nat)
  | trayReadMiss (tray : Nat)
  | rebuild (tray : Nat)
  | rebuildPiece (tray : Nat) (piece : Nat)
  | verQuotaWrite (tier : Nat) (p : Nat) (v : Word)
  | verPoolWrite (tier : Nat) (v : Word)
  | verTrayCfgWrite (tray : Nat) (v : Word)
  -- sessions
  | sessionCreate (a : SesCreate)
  | delete (id : Nat)
  | append (a : SesAppend)
  | park (id : Nat) (deadline : Nat)
  | checkpoint (id : Nat) (deadline : Nat)
  | revive (id : Nat) (deadline : Nat)
  | fork (id : Nat) (child : Nat)
  | move (a : SesMove)
  | claim (id : Nat)
  | query (id : Nat)
  | handover (id : Nat)
  | phaseCommit (id : Nat)
  | sessionDeadline (id : Nat)
  | windowTimeout (id : Nat)
  | logSeal (id : Nat)
  | offer (link : Nat) (t : Txn)
  | data (link : Nat) (t : Txn)
  | commit (link : Nat) (t : Txn)
  | moveAbort (link : Nat) (t : Txn)
  | ownerQuery (link : Nat) (t : Txn)
  | finish (link : Nat) (t : Txn)
  | moveInTimeout (id : Nat)
  | unconfQuery (id : Nat)
  -- the understudy pair
  | hb (link : Nat) (f : PairFrame)
  | hbTimeout (link : Nat)
  | mwr (link : Nat) (f : PairFrame)
  | mrec (link : Nat) (f : PairFrame)
  | mmap (link : Nat) (f : PairFrame)
  | mack (link : Nat) (f : PairFrame)
  | mirrorResend (stream : Nat) (mseq : Nat)
  | down (link : Nat)
  | audit (link : Nat) (f : PairFrame)
  | key (link : Nat) (f : PairFrame)
  | bulkEnd (link : Nat) (f : PairFrame)
  | stepFrame (link : Nat) (f : PairFrame)
  | bulkSend
  | admissionStep (step : Nat) (r : AdmResult)
  | join
  | admitPair
  | takeover
  | yieldPair
  | step
  | unpair
  | takeoverScan
  | conflictClaim (id : Nat)
  | journalExpiry
  -- faults and recovery
  | ctxWatchdog (c : CtxId)
  | engHang (e : EngId) (part : Nat)
  | ctxReset (c : CtxId) (byHost : Bool)
  | engReset (e : EngId)
  | partReset (part : Nat)
  | warmReset (cause : Nat)
  | powerCycle (cause : Nat)
  | fatal (cause : Nat)
  | escalate (origin : BitVec 32) (step : Nat)
  | report (r : Report)
  | pbEntryWrite (tile : Nat)
  | fltCntClr (addr : Word)
  | pbRead (seq : BitVec 32) (count : Nat)
  -- security
  | secSeedNew
  | secSeedLoad (blob : Bytes)
  | secSeedExport
  | secTenantWrite (p : Nat) (hi : Bool) (v : Word)
  | secConfWrite (p : Nat) (v : Word)
  | secRangeWrite (n : Nat) (v : Word)
  | secStrmWrite (k : Nat) (j : Nat) (v : Word)
  | getVersion (src : SpdmSrc)
  | getCapabilities (src : SpdmSrc)
  | negotiateAlgorithms (src : SpdmSrc)
  | getDigests (src : SpdmSrc)
  | getCertificate (src : SpdmSrc) (offset : Nat) (len : Nat)
  | challenge (src : SpdmSrc) (nonce : Bytes)
  | getMeasurements (src : SpdmSrc) (nonce : Bytes) (index : Nat)
  | spdmUnsupported (src : SpdmSrc) (code : BitVec 8)
  | spdmResponse (link : Nat) (code : BitVec 8) (ok : Bool)
  | keyx (link : Nat) (payload : Bytes)
  | authResend (link : Nat)
  -- links
  | flit (link : Nat) (bytes : Bytes) (cwCorrected : Bool) (cwBad : Bool)
  | ident (link : Nat) (m : IdentMsg)
  | creditInit (link : Nat) (grants : List Nat)
  | downMessage (link : Nat) (reason : Nat)
  | phyLocked (link : Nat)
  | trainingTimeout (link : Nat)
  | linkRetry (link : Nat)
  | linkIdleTimeout (link : Nat)
  | deskewLoss (link : Nat)
  | glLinkCfgWrite (k : Nat) (v : Word)
  -- CXL
  | cxlMemRead (x : Nat)
  | cxlMemWrite (x : Nat) (data : Bytes)
  | h2dSnoop (hpa : Nat)
  | rdcurrData (id : Nat) (ok : Bool) (data : Bytes)
  | cxlWinWrite (stratum : Bool) (v : Word)
  | mailboxUnsupported (opcode : BitVec 16)
  -- bundles
  | thrCfg (p : Nat) (ctxs : Nat) (qdepth : Nat) (storeKib : Nat)
  | bundleBegin (p : Nat) (slot : Nat) (len : Nat)
  | bundleData (p : Nat) (slot : Nat) (offset : Nat) (data : Bytes)
  | bundleCommit (p : Nat) (slot : Nat)
  | bundleUnload (p : Nat) (slot : Nat)
  | bundleQuery (p : Nat) (slot : Nat)
  -- bring-up and power
  | resetN (addr : BitVec 3)
  | perstN
  | powerDown
  | railFault (rail : Nat)
  | stageDone (r : StageRes)
  | cfgDone
  | avsStep (tile : Nat)
  -- Thorum: ALU (R565)
  | add (c : CtxId) (f : RegF)
  | sub (c : CtxId) (f : RegF)
  | and (c : CtxId) (f : RegF)
  | or (c : CtxId) (f : RegF)
  | xor (c : CtxId) (f : RegF)
  | shl (c : CtxId) (f : RegF)
  | shr (c : CtxId) (f : RegF)
  | sra (c : CtxId) (f : RegF)
  | mul (c : CtxId) (f : RegF)
  | mulhu (c : CtxId) (f : RegF)
  | mulh (c : CtxId) (f : RegF)
  | divu (c : CtxId) (f : RegF)
  | remu (c : CtxId) (f : RegF)
  | min (c : CtxId) (f : RegF)
  | max (c : CtxId) (f : RegF)
  | minu (c : CtxId) (f : RegF)
  | maxu (c : CtxId) (f : RegF)
  | sxtb (c : CtxId) (f : RegF)
  | sxth (c : CtxId) (f : RegF)
  | sxtw (c : CtxId) (f : RegF)
  | clz (c : CtxId) (f : RegF)
  | popc (c : CtxId) (f : RegF)
  | sel (c : CtxId) (f : RegF) (p : BitVec 3)
  | cmpeq (c : CtxId) (f : RegF)
  | cmpne (c : CtxId) (f : RegF)
  | cmplt (c : CtxId) (f : RegF)
  | cmpltu (c : CtxId) (f : RegF)
  | cmple (c : CtxId) (f : RegF)
  | cmpleu (c : CtxId) (f : RegF)
  | cmpgt (c : CtxId) (f : RegF)
  | cmpgtu (c : CtxId) (f : RegF)
  | cmpge (c : CtxId) (f : RegF)
  | cmpgeu (c : CtxId) (f : RegF)
  | pmov (c : CtxId) (f : RegF)
  | pget (c : CtxId) (f : RegF)
  | pand (c : CtxId) (f : RegF)
  | por (c : CtxId) (f : RegF)
  | pxor (c : CtxId) (f : RegF)
  | pnot (c : CtxId) (f : RegF)
  -- Thorum: immediates and branches (R564)
  | addi (c : CtxId) (f : ImmF)
  | andi (c : CtxId) (f : ImmF)
  | ori (c : CtxId) (f : ImmF)
  | xori (c : CtxId) (f : ImmF)
  | shli (c : CtxId) (f : ImmF)
  | shri (c : CtxId) (f : ImmF)
  | srai (c : CtxId) (f : ImmF)
  | cmpi (c : CtxId) (f : CmpF)
  | li (c : CtxId) (f : LongF)
  | lis (c : CtxId) (f : LongF)
  | b (c : CtxId) (f : BrF)
  | bl (c : CtxId) (f : BrF)
  | beqz (c : CtxId) (f : BrF)
  | bnez (c : CtxId) (f : BrF)
  | bp (c : CtxId) (f : BrF)
  | bnp (c : CtxId) (f : BrF)
  | jr (c : CtxId) (f : RegFnF)
  -- Thorum: LOCAL (R70)
  | ldlB (c : CtxId) (f : ImmF)
  | ldlH (c : CtxId) (f : ImmF)
  | ldlW (c : CtxId) (f : ImmF)
  | ldlD (c : CtxId) (f : ImmF)
  | ldd (c : CtxId) (f : ImmF)
  | stlB (c : CtxId) (f : ImmF)
  | stlH (c : CtxId) (f : ImmF)
  | stlW (c : CtxId) (f : ImmF)
  | stlD (c : CtxId) (f : ImmF)
  | std (c : CtxId) (f : ImmF)
  -- Thorum: spaces, copies, engines, waiting
  | ld (c : CtxId) (f : SpcF)
  | st (c : CtxId) (f : SpcF)
  | atomInstr (c : CtxId) (f : SpcF)
  | copy (c : CtxId) (f : CpyF)
  | enq (c : CtxId) (f : RegFnF)
  | waitT (c : CtxId) (f : RegFnF)
  | waitE (c : CtxId) (f : RegFnF)
  | waitETimeout (c : CtxId)
  | waitC (c : CtxId) (f : ShortF)
  | waitCExpiry (c : CtxId)
  | rel (c : CtxId) (f : ShortF)
  | acq (c : CtxId) (f : ShortF)
  | fenceM (c : CtxId) (f : RegFnF)
  | msgSend (c : CtxId) (f : RegFnF)
  | msgRecv (c : CtxId) (f : RegFnF)
  | ses (c : CtxId) (f : RegFnF)
  | ver (c : CtxId) (f : RegFnF)
  | dins (c : CtxId) (f : DinsF)
  | dext (c : CtxId) (f : DextF)
  | dmov (c : CtxId) (f : RegF)
  | dclr (c : CtxId) (f : RegF)
  | csrr (c : CtxId) (f : RegFnF)
  | csrw (c : CtxId) (f : RegFnF)
  | rdtb (c : CtxId) (f : RegFnF)
  | rdcue (c : CtxId) (f : RegFnF)
  | evt (c : CtxId) (f : RegFnF)
  | trap (c : CtxId) (f : ShortF)
  | endScript (c : CtxId) (f : RegFnF)
  | undefinedEncoding (c : CtxId) (w : BitVec 32)
  -- reserved encodings and the remaining ports
  | reservedType (link : Nat) (typ : BitVec 4) (t : Txn)
  | reservedCmsg (link : Nat) (cmsg : BitVec 5) (m : CohMsg)
  | reservedPtype (link : Nat) (ptype : BitVec 4) (f : PairFrame)
  | cxlPortRetrain (width : Nat) (rate : Nat)
  | tapInstruction (ir : Nat)
  | malformedCsrRead (addr : Word) (size : Nat)
deriving DecidableEq, Repr

end Sys2Proof
end

