-- ==== Sys2Proof/Decode.lean ====
section
/-! DEFINITION. The decoder of table words. The rows of spec/opcode_table.json give no bits: every row is an event or an
operation that the surroundings deliver with its operands, so that no word spells a command. The 32-bit Thorum words (R561) are
encoded and decoded in Machine/Encode.lean: they name an instruction of a script, not a command with its context. -/

namespace Sys2Proof

/-- The command a word spells by the bits that the table gives its row: none, because no row has bits. [DESIGN CHOICE: log 162] -/
def decodeTableWord (_nbits _w : Nat) : Option Instr := none

end Sys2Proof
end

