-- ==== Sys2Proof/Machine/Bits.lean ====
section
/-! DEFINITION. Bit fields, little-endian bytes and sign extension (R10). -/

namespace Sys2Proof.Machine

/-- Field [lo + w - 1 : lo] of a number. -/
def fld (v lo w : Nat) : Nat := v / 2 ^ lo % 2 ^ w

/-- One bit of a number. -/
def bitAt (v i : Nat) : Bool := v / 2 ^ i % 2 == 1

/-- The number with field [lo + w - 1 : lo] replaced. -/
def setFld (v lo w x : Nat) : Nat := v / 2 ^ (lo + w) * 2 ^ (lo + w) + x % 2 ^ w * 2 ^ lo + v % 2 ^ lo

/-- 1 for true. -/
def b2n (b : Bool) : Nat := if b then 1 else 0

/-- The n low bytes of a number, lowest first (R10). -/
def leBytes : Nat → Nat → Bytes
  | 0, _ => []
  | n + 1, v => BitVec.ofNat 8 v :: leBytes n (v / 256)

/-- The number that bytes spell, lowest first (R10). -/
def leNat : Bytes → Nat
  | [] => 0
  | b :: t => b.toNat + 256 * leNat t

/-- The number that bytes spell, highest first (standard crypto formats). -/
def beNat (bs : Bytes) : Nat := leNat bs.reverse

/-- n bytes of a number, highest first. -/
def beBytes (n v : Nat) : Bytes := (leBytes n v).reverse

/-- n bytes of a sequence from a position; what the sequence lacks reads as 0. -/
def slice (bs : Bytes) (pos n : Nat) : Bytes := ((bs.drop pos).take n) ++ List.replicate (n - ((bs.drop pos).take n).length) 0

/-- A little-endian field of n bytes at a position. -/
def leAt (bs : Bytes) (pos n : Nat) : Nat := leNat (slice bs pos n)

/-- n zero bytes. -/
def zeros (n : Nat) : Bytes := List.replicate n 0

/-- The bytes with new ones in place of those from a position on. -/
def overlay (bs : Bytes) (pos : Nat) (new : Bytes) : Bytes :=
  slice bs 0 pos ++ new ++ bs.drop (pos + new.length)

/-- Byte-wise exclusive or. -/
def xorBytes (a b : Bytes) : Bytes := List.zipWith (· ^^^ ·) a b

/-- The value of a w-bit two's complement field. -/
def sextInt (w v : Nat) : Int := if bitAt v (w - 1) then (v % 2 ^ w : Nat) - (2 ^ w : Nat) else (v % 2 ^ w : Nat)

/-- An integer as a w-bit two's complement field. -/
def intFld (w : Nat) (x : Int) : Nat := (x % (2 ^ w : Nat)).toNat

/-- Number of set bits among the low n. -/
def popNat : Nat → Nat → Nat
  | 0, _ => 0
  | n + 1, v => v % 2 + popNat n (v / 2)

/-- Positions of the set bits among the low n, rising. -/
def bitsSet (n v : Nat) : List Nat := (List.range n).filter (fun i => bitAt v i)

/-- A number with one bit set. -/
def setBit (v i : Nat) : Nat := if bitAt v i then v else v + 2 ^ i

/-- A number with one bit clear. -/
def clrBit (v i : Nat) : Nat := if bitAt v i then v - 2 ^ i else v

/-- Integer limits. -/
def clampInt (lo hi x : Int) : Int := max lo (min hi x)

/-- Ceiling division. -/
def ceilDiv (a b : Nat) : Nat := (a + b - 1) / b

/-- The quotient rounded to nearest, ties to even. -/
def rneDiv (a b : Nat) : Nat :=
  let q := a / b
  let r := a % b
  if 2 * r < b then q else if b < 2 * r then q + 1 else q + q % 2

/-- The quotient rounded to nearest, ties upward. -/
def roundDiv (a b : Nat) : Nat := (2 * a + b) / (2 * b)

/-- floor of the square root. -/
def isqrtAux : Nat → Nat → Nat → Nat
  | 0, _, r => r
  | k + 1, n, r => if (r + 2 ^ k) * (r + 2 ^ k) ≤ n then isqrtAux k n (r + 2 ^ k) else isqrtAux k n r

def isqrt (n : Nat) : Nat := isqrtAux (n.log2 / 2 + 1) n 0

/-- Bit length: 0 for 0. -/
def bitLen (n : Nat) : Nat := if n = 0 then 0 else n.log2 + 1

/-- Bit-reversal of a 6-bit number (R44). -/
def bitrev6 (i : Nat) : Nat :=
  fld i 0 1 * 32 + fld i 1 1 * 16 + fld i 2 1 * 8 + fld i 3 1 * 4 + fld i 4 1 * 2 + fld i 5 1

/-- Inserts a key in a sorted set. -/
def setIns (l : List Nat) (k : Nat) : List Nat := if k ∈ l then l else (l.filter (· < k)) ++ k :: (l.filter (k < ·))

/-- The sorted set without a key. -/
def setDel (l : List Nat) (k : Nat) : List Nat := l.filter (· ≠ k)

end Sys2Proof.Machine
end

