-- ==== Sys2Proof/Machine/Encode.lean ====
section
/-! DEFINITION. The 32-bit Thorum words: the formats of R561, the encoder of every instruction, the checks of R560 that a word
shows by itself, and the decoder. -/

namespace Sys2Proof.Machine

/-! ## Formats (R561) -/

def encReg (op : BitVec 6) (rd ra rb : BitVec 6) (fn : BitVec 8) : BitVec 32 := op ++ rd ++ ra ++ rb ++ fn
def encImm (op : BitVec 6) (f : ImmF) : BitVec 32 := op ++ f.rd ++ f.ra ++ f.imm
def encCmp (op : BitVec 6) (f : CmpF) : BitVec 32 := op ++ f.pd ++ f.cc ++ f.ra ++ f.imm
def encLong (op : BitVec 6) (f : LongF) : BitVec 32 := op ++ f.rd ++ f.imm
def encBr (op : BitVec 6) (f : BrF) : BitVec 32 := op ++ f.ra ++ f.off
def encSpc (op : BitVec 6) (f : SpcF) : BitVec 32 := op ++ f.rd ++ f.ra ++ f.rb ++ f.sz ++ f.st ++ f.aop ++ f.z
def encCpy (op : BitVec 6) (f : CpyF) : BitVec 32 := op ++ f.rd ++ f.ra ++ f.rb ++ f.rc ++ f.z
def encDins (op : BitVec 6) (f : DinsF) : BitVec 32 := op ++ f.dd ++ f.ra ++ f.pos ++ f.wm1 ++ f.z
def encDext (op : BitVec 6) (f : DextF) : BitVec 32 := op ++ f.rd ++ f.ds ++ f.pos ++ f.wm1 ++ f.z
def encShort (op : BitVec 6) (f : ShortF) : BitVec 32 := op ++ f.p ++ f.z ++ f.imm

/-- A REG-format word outside ALU, with the FN field it carries. -/
def encRegFn (op : BitVec 6) (f : RegFnF) : BitVec 32 := encReg op f.rd f.ra f.rb f.fn

/-- An ALU word. -/
def encAlu (fn : BitVec 8) (f : RegF) : BitVec 32 := encReg 0x00 f.rd f.ra f.rb fn

/-! ## Fields of a word -/

def opOf (w : BitVec 32) : BitVec 6 := w.extractLsb' 26 6
def rdOf (w : BitVec 32) : BitVec 6 := w.extractLsb' 20 6
def raOf (w : BitVec 32) : BitVec 6 := w.extractLsb' 14 6
def rbOf (w : BitVec 32) : BitVec 6 := w.extractLsb' 8 6
def fnOf (w : BitVec 32) : BitVec 8 := w.extractLsb' 0 8

def regFOf (w : BitVec 32) : RegF := { rd := rdOf w, ra := raOf w, rb := rbOf w }
def regFnFOf (w : BitVec 32) : RegFnF := { rd := rdOf w, ra := raOf w, rb := rbOf w, fn := fnOf w }
def immFOf (w : BitVec 32) : ImmF := { rd := rdOf w, ra := raOf w, imm := w.extractLsb' 0 14 }
def cmpFOf (w : BitVec 32) : CmpF := { pd := w.extractLsb' 23 3, cc := w.extractLsb' 20 3, ra := raOf w, imm := w.extractLsb' 0 14 }
def longFOf (w : BitVec 32) : LongF := { rd := rdOf w, imm := w.extractLsb' 0 20 }
def brFOf (w : BitVec 32) : BrF := { ra := rdOf w, off := w.extractLsb' 0 20 }
def spcFOf (w : BitVec 32) : SpcF :=
  { rd := rdOf w, ra := raOf w, rb := rbOf w, sz := w.extractLsb' 6 2, st := w.extractLsb' 5 1, aop := w.extractLsb' 1 4,
    z := w.extractLsb' 0 1 }
def cpyFOf (w : BitVec 32) : CpyF := { rd := rdOf w, ra := raOf w, rb := rbOf w, rc := w.extractLsb' 2 6, z := w.extractLsb' 0 2 }
def dinsFOf (w : BitVec 32) : DinsF :=
  { dd := w.extractLsb' 22 4, ra := w.extractLsb' 16 6, pos := w.extractLsb' 7 9, wm1 := w.extractLsb' 1 6, z := w.extractLsb' 0 1 }
def dextFOf (w : BitVec 32) : DextF :=
  { rd := rdOf w, ds := w.extractLsb' 16 4, pos := w.extractLsb' 7 9, wm1 := w.extractLsb' 1 6, z := w.extractLsb' 0 1 }
def shortFOf (w : BitVec 32) : ShortF := { p := w.extractLsb' 23 3, z := w.extractLsb' 16 7, imm := w.extractLsb' 0 16 }

/-! ## Instructions without their context (R564, R565) -/

/-- A Thorum instruction as a word spells it: one constructor per instruction row of the opcode table. -/
inductive ThInstr where
  | add (f : RegF)
  | sub (f : RegF)
  | and (f : RegF)
  | or (f : RegF)
  | xor (f : RegF)
  | shl (f : RegF)
  | shr (f : RegF)
  | sra (f : RegF)
  | mul (f : RegF)
  | mulhu (f : RegF)
  | mulh (f : RegF)
  | divu (f : RegF)
  | remu (f : RegF)
  | min (f : RegF)
  | max (f : RegF)
  | minu (f : RegF)
  | maxu (f : RegF)
  | sxtb (f : RegF)
  | sxth (f : RegF)
  | sxtw (f : RegF)
  | clz (f : RegF)
  | popc (f : RegF)
  | sel (f : RegF) (p : BitVec 3)
  | cmpeq (f : RegF)
  | cmpne (f : RegF)
  | cmplt (f : RegF)
  | cmpltu (f : RegF)
  | cmple (f : RegF)
  | cmpleu (f : RegF)
  | cmpgt (f : RegF)
  | cmpgtu (f : RegF)
  | cmpge (f : RegF)
  | cmpgeu (f : RegF)
  | pmov (f : RegF)
  | pget (f : RegF)
  | pand (f : RegF)
  | por (f : RegF)
  | pxor (f : RegF)
  | pnot (f : RegF)
  | addi (f : ImmF)
  | andi (f : ImmF)
  | ori (f : ImmF)
  | xori (f : ImmF)
  | shli (f : ImmF)
  | shri (f : ImmF)
  | srai (f : ImmF)
  | cmpi (f : CmpF)
  | li (f : LongF)
  | lis (f : LongF)
  | b (f : BrF)
  | bl (f : BrF)
  | beqz (f : BrF)
  | bnez (f : BrF)
  | bp (f : BrF)
  | bnp (f : BrF)
  | jr (f : RegFnF)
  | ldlB (f : ImmF)
  | ldlH (f : ImmF)
  | ldlW (f : ImmF)
  | ldlD (f : ImmF)
  | ldd (f : ImmF)
  | stlB (f : ImmF)
  | stlH (f : ImmF)
  | stlW (f : ImmF)
  | stlD (f : ImmF)
  | std (f : ImmF)
  | ld (f : SpcF)
  | st (f : SpcF)
  | atomInstr (f : SpcF)
  | copy (f : CpyF)
  | enq (f : RegFnF)
  | waitT (f : RegFnF)
  | waitE (f : RegFnF)
  | waitC (f : ShortF)
  | rel (f : ShortF)
  | acq (f : ShortF)
  | fenceM (f : RegFnF)
  | msgSend (f : RegFnF)
  | msgRecv (f : RegFnF)
  | ses (f : RegFnF)
  | ver (f : RegFnF)
  | dins (f : DinsF)
  | dext (f : DextF)
  | dmov (f : RegF)
  | dclr (f : RegF)
  | csrr (f : RegFnF)
  | csrw (f : RegFnF)
  | rdtb (f : RegFnF)
  | rdcue (f : RegFnF)
  | evt (f : RegFnF)
  | trap (f : ShortF)
  | endScript (f : RegFnF)
deriving DecidableEq, Repr

/-- The instruction of an instruction event and the context that issues it. -/
def thorumOf : Instr → Option (CtxId × ThInstr)
  | .add c f => some (c, .add f)
  | .sub c f => some (c, .sub f)
  | .and c f => some (c, .and f)
  | .or c f => some (c, .or f)
  | .xor c f => some (c, .xor f)
  | .shl c f => some (c, .shl f)
  | .shr c f => some (c, .shr f)
  | .sra c f => some (c, .sra f)
  | .mul c f => some (c, .mul f)
  | .mulhu c f => some (c, .mulhu f)
  | .mulh c f => some (c, .mulh f)
  | .divu c f => some (c, .divu f)
  | .remu c f => some (c, .remu f)
  | .min c f => some (c, .min f)
  | .max c f => some (c, .max f)
  | .minu c f => some (c, .minu f)
  | .maxu c f => some (c, .maxu f)
  | .sxtb c f => some (c, .sxtb f)
  | .sxth c f => some (c, .sxth f)
  | .sxtw c f => some (c, .sxtw f)
  | .clz c f => some (c, .clz f)
  | .popc c f => some (c, .popc f)
  | .sel c f p => some (c, .sel f p)
  | .cmpeq c f => some (c, .cmpeq f)
  | .cmpne c f => some (c, .cmpne f)
  | .cmplt c f => some (c, .cmplt f)
  | .cmpltu c f => some (c, .cmpltu f)
  | .cmple c f => some (c, .cmple f)
  | .cmpleu c f => some (c, .cmpleu f)
  | .cmpgt c f => some (c, .cmpgt f)
  | .cmpgtu c f => some (c, .cmpgtu f)
  | .cmpge c f => some (c, .cmpge f)
  | .cmpgeu c f => some (c, .cmpgeu f)
  | .pmov c f => some (c, .pmov f)
  | .pget c f => some (c, .pget f)
  | .pand c f => some (c, .pand f)
  | .por c f => some (c, .por f)
  | .pxor c f => some (c, .pxor f)
  | .pnot c f => some (c, .pnot f)
  | .addi c f => some (c, .addi f)
  | .andi c f => some (c, .andi f)
  | .ori c f => some (c, .ori f)
  | .xori c f => some (c, .xori f)
  | .shli c f => some (c, .shli f)
  | .shri c f => some (c, .shri f)
  | .srai c f => some (c, .srai f)
  | .cmpi c f => some (c, .cmpi f)
  | .li c f => some (c, .li f)
  | .lis c f => some (c, .lis f)
  | .b c f => some (c, .b f)
  | .bl c f => some (c, .bl f)
  | .beqz c f => some (c, .beqz f)
  | .bnez c f => some (c, .bnez f)
  | .bp c f => some (c, .bp f)
  | .bnp c f => some (c, .bnp f)
  | .jr c f => some (c, .jr f)
  | .ldlB c f => some (c, .ldlB f)
  | .ldlH c f => some (c, .ldlH f)
  | .ldlW c f => some (c, .ldlW f)
  | .ldlD c f => some (c, .ldlD f)
  | .ldd c f => some (c, .ldd f)
  | .stlB c f => some (c, .stlB f)
  | .stlH c f => some (c, .stlH f)
  | .stlW c f => some (c, .stlW f)
  | .stlD c f => some (c, .stlD f)
  | .std c f => some (c, .std f)
  | .ld c f => some (c, .ld f)
  | .st c f => some (c, .st f)
  | .atomInstr c f => some (c, .atomInstr f)
  | .copy c f => some (c, .copy f)
  | .enq c f => some (c, .enq f)
  | .waitT c f => some (c, .waitT f)
  | .waitE c f => some (c, .waitE f)
  | .waitC c f => some (c, .waitC f)
  | .rel c f => some (c, .rel f)
  | .acq c f => some (c, .acq f)
  | .fenceM c f => some (c, .fenceM f)
  | .msgSend c f => some (c, .msgSend f)
  | .msgRecv c f => some (c, .msgRecv f)
  | .ses c f => some (c, .ses f)
  | .ver c f => some (c, .ver f)
  | .dins c f => some (c, .dins f)
  | .dext c f => some (c, .dext f)
  | .dmov c f => some (c, .dmov f)
  | .dclr c f => some (c, .dclr f)
  | .csrr c f => some (c, .csrr f)
  | .csrw c f => some (c, .csrw f)
  | .rdtb c f => some (c, .rdtb f)
  | .rdcue c f => some (c, .rdcue f)
  | .evt c f => some (c, .evt f)
  | .trap c f => some (c, .trap f)
  | .endScript c f => some (c, .endScript f)
  | _ => none

/-! ## The encoder (R561, R564, R565) -/

/-- The word of an instruction. -/
def encode : ThInstr → BitVec 32
  | .add f => encAlu 0x00 f
  | .sub f => encAlu 0x01 f
  | .and f => encAlu 0x02 f
  | .or f => encAlu 0x03 f
  | .xor f => encAlu 0x04 f
  | .shl f => encAlu 0x05 f
  | .shr f => encAlu 0x06 f
  | .sra f => encAlu 0x07 f
  | .mul f => encAlu 0x08 f
  | .mulhu f => encAlu 0x09 f
  | .mulh f => encAlu 0x0A f
  | .divu f => encAlu 0x0B f
  | .remu f => encAlu 0x0C f
  | .min f => encAlu 0x0D f
  | .max f => encAlu 0x0E f
  | .minu f => encAlu 0x0F f
  | .maxu f => encAlu 0x10 f
  | .sxtb f => encAlu 0x11 f
  | .sxth f => encAlu 0x12 f
  | .sxtw f => encAlu 0x13 f
  | .clz f => encAlu 0x14 f
  | .popc f => encAlu 0x15 f
  | .sel f p => encAlu ((0x03 : BitVec 5) ++ p) f
  | .cmpeq f => encAlu 0x20 f
  | .cmpne f => encAlu 0x21 f
  | .cmplt f => encAlu 0x22 f
  | .cmpltu f => encAlu 0x23 f
  | .cmple f => encAlu 0x24 f
  | .cmpleu f => encAlu 0x25 f
  | .cmpgt f => encAlu 0x26 f
  | .cmpgtu f => encAlu 0x27 f
  | .cmpge f => encAlu 0x28 f
  | .cmpgeu f => encAlu 0x29 f
  | .pmov f => encAlu 0x2A f
  | .pget f => encAlu 0x2B f
  | .pand f => encAlu 0x2C f
  | .por f => encAlu 0x2D f
  | .pxor f => encAlu 0x2E f
  | .pnot f => encAlu 0x2F f
  | .addi f => encImm 0x01 f
  | .andi f => encImm 0x02 f
  | .ori f => encImm 0x03 f
  | .xori f => encImm 0x04 f
  | .shli f => encImm 0x05 f
  | .shri f => encImm 0x06 f
  | .srai f => encImm 0x07 f
  | .cmpi f => encCmp 0x08 f
  | .li f => encLong 0x09 f
  | .lis f => encLong 0x0A f
  | .b f => encBr 0x0C f
  | .bl f => encBr 0x0D f
  | .beqz f => encBr 0x0E f
  | .bnez f => encBr 0x0F f
  | .bp f => encBr 0x10 f
  | .bnp f => encBr 0x11 f
  | .jr f => encRegFn 0x12 f
  | .ldlB f => encImm 0x14 f
  | .ldlH f => encImm 0x15 f
  | .ldlW f => encImm 0x16 f
  | .ldlD f => encImm 0x17 f
  | .ldd f => encImm 0x18 f
  | .stlB f => encImm 0x19 f
  | .stlH f => encImm 0x1A f
  | .stlW f => encImm 0x1B f
  | .stlD f => encImm 0x1C f
  | .std f => encImm 0x1D f
  | .ld f => encSpc 0x20 f
  | .st f => encSpc 0x21 f
  | .atomInstr f => encSpc 0x22 f
  | .copy f => encCpy 0x24 f
  | .enq f => encRegFn 0x25 f
  | .waitT f => encRegFn 0x26 f
  | .waitE f => encRegFn 0x27 f
  | .waitC f => encShort 0x28 f
  | .rel f => encShort 0x29 f
  | .acq f => encShort 0x2A f
  | .fenceM f => encRegFn 0x2B f
  | .msgSend f => encRegFn 0x2C f
  | .msgRecv f => encRegFn 0x2D f
  | .ses f => encRegFn 0x2E f
  | .ver f => encRegFn 0x2F f
  | .dins f => encDins 0x30 f
  | .dext f => encDext 0x31 f
  | .dmov f => encReg 0x32 f.rd f.ra f.rb 0x00
  | .dclr f => encReg 0x32 f.rd f.ra f.rb 0x01
  | .csrr f => encRegFn 0x34 f
  | .csrw f => encRegFn 0x35 f
  | .rdtb f => encRegFn 0x36 f
  | .rdcue f => encRegFn 0x37 f
  | .evt f => encRegFn 0x38 f
  | .trap f => encShort 0x39 f
  | .endScript f => encRegFn 0x3A f

/-! ## What a word shows by itself (R560) -/

/-- A register field that names a predicate register. -/
def namesP (r : BitVec 6) : Bool := r.toNat < 8
/-- A register field that names a descriptor register. -/
def namesD (r : BitVec 6) : Bool := r.toNat < 16

/-- The ALU functions of R565 and the fields they restrict. -/
def aluOk (w : BitVec 32) : Bool :=
  let fn := (fnOf w).toNat
  if fn ≤ 0x10 then true
  else if fn ≤ 0x15 then rbOf w == 0
  else if fn < 0x18 then false
  else if fn ≤ 0x1F then true
  else if fn ≤ 0x2A then namesP (rdOf w)
  else if fn = 0x2B then namesP (raOf w)
  else if fn ≤ 0x2E then namesP (rdOf w) && namesP (raOf w) && namesP (rbOf w)
  else if fn = 0x2F then namesP (rdOf w) && namesP (raOf w)
  else false

/-- Atomic operation codes of R141 with their widths: FADD only with SZ 2. -/
def atomOk (f : SpcF) : Bool :=
  f.z == 0 && f.aop.toNat ≤ 0xA && (f.sz == 2 || f.sz == 3) && !(f.aop == 0xA && f.sz != 2) &&
    !(f.st == 1 && f.rd.toNat % 2 == 1) && !(f.aop == 9 && f.rb.toNat % 2 == 1)

/-- R560, less the condition on the PC: whether a word is a defined instruction with legal fields. -/
def staticOk (w : BitVec 32) : Bool :=
  let s := shortFOf w
  let z3 := rbOf w == 0 && fnOf w == 0
  match (opOf w).toNat with
  | 0x00 => aluOk w
  | 0x01 | 0x02 | 0x03 | 0x04 => true
  | 0x05 | 0x06 | 0x07 => (immFOf w).imm.toNat < 64
  | 0x08 | 0x09 | 0x0A => true
  | 0x0C => rdOf w == 0
  | 0x0D | 0x0E | 0x0F => true
  | 0x10 | 0x11 => namesP (rdOf w)
  | 0x12 => rdOf w == 0 && z3
  | 0x14 | 0x15 | 0x16 | 0x17 => true
  | 0x18 => namesD (rdOf w)
  | 0x19 | 0x1A | 0x1B | 0x1C => true
  | 0x1D => namesD (rdOf w)
  | 0x20 => (spcFOf w).z == 0 && (spcFOf w).aop == 0 && !((spcFOf w).st == 1 && (rdOf w).toNat % 2 == 1)
  | 0x21 => (spcFOf w).z == 0 && (spcFOf w).aop == 0
  | 0x22 => atomOk (spcFOf w)
  | 0x24 => (cpyFOf w).z == 0
  | 0x25 => namesD (raOf w) && z3
  | 0x26 => z3
  | 0x27 => fnOf w == 0
  | 0x28 => s.p == 0 && s.z == 0 && s.imm != 0
  | 0x29 | 0x2A => s.p == 0 && s.z == 0 && s.imm.toNat ≤ 4
  | 0x2B => (rdOf w).toNat % 2 == 0 && raOf w == 0 && z3
  | 0x2C => namesD (raOf w) && z3
  | 0x2D => namesD (rdOf w) && raOf w == 0 && z3
  | 0x2E | 0x2F => namesD (raOf w) && z3
  | 0x30 => (dinsFOf w).z == 0 && (dinsFOf w).pos.toNat + (dinsFOf w).wm1.toNat + 1 ≤ 512
  | 0x31 => (dextFOf w).z == 0 && (dextFOf w).pos.toNat + (dextFOf w).wm1.toNat + 1 ≤ 512
  | 0x32 => (fnOf w == 0 && namesD (rdOf w) && namesD (raOf w)) || (fnOf w == 1 && namesD (rdOf w))
  | 0x34 => z3
  | 0x35 => rdOf w == 0 && fnOf w == 0
  | 0x36 | 0x37 => raOf w == 0 && z3
  | 0x38 => rdOf w == 0 && fnOf w == 0
  | 0x39 => s.z == 0
  | 0x3A => rdOf w == 0 && fnOf w == 0
  | _ => false

/-! ## The decoder -/

/-- The ALU instruction of a legal word. -/
def decodeAlu (w : BitVec 32) : Option ThInstr :=
  let f := regFOf w
  match (fnOf w).toNat with
  | 0x00 => some (.add f) | 0x01 => some (.sub f) | 0x02 => some (.and f) | 0x03 => some (.or f) | 0x04 => some (.xor f) | 0x05 => some (.shl f)
  | 0x06 => some (.shr f) | 0x07 => some (.sra f) | 0x08 => some (.mul f) | 0x09 => some (.mulhu f) | 0x0A => some (.mulh f) | 0x0B => some (.divu f)
  | 0x0C => some (.remu f) | 0x0D => some (.min f) | 0x0E => some (.max f) | 0x0F => some (.minu f) | 0x10 => some (.maxu f) | 0x11 => some (.sxtb f)
  | 0x12 => some (.sxth f) | 0x13 => some (.sxtw f) | 0x14 => some (.clz f) | 0x15 => some (.popc f)
  | 0x18 => some (.sel f 0) | 0x19 => some (.sel f 1) | 0x1A => some (.sel f 2) | 0x1B => some (.sel f 3) | 0x1C => some (.sel f 4) | 0x1D => some (.sel f 5)
  | 0x1E => some (.sel f 6) | 0x1F => some (.sel f 7)
  | 0x20 => some (.cmpeq f) | 0x21 => some (.cmpne f) | 0x22 => some (.cmplt f) | 0x23 => some (.cmpltu f) | 0x24 => some (.cmple f)
  | 0x25 => some (.cmpleu f) | 0x26 => some (.cmpgt f) | 0x27 => some (.cmpgtu f) | 0x28 => some (.cmpge f) | 0x29 => some (.cmpgeu f)
  | 0x2A => some (.pmov f) | 0x2B => some (.pget f) | 0x2C => some (.pand f) | 0x2D => some (.por f) | 0x2E => some (.pxor f) | 0x2F => some (.pnot f)
  | _ => none

/-- The instruction of a legal word by its major opcode (R564). -/
def decodeOp (w : BitVec 32) : Option ThInstr :=
  match (opOf w).toNat with
  | 0x00 => decodeAlu w
  | 0x01 => some (.addi (immFOf w)) | 0x02 => some (.andi (immFOf w)) | 0x03 => some (.ori (immFOf w)) | 0x04 => some (.xori (immFOf w))
  | 0x05 => some (.shli (immFOf w)) | 0x06 => some (.shri (immFOf w)) | 0x07 => some (.srai (immFOf w))
  | 0x08 => some (.cmpi (cmpFOf w)) | 0x09 => some (.li (longFOf w)) | 0x0A => some (.lis (longFOf w))
  | 0x0C => some (.b (brFOf w)) | 0x0D => some (.bl (brFOf w)) | 0x0E => some (.beqz (brFOf w)) | 0x0F => some (.bnez (brFOf w))
  | 0x10 => some (.bp (brFOf w)) | 0x11 => some (.bnp (brFOf w)) | 0x12 => some (.jr (regFnFOf w))
  | 0x14 => some (.ldlB (immFOf w)) | 0x15 => some (.ldlH (immFOf w)) | 0x16 => some (.ldlW (immFOf w)) | 0x17 => some (.ldlD (immFOf w))
  | 0x18 => some (.ldd (immFOf w))
  | 0x19 => some (.stlB (immFOf w)) | 0x1A => some (.stlH (immFOf w)) | 0x1B => some (.stlW (immFOf w)) | 0x1C => some (.stlD (immFOf w))
  | 0x1D => some (.std (immFOf w))
  | 0x20 => some (.ld (spcFOf w)) | 0x21 => some (.st (spcFOf w)) | 0x22 => some (.atomInstr (spcFOf w))
  | 0x24 => some (.copy (cpyFOf w)) | 0x25 => some (.enq (regFnFOf w)) | 0x26 => some (.waitT (regFnFOf w)) | 0x27 => some (.waitE (regFnFOf w))
  | 0x28 => some (.waitC (shortFOf w)) | 0x29 => some (.rel (shortFOf w)) | 0x2A => some (.acq (shortFOf w))
  | 0x2B => some (.fenceM (regFnFOf w)) | 0x2C => some (.msgSend (regFnFOf w)) | 0x2D => some (.msgRecv (regFnFOf w))
  | 0x2E => some (.ses (regFnFOf w)) | 0x2F => some (.ver (regFnFOf w))
  | 0x30 => some (.dins (dinsFOf w)) | 0x31 => some (.dext (dextFOf w))
  | 0x32 => if fnOf w == 0 then some (.dmov (regFOf w)) else some (.dclr (regFOf w))
  | 0x34 => some (.csrr (regFnFOf w)) | 0x35 => some (.csrw (regFnFOf w)) | 0x36 => some (.rdtb (regFnFOf w)) | 0x37 => some (.rdcue (regFnFOf w))
  | 0x38 => some (.evt (regFnFOf w)) | 0x39 => some (.trap (shortFOf w)) | 0x3A => some (.endScript (regFnFOf w))
  | _ => none

/-- The instruction that a word spells: none for a word that R560 refuses. -/
def decode (w : BitVec 32) : Option ThInstr := if staticOk w then decodeOp w else none

end Sys2Proof.Machine
end

