-- ==== Sys2Proof/Machine/Flags.lean ====
section
/-! DEFINITION. The flags of a Thorum context are its predicate registers p0 to p7: the conditions of the compare instructions
(R564, R565) and the values they give. -/

namespace Sys2Proof.Machine

/-- The conditions of the compare instructions. -/
inductive Cond where
  | eq | ne | lt | ltu | le | leu | gt | gtu | ge | geu
deriving DecidableEq, Repr

/-- Whether a condition holds between two register values. -/
def Cond.holds : Cond → Word → Word → Bool
  | .eq, a, b => a == b
  | .ne, a, b => a != b
  | .lt, a, b => a.slt b
  | .ltu, a, b => a.ult b
  | .le, a, b => a.sle b
  | .leu, a, b => a.ule b
  | .gt, a, b => b.slt a
  | .gtu, a, b => b.ult a
  | .ge, a, b => b.sle a
  | .geu, a, b => b.ule a

/-- CC of cmpi: 0 eq, 1 ne, 2 lt, 3 ltu, 4 le, 5 leu, 6 gt, 7 gtu (R564). -/
def condOfCC (cc : BitVec 3) : Cond :=
  match cc.toNat with
  | 0 => .eq | 1 => .ne | 2 => .lt | 3 => .ltu | 4 => .le | 5 => .leu | 6 => .gt | _ => .gtu

/-- imm14 of cmpi: zero-extended for ltu, leu and gtu, else sign-extended (R564). -/
def cmpImm (cc : BitVec 3) (imm : BitVec 14) : Word :=
  if cc = 3 ∨ cc = 5 ∨ cc = 7 then imm.zeroExtend 64 else imm.signExtend 64

/-- The value of predicate register r: p0 reads as 1 (R67). -/
def pGet (p : BitVec 8) (r : Nat) : Bool := if r = 0 then true else p.getLsbD r

/-- Writes predicate register r; a write to p0 is discarded (R67). -/
def pSet (p : BitVec 8) (r : Nat) (v : Bool) : BitVec 8 :=
  if r = 0 then p else if v then p ||| (1#8 <<< r) else p &&& ~~~(1#8 <<< r)

end Sys2Proof.Machine
end

