-- ==== Sys2Proof/Config.lean ====
section
/-! DEFINITION. What an implementation fixes or the manual leaves open: constants without a body, of which no proof can see
the value. -/

namespace Sys2Proof

/-- A draw of the 32-bit generators of R216: seeded from sensors, so no value is stated. [DESIGN CHOICE: log 4, 7] -/
opaque Config.draw32 : Nat → BitVec 32

/-- Bits that the manual states no value for. [DESIGN CHOICE: log 103] -/
opaque Config.free64 : Nat → BitVec 64

/-- Code lengths that the encoder finds for symbol counts (R448): several sets of lengths are least. [DESIGN CHOICE: log 78] -/
opaque Config.huffLengths : List Nat → List Nat

/-- The child index that a device puts into the notices it sends up (R252): its tree record does not hold it. Partition and GROUP.
[DESIGN CHOICE: log 47] -/
opaque Config.childIndex : Nat → Nat → BitVec 4

/-- The status of an abort of a group that is not held (R234), as a code below 14. Partition and GROUP. [DESIGN CHOICE: log 47] -/
opaque Config.abortUnheld : Nat → Nat → BitVec 4

/-- An infinite sum in E4M3, which has no infinity (R245): negative or not. [DESIGN CHOICE: log 51] -/
opaque Config.e4m3Inf : Bool → BitVec 8

/-- Element of an MX output block whose scale is NaN (R245): number of the element. [DESIGN CHOICE: log 51] -/
opaque Config.nanBlock : Nat → BitVec 8

/-- MIN (false) or MAX (true) in FAST mode of a NaN, or of zeros of different signs (R248). [DESIGN CHOICE: log 50] -/
opaque Config.fastExtreme : Bool → BitVec 32 → BitVec 32 → BitVec 32

/-- Bytes that the manual leaves undefined: index of the occasion, and position. -/
opaque Config.freeByte : Nat → Nat → BitVec 8

/-- How the exponential unit rounds: within 1 ulp of the exact value (R296). Bit pattern of the argument. [DESIGN CHOICE: log 58] -/
opaque Config.expRound : BitVec 32 → BitVec 2

/-- The code of a conversion of a Mica array (R310, R323, R342): occasion, array, column and ideal code. -/
opaque Config.micaCode : Nat → Nat → Nat → Nat → BitVec 6

/-- How a quotient is rounded where the manual names no rounding, or no rule for a tie: place, numerator, denominator; true rounds up.
[DESIGN CHOICE: log 64] -/
opaque Config.roundsUp : Nat → Int → Int → Bool

/-- TCO (0) or TCG (1) of a column of a Mica array in the signed firmware image (R338). Array and column. -/
opaque Config.fwTrim : Nat → Nat → Nat → BitVec 8

/-- Which of several free things the device takes where the manual names no order: place, occasion. [DESIGN CHOICE: log 5] -/
opaque Config.pick : Nat → Nat → Nat

/-- Cues that a sprayed packet takes on the mesh, of each draw (R28, R221). [UNVERIFIED: log 82] -/
opaque Config.sprayCues : Nat → BitVec 4

/-- K_ROOT as the key engine reconstructs it from the SRAM array (R493). -/
opaque Config.kRoot : Bytes

/-- The identity public key that K_ROOT gives (R496). [PRESUMED: log 9] -/
opaque Config.identPub : Bytes → Bytes

/-- RSAES-OAEP under a public key (R502, R504): key, message, and the occasion, whose randomness it holds. [PRESUMED: log 9] -/
opaque Config.oaepSeal : Bytes → Bytes → Nat → Bytes

/-- The inverse under the identity private key of a root: none where it fails to unwrap. [PRESUMED: log 9] -/
opaque Config.oaepOpen : Bytes → Bytes → Option Bytes

/-- A byte drawn from the key engine's DRBG (R502, R504): occasion, and position. [DESIGN CHOICE: log 7] -/
opaque Config.drbg : Nat → Nat → BitVec 8

/-- An RSA signature of the identity key (R506): root, what is signed, occasion. [DESIGN CHOICE: log 7; PRESUMED: log 9] -/
opaque Config.sign : Bytes → Bytes → Nat → Bytes

/-- What the boot flash and the ROM hold (R497 to R500, R507): 0 certificate chain, 1 digest of the boot ROM, 2 and 3 digests of the firmware
images of slots 0 and 1, 4 digest of the configuration image. -/
opaque Config.flash : Nat → Bytes

end Sys2Proof
end

