-- ==== Sys2Proof/Machine/State.lean ====
section
/-! DEFINITION. The state of the ZT-3600 block as plain data: one structure per chapter of the manual, all of them together in
Dev, and the queue of commands that wait. Fault, Refusal and the state after reset. -/

namespace Sys2Proof.Machine

/-! ## Memory (chapters 1, 4, 15, 16) -/

/-- What the check bits of a granule say (R461): nothing wrong is the default. -/
inductive Ecc where
  | good | ce | ue
deriving DecidableEq, Repr

/-- NEAR and STRATUM bytes keyed by full device address (R6, R23, R27), with the marks of R464, the state of the check bits,
the write-backs of R461 and the frame dirty bits of R357. -/
structure Mem where
  bytes : List Host.Cell
  /-- poison marks, keyed by address / 64 -/
  marks : Tab Bool
  /-- granules whose check bits hold an error, keyed by address / 64 -/
  ecc : Tab Ecc
  /-- granules with a write-back pending (R461) -/
  writeBack : List Nat
  /-- dirty bits, keyed by address / 2 MiB -/
  dirty : Tab Bool
deriving DecidableEq, Repr

/-! ## Timebase and cue (chapter 2) -/

inductive TbState where
  | unlocked | acquiring | tracking | locked | holdover | freeRun
deriving DecidableEq, Repr

/-- The timebase and the cue grid. Times within the grid are counted in 1/64 ACLK since reset release. -/
structure Tb where
  state : TbState
  stepped : Bool
  /-- TBASE at the starting boundary of the cue in progress, ns (R34) -/
  tbase : Nat
  /-- ns after that boundary at which TBASE was last read in this cue; the commands carry no time within a cue -/
  sub : Nat
  /-- CUE_COUNT (R35) -/
  cueCount : Nat
  /-- planned length of the cue in progress, ACLK (R33) -/
  cueLen : Nat
  /-- ACLK since reset release at the start of the cue in progress -/
  aclk : Nat
  /-- ACLK at which slot index 0 falls (R39) -/
  slot0 : Nat
  /-- ACLK of the last cue 0 of a second -/
  cue0At : Nat
  /-- consecutive intervals within 1 s ± 1 ms since ACQUIRING was entered (R56) -/
  goodInt : Nat
  /-- time of the last edge in ACQUIRING, or of the last accepted edge, 1/64 ACLK -/
  lastEdge : Option Nat
  /-- edges that the cue-0 boundary after them will measure (R61), 1/64 ACLK, oldest first -/
  edges : List Nat
  /-- accepted edges since TRACKING was entered (TB_STAT.GOOD_EDGES) -/
  goodEdges : Nat
  /-- consecutive accepted edges with |e| at most 10 ns -/
  lockRun : Nat
  /-- errors of the consecutive outliers seen, newest first, 1/64 ACLK (R58) -/
  outliers : List Int
  /-- phase still to be slewed, 1/64 ACLK; positive lengthens cues -/
  slew : Int
  /-- slew at the last cue 0 of a second: how far after that boundary an edge is expected -/
  slew0 : Int
  /-- an edge was accepted for that boundary -/
  met : Bool
  /-- last measured frequency offset, 1/64 ACLK per second, and the part not yet applied, in 1/64 ACLK / 4,000,000 -/
  freq : Int
  freqAcc : Int
  lastTrim : Int
  /-- error and time of the last 16 accepted edges, newest first (R61), 1/64 ACLK -/
  hist : List (Int × Nat)
  /-- LOCKED for the whole window so far (R62) -/
  lockedWin : Bool
  /-- the window was cut short by the step (R584) -/
  cutWin : Bool
  /-- the cue in progress began at a 1 ms boundary whose work is still to come -/
  msDue : Bool
  /-- the timing ratio last published: none is "no value" -/
  ratio : Option Nat
  ppsOut : Bool
deriving DecidableEq, Repr

/-- Shares, calendar and background periods (R41 to R47). -/
structure Cue where
  /-- active share of each partition -/
  shares : Tab Nat
  applyPending : Bool
  /-- R45's search pointer of each resource -/
  ptr : Tab Nat
  /-- slots of each gated resource that have gone by in the cue in progress, and those given to a partition and not yet used, keyed by
  resource × 16 + partition (R37, R65, R575) -/
  gone : Tab Nat
  credit : Tab Nat
  /-- the calendar index f and the slot index at which the duty in force began (R553) -/
  fBase : Nat
  fAt : Nat
  /-- CUE_BG_STAT -/
  overload : Bool
  late : BitVec 6
  /-- consecutive windows in which every class met its period while in BG_OVERLOAD -/
  okWindows : Nat
  /-- wings round robin: the turn within the 16 weights of each resource kind (R41) -/
  wingsTurn : Tab Nat
  /-- wings slots that each class was given on a resource, keyed by resource × 8 + class -/
  served : Tab Nat
  /-- scrub position of each NEAR bank (tile) and stack (16 + stack), in granules -/
  scrubPos : Tab Nat
deriving DecidableEq, Repr

/-! ## Thorum (chapters 3 and 20) -/

/-- A waiting or running context (R65, R75, R91). -/
inductive CtxRun where
  | free
  | running
  | waitT (slot : Nat) (rd : Nat)
  | waitE (mask : BitVec 32) (until? : Option Nat) (rd : Nat)
  | waitC (untilCue : Nat)
  /-- ended; FREE once all its tickets have completed -/
  | ended
deriving DecidableEq, Repr

/-- What a ticket stands for. -/
inductive TicketKind where
  | copy | desc | prim | msg
deriving DecidableEq, Repr

structure Ticket where
  gen : Nat
  kind : TicketKind
  /-- completion status, none while the work runs -/
  done : Option Status
  /-- MSG tickets whose tag entered LOST (R153) -/
  lost : Bool
  /-- place in the context's order of issue (R153) -/
  seq : Nat
deriving DecidableEq, Repr

inductive AccKind where
  | load | store | atomic
deriving DecidableEq, Repr

/-- An outstanding space access of a context (R567). -/
structure SpaceAcc where
  kind : AccKind
  addr : Word
  n : Nat
  rd : Nat
  st : Bool
  aop : Nat
  v1 : Word
  v2 : Word
  pc : Nat
  instr : BitVec 32
  /-- access record at the home, once it was started there -/
  acc : Option Nat
deriving DecidableEq, Repr

structure MsgEntry where
  srcDev : Nat
  len : Nat
  addr : Word
  notify : Word
deriving DecidableEq, Repr

/-- The transaction that an agent or peer waits on: what its answer copies (R140), its uid, the operation code of an OPREQ, and the
cells of the answer reserve held for it (R203). -/
structure ReqId where
  link : Nat
  tag : BitVec 13
  stream : BitVec 8
  rseq : BitVec 16
  tc : BitVec 3
  cong : Bool
  uid : Nat
  opcode : Nat
  rsv : Nat
deriving DecidableEq, Repr

structure Ctx where
  run : CtxRun
  part : Nat
  /-- uid of the bundle image that the script runs (R97) -/
  code : Nat
  pc : Nat
  g : Tab Word
  p : BitVec 8
  d : Tab Desc
  loc : List Host.Cell
  tickets : Tab Ticket
  gens : Tab Nat
  /-- tickets issued so far -/
  issued : Nat
  events : BitVec 32
  msgq : List MsgEntry
  req : Option ReqId
  /-- CUE_COUNT at dispatch, and the binding's BUDGET -/
  startCue : Nat
  budget : Nat
  outst : List SpaceAcc
  /-- a posted store failed while the context waited: status, PC and word of the store (R567) -/
  pendErr : Option (Status × Nat × BitVec 32)
  /-- cues without a retired instruction (watchdog of reserved context 15, R468) -/
  idleCues : Nat
  wdogFired : Bool
deriving DecidableEq, Repr

/-- A request waiting in a dispatch queue (R83). -/
structure QReq where
  req : ReqId
  txn : Txn
  cueIn : Nat
  admitCues : Nat
  /-- TBASE at which the OPREQ reached the tile (R68) -/
  stamp : Nat
deriving DecidableEq, Repr

structure Binding where
  opcode : Nat
  entry : Nat
  budget : Nat
  admitCues : Nat
  minArg : Nat
  roles : Nat
deriving DecidableEq, Repr

/-- A committed bundle (R94, R97). -/
structure Bundle where
  uid : Nat
  part : Nat
  slot : Nat
  words : List (BitVec 32)
  image : Bytes
  binds : List Binding
  digest : Bytes
  commitCue : Nat
  /-- in force for new dispatches; false once replaced or unloaded -/
  live : Bool
deriving DecidableEq, Repr

/-- A bundle being loaded (BUNDLE_BEGIN, BUNDLE_DATA). -/
structure Loading where
  len : Nat
  bytes : List Host.Cell
deriving DecidableEq, Repr

/-- A COPY in progress (R568). -/
structure CopyJob where
  ctx : CtxId
  slot : Nat
  gen : Nat
  part : Nat
  dst : Word
  src : Word
  len : Nat
  /-- status of the checks of R104 and R101 if one failed -/
  failed : Option Status
  /-- host lines fetched for it (R538), keyed by host physical address -/
  host : Tab Bytes
  /-- bytes moved so far: false until the copy has run -/
  moved : Bool
  /-- its result, and mirror frames whose MACK is awaited (R420): stream, MSEQ -/
  result : Status
  waitMack : List (Nat × Nat)
deriving DecidableEq, Repr

/-- A session or version primitive in progress for a context (R571). -/
structure Prim where
  ctx : CtxId
  slot : Nat
  gen : Nat
  status : Status
  note : Bool
  result : Option (Nat × Bytes)
deriving DecidableEq, Repr

structure Thr where
  /-- contexts keyed by tile × 256 + core × 16 + ctx -/
  ctxs : Tab Ctx
  /-- partition (plus 1) that owns a context, same keys; 0: none -/
  owner : Tab Nat
  /-- THR_CFG of each partition: contexts per tile, queue depth, store quota in KiB -/
  cfg : Tab (Nat × Nat × Nat)
  /-- dispatch queues keyed by tile × 16 + partition, oldest first -/
  queue : Tab (List QReq)
  bundles : List Bundle
  /-- commits that wait for the commit cue -/
  staged : List Bundle
  /-- keyed by partition × 16 + slot -/
  loading : Tab Loading
  nextUid : Nat
  copies : List CopyJob
  prims : List Prim
deriving DecidableEq, Repr

/-! ## Engines (chapters 3, 8 to 11, 15, 20) -/

/-- What an attention job keeps in its engine (R306, R307, R344). -/
structure AttJob where
  len : Nat
  pinned : Bool
  arrays : List Nat
  nArr : Nat
  topk : Option Nat
  scored : Nat
  sel : List Nat
  ck : Nat
  tau : Nat
  cut : Nat
  fallback : Bool
  trunc : Bool
  withdrawn : Bool
  arrMask : Nat
  /-- blocks of candidates scored (R331) -/
  blk : Nat
  /-- the job counts in the sampling of the shadow (R343) -/
  eligible : Bool
  shadowed : Bool
  journal : Option Nat
  /-- weights of the query sketches (R327), the shift of R324 and the histogram of codes (R306) -/
  w : List (List Int)
  shift : Nat
  hist : List Nat
  /-- EXACT runs over a journalled selection (R434) -/
  resumed : Bool
deriving DecidableEq, Repr

/-- Where an attention job stands. -/
inductive JobPhase where
  | fresh | loaded | scored | selected | exact | finished
deriving DecidableEq, Repr

/-- A descriptor in an engine queue (R76) or at work. -/
structure DescEntry where
  id : Nat
  ctx : CtxId
  slot : Nat
  gen : Nat
  part : Nat
  word : Desc
  ext : Bytes
  started : Bool
  firstCue : Nat
  /-- ACLK of work done (R575) -/
  work : Nat
  /-- set once the descriptor's work has ended -/
  status : Option Status
  phase : JobPhase
  att : AttJob
  /-- top-k state of a TOPK descriptor -/
  topk : Option Nat
  /-- snoop descriptors attached to it (R284), by descriptor id -/
  snoops : List Nat
  /-- armed SNOOP_ENGINE: granule copies folded so far, keyed by address; SNOOP_PORT: bytes folded, keyed by position -/
  folded : List Host.Cell
  nFolded : Nat
  nTrans : Nat
  /-- SNOOP_ENGINE: the descriptor it is attached to, and that descriptor's status once it has one -/
  target : Option Nat
  targetDone : Option Status
  /-- mirror frames whose MACK the ticket waits for (R420): stream, MSEQ -/
  waitMack : List (Nat × Nat)
deriving DecidableEq, Repr

structure Eng where
  /-- queues keyed by (tile × 128 + class × 16 + inst) × 16 + partition, oldest first -/
  queue : Tab (List DescEntry)
  nextId : Nat
  /-- engines with a shadow to run after their job (R311) -/
  shadows : List DescEntry
  /-- top-k states held: tile × 8 + state ↦ partition + 1 -/
  topk : Tab Nat
  /-- CUE_COUNT of the last work unit completed, keyed by tile × 128 + class × 16 + inst -/
  lastUnit : Tab Nat
  hung : List EngId
  /-- partition plus 1 whose descriptor was involved when the engine hung, keyed by tile × 128 + class × 16 + inst -/
  hungPart : Tab Nat
deriving DecidableEq, Repr

/-! ## Transactions (chapters 4 and 5) -/

inductive TxKind where
  | rd | wr | wrf | atom | opreq | msg
deriving DecidableEq, Repr

/-- The record that an attach tile keeps per tag (R145). -/
structure TagRec where
  id : ReqId
  kind : TxKind
  done : Bool
  status : Status
  aux : Nat
  /-- old value of an ATOM, or result of an OPREQ -/
  ret : Bytes
  /-- an OPREQ result that is no longer held for replay (R146) -/
  dropped : Bool
  receipted : Bool
  /-- repeats of a completed RD that are being read again, by uid (R145) -/
  again : List Nat
  doneCue : Nat
deriving DecidableEq, Repr

/-- A counted store of a source (R127, R128): its RSEQ, and that RSEQ counted on past its wraps. -/
structure Counted where
  rseq : Nat
  pos : Nat
  seq : Nat
  /-- none while it runs -/
  done : Option Status
deriving DecidableEq, Repr

/-- A WRF whose flag is held (R129). -/
structure HeldWrf where
  txn : Txn
  id : ReqId
  rseq : Nat
  /-- its RSEQ counted on past its wraps -/
  pos : Nat
  accepted : Nat
  seq : Nat
  dataDone : Option Status
  /-- acceptance numbers of the source's other stores that were accepted before it and still ran then (R129) -/
  waitFor : List Nat
  /-- some store failed and the members are being awaited (R130) -/
  failing : Bool
deriving DecidableEq, Repr

/-- The period state of a source (link, stream): R127 to R130. -/
structure WrfSrc where
  counted : List Counted
  held : List HeldWrf
  /-- data of WRFs that timed out while it was still being written (R129) -/
  loose : List Counted
  /-- RSEQs of WRFs resolved, counted on past their wraps, in order of resolution -/
  resolved : List Nat
  seq : Nat
  /-- the latest RSEQ accepted, counted on past its wraps; 0: none yet -/
  top : Nat
deriving DecidableEq, Repr

/-- Requester tag states of R149. -/
inductive ReqPhase where
  | sent | receipted | lost
deriving DecidableEq, Repr

/-- Why the device sent a request of its own. -/
inductive Purpose where
  /-- MSG of a context's ticket -/
  | ctxMsg (c : CtxId) (slot : Nat) (gen : Nat)
  /-- reduction notice of group (partition, GROUP), its number, and CUE_COUNT of its DEADLINE (R254) -/
  | notice (part : Nat) (group : Nat) (uid : Nat) (until' : Nat)
  /-- session notice of session id; which notice -/
  | sesNotice (id : Nat) (kind : Nat)
  /-- a write of the pieces of an extent's list position on a tray: extent, position, tray, first piece, slot, and whether it is the slot's
  last granule (R373, R442) -/
  | pieceWr (ext : Nat) (pos : Nat) (tray : Nat) (piece : Nat) (slot : Nat) (tail : Bool)
  /-- a read of slot job id, from a byte of the slot on (R374, R454) -/
  | slotRd (id : Nat) (tray : Nat) (first : Nat)
deriving DecidableEq, Repr

structure ReqTag where
  link : Nat
  /-- partition whose request it is -/
  part : Nat
  typ : Nat
  txn : Txn
  phase : ReqPhase
  n : Nat
  lastSend : Nat
  purpose : Purpose
deriving DecidableEq, Repr

/-- The record of a MSG tag at its target (R164). -/
structure MsgRec where
  id : ReqId
  txn : Txn
  rseq : BitVec 16
  done : Bool
  status : Status
  aux : Nat
  receipted : Bool
  doneCue : Nat
  /-- the payload of a notice has been written, or failed, and its engine has not seen it yet -/
  stored : Option Status
deriving DecidableEq, Repr

/-- A notice waiting to be sent again after BUSY (R254), or for a tag. -/
structure Resend where
  id : Nat
  part : Nat
  group : Nat
  /-- the number of its group -/
  uid : Nat
  /-- it found no tag, and has not left yet -/
  unsent : Bool
  txn : Txn
  due : Nat
  /-- CUE_COUNT of the group's DEADLINE -/
  until' : Nat
deriving DecidableEq, Repr

/-- An EVT that is repeated (R257, R372, R477, R558). -/
structure EvtRep where
  id : Nat
  links : List Nat
  code : Nat
  info : Nat
  left : Nat
  spacing : Nat
  due : Nat
deriving DecidableEq, Repr

/-- A request's packet on the mesh: from its attach tile to the tile that takes it, with the cue of its acceptance there (R147). -/
structure MeshPkt where
  link : Nat
  tag : BitVec 13
  rseq : BitVec 16
  src : Nat
  dst : Nat
  cue : Nat
deriving DecidableEq, Repr

structure Txns where
  /-- keyed by link × 8,192 + tag -/
  tags : Tab TagRec
  /-- OPREQ results held for replay, oldest first: link, tag, bytes held -/
  replay : List (Nat × Nat × Nat)
  /-- keyed by source device × 8,192 + tag -/
  msgTags : Tab MsgRec
  /-- keyed by link × 256 + stream -/
  src : Tab WrfSrc
  nextUid : Nat
  req : Tab ReqTag
  /-- next RSEQ of each stream on which the device sends requests, keyed by link × 256 + stream (R144) -/
  rseqs : Tab Nat
  resends : List Resend
  evts : List EvtRep
  nextId : Nat
  /-- failed mesh edges (R28) -/
  meshFailed : List Nat
  /-- packets of requests that tiles accepted from the mesh within the last 16 cues, and copies discarded (R147) -/
  mesh : List MeshPkt
  meshDropped : Nat
  /-- forwarded and dropped MSG -/
  fwdDropped : Nat
  /-- answers discarded by R149 and R151 -/
  strayAnswers : Nat
  /-- last use of a device tag: CUE_COUNT of its last send (R165) -/
  lastUse : Tab Nat
deriving DecidableEq, Repr

/-! ## Coherence and the home (chapters 5 and 6) -/

inductive FState where
  | s | em | o
deriving DecidableEq, Repr

/-- A filter entry: the line a way holds and how (R174). -/
structure FEntry where
  line : Nat
  st : FState
deriving DecidableEq, Repr

inductive CaState where
  | disabled | active | failed | draining
deriving DecidableEq, Repr

/-- Whose access it is. -/
inductive Origin where
  | agent (r : ReqId) (kind : TxKind)
  | ctx (c : CtxId) (key : Nat)
  /-- CXL.mem access, numbered -/
  | host (x : Nat)
  | flag (link : Nat) (stream : BitVec 8) (rseq : Nat)
  /-- a line fetched or taken for a party of the device: a COPY, an engine's descriptor, an operation; 0: one that has ended -/
  | sync (party : Nat)
deriving DecidableEq, Repr

/-- A non-caching access at the homes (R189), with the group it forms (R155, R156). -/
structure Access where
  id : Nat
  kind : AccKind
  addr : Nat
  n : Nat
  data : Bytes
  aop : Nat
  part : Nat
  cue : Nat
  origin : Origin
  /-- members that joined: origin and operand -/
  members : List (Origin × Bytes)
  /-- a write reached the location: nothing joins any more (R157) -/
  closed : Bool
  /-- lines not yet done -/
  left : List Nat
  status : Status
  /-- newest data of lines whose owner kept them dirty (R189) -/
  lineData : Tab Bytes
  /-- mirror frames whose MACK is awaited (R420): stream, MSEQ -/
  waitMack : List (Nat × Nat)
  /-- the memory effect has taken place -/
  performed : Bool
  result : Bytes
deriving DecidableEq, Repr

inductive SnpKind where
  | sns | sni | snc
deriving DecidableEq, Repr

/-- What a home transaction serves. -/
inductive HomeFor where
  | coh (link : Nat) (cmsg : Nat) (m : CohMsg)
  | access (id : Nat)
  | drain (ca : Nat)
  /-- the request of an agent declared failed since (R194) -/
  | lost
deriving DecidableEq, Repr

structure HomeTxn where
  txid : Nat
  serves : HomeFor
  snp : SnpKind
  /-- agents whose SR is awaited, with the link each snoop went out on -/
  waiting : List (Nat × Nat)
  /-- answers recorded: agent and NEWST -/
  resp : List (Nat × Nat)
  data : Option Bytes
  /-- times resent, and CUE_COUNT of the last send -/
  resends : Nat
  lastSend : Nat
  /-- the grant sent, for resends -/
  grant : Option (Nat × CohMsg)
deriving DecidableEq, Repr

inductive LinePhase where
  | idle | waitSnp | waitAck
deriving DecidableEq, Repr

structure HLine where
  phase : LinePhase
  txn : Option HomeTxn
  queue : List HomeFor
deriving DecidableEq, Repr

/-- An eviction or refusal kept for replay for 32 cues, or the mark of a completed grant (R187). -/
structure CohDone where
  ca : Nat
  rseq : BitVec 16
  line : Nat
  /-- CMP or CNAK to replay; none for a grant-type request -/
  answer : Option (Nat × CohMsg)
  cue : Nat
deriving DecidableEq, Repr

structure Coh where
  /-- keyed by ((home × 16 + ca) × 8,192 + set) × 16 + way -/
  filter : Tab FEntry
  /-- keyed by line number (NEAR offset / 128) -/
  lines : Tab HLine
  /-- requests that wait for their way (R175): link, CMSG, message -/
  wayWait : List (Nat × Nat × CohMsg)
  done : List CohDone
  state : Tab CaState
  /-- some link of the set has reached UP since EN was last written 1 -/
  everUp : Tab Bool
  accs : Tab Access
  /-- pending groups of atomics not yet issued (R156), by access id -/
  groups : List Nat
  nextAcc : Nat
  nextTxid : Nat
  /-- the party of the device that the command in progress works for; 0 between commands -/
  party : Nat
deriving DecidableEq, Repr

/-! ## Switch core (chapter 7) -/

inductive Color where
  | green | yellow | red
deriving DecidableEq, Repr

/-- What a switch queue holds. -/
inductive Wire where
  | answer (a : Answer) (isNak : Bool)
  | request (typ : Nat) (t : Txn)
  | evt (code : Nat) (info : Nat) (cong : Bool)
deriving DecidableEq, Repr

structure QPkt where
  handle : Nat
  wire : Wire
  /-- length L of R210 -/
  len : Nat
  color : Color
  cells : List Nat
  cueIn : Nat
  /-- cells of the link's answer reserve that leave with it (R203) -/
  rsv : Nat
  /-- flits whose credit its ingress cells hold (R202, R526) -/
  flits : Nat
  /-- an ingress packet whose receipt was sent while it waited (R139) -/
  receipted : Bool
deriving DecidableEq, Repr

/-- Owner tag and stamp of a cell (R205). -/
structure Cell where
  q : Nat
  handle : Nat
  stamp : Nat
deriving DecidableEq, Repr

/-- A flow and its resequencer (R221 to R224). -/
structure Reseq where
  /-- next number of the sender, modulo 65,536 -/
  sent : Nat
  /-- next number to release, modulo 65,536 -/
  exp : Nat
  /-- packets on the sprayed part of the path: sequence number ↦ CUE_COUNT of arrival, link, PTYPE and frame -/
  flight : Tab (Nat × Nat × Nat × PairFrame)
  /-- sequence number ↦ CUE_COUNT of the hold, link, PTYPE and frame -/
  held : Tab (Nat × Nat × Nat × PairFrame)
  /-- packets that the sender holds back for its window: cues on the path, link, PTYPE and frame, oldest first (R224) -/
  waits : List (Nat × Nat × Nat × PairFrame)
deriving DecidableEq, Repr

structure Sw where
  cells : Tab Cell
  queues : Tab (List QPkt)
  /-- progress stamp of each queue (R205) -/
  progress : Tab Nat
  nextHandle : Nat
  startSlice : Nat
  /-- answer-reserve cells used, per link -/
  rsvUsed : Tab Nat
  sharedUsed : Nat
  /-- packets that wait at their producer (R217): link, class, packet, oldest first -/
  blocked : List (Nat × Nat × Wire × Color)
  /-- answers to MSG and forwarded answers that wait for cells of the answer reserve of the link they leave on (R203): link, answer, NAK -/
  ansWait : List (Nat × Answer × Bool)
  /-- token counts Tc and Tp of each marker, in bytes with 8 fraction bits -/
  tc : Tab Nat
  tp : Tab Nat
  /-- settings in force of each marker: POL_RATE and POL_BURST -/
  rate : Tab Word
  burst : Tab Word
  /-- shaper buckets, bytes with 8 fraction bits -/
  shape : Tab Nat
  /-- WRED averages, cells with 16 fraction bits -/
  avg : Tab Nat
  /-- deficit counters and next class of the round robin -/
  deficit : Tab Nat
  rr : Tab Nat
  /-- drops and marks in the cue, for telemetry -/
  drops : Tab Nat
  marks : Tab Nat
  /-- telemetry: CUE_COUNT of the last record written -/
  telHead : Nat
  /-- CUE_COUNT of the last pass of the audit (R206) -/
  auditCue : Nat
  flows : Tab Reseq
deriving DecidableEq, Repr

/-! ## Reductions (chapter 8) -/

inductive GroupState where
  | collect | reduce | waitRes | done | aborted
deriving DecidableEq, Repr

/-- Who waits for a contribution's answer. -/
inductive Contributor where
  | agent (req : ReqId)
  | ctx (c : CtxId) (slot : Nat) (gen : Nat)
deriving DecidableEq, Repr

structure Group where
  /-- tells it from a later group of the same name -/
  uid : Nat
  part : Nat
  gid : Nat
  state : GroupState
  oper : Nat
  fast : Bool
  allred : Bool
  role : Nat
  inFmt : Nat
  outFmt : Nat
  count : Nat
  nlocal : Nat
  nchild : Nat
  tc : Nat
  deadline : Nat
  stage : Nat
  result : Nat
  tree : Bytes
  owner : CtxId
  slot : Nat
  gen : Nat
  openCue : Nat
  /-- HOLD and EVT_EN at the opening (R261) -/
  hold : Nat
  evtEn : Bool
  /-- the sum has ended, and the partial is on its way to the parent -/
  sending : Bool
  contribs : Tab Contributor
  /-- (child, chunk) recorded -/
  chunks : List (Nat × Nat)
  /-- child ↦ leaf count of its PART_END -/
  ends : Tab Nat
  resChunks : List Nat
  sat : Bool
  ovf : Bool
  nan : Bool
  reason : Nat
  origin : Nat
  endCue : Nat
  /-- RES_END has come: its flags -/
  resEnd : Option Nat
  /-- mirror frames of RESULT whose MACK is awaited (R241): stream, MSEQ -/
  waitMack : List (Nat × Nat)
deriving DecidableEq, Repr

/-- What waits in an early table (R238). -/
inductive Early where
  | contrib (who : Contributor) (part : Nat) (gid : Nat) (index : Nat) (cue : Nat)
  | notice (r : ReqId) (t : Txn) (cue : Nat)
deriving DecidableEq, Repr

structure Rdc where
  groups : List Group
  /-- keyed by tile -/
  early : Tab (List Early)
  lastAbort : Nat
  nextUid : Nat
deriving DecidableEq, Repr

/-! ## Gather (chapter 9) -/

inductive SlotState where
  | free | active | draining
deriving DecidableEq, Repr

structure GSlot where
  state : SlotState
  region : RegionId
  version : Nat
  rows : Nat
  rowBytes : Nat
  fmt : Nat
  dim : Nat
  share : BitVec 16
deriving DecidableEq, Repr

/-- A hot-row cache entry (R270). -/
structure GEntry where
  slot : Nat
  version : Nat
  block : Nat
  stamp : Nat
  /-- invalidated, and only still there for the descriptors that have it pinned -/
  dead : Bool
deriving DecidableEq, Repr

/-- A block fetch in flight (R271). -/
structure Fetch where
  tile : Nat
  part : Nat
  slot : Nat
  version : Nat
  block : Nat
  fill : Bool
  /-- the engine that issued it -/
  inst : Nat
  /-- the party of the device for which the block is read -/
  party : Nat
  /-- the descriptors that wait for it -/
  waits : List Nat
deriving DecidableEq, Repr

/-- A block that a fetch brought for a waiting descriptor: no bytes for POISON. -/
structure GBlock where
  desc : Nat
  slot : Nat
  version : Nat
  block : Nat
  bytes : Bytes
deriving DecidableEq, Repr

structure Gth where
  dir : Tab GSlot
  /-- keyed by ((tile × 16 + part) × 4,096 + set) × 8 + way -/
  cache : Tab GEntry
  fetches : List Fetch
  fetched : List GBlock
  /-- cache entries that a descriptor reads: descriptor and key of the entry (R271) -/
  pins : List (Nat × Nat)
  /-- NBLK in force per partition -/
  nblk : Tab Nat
deriving DecidableEq, Repr

/-! ## Mica arrays and the analogue shell (chapter 11) -/

inductive CalState where
  | uncal | calFirst | inService | calibrating | retry | retired | retest
deriving DecidableEq, Repr

structure CalInfo where
  state : CalState
  /-- runs ended and consecutive passes in CAL_FIRST or RETEST -/
  runs : Nat
  passes : Nat
  /-- a run is under way -/
  running : Bool
  /-- CUE_COUNT of the last scheduled start -/
  sched : Option Nat
  reason : Nat
  sigma : Nat
  /-- CUE_COUNT of the last pass -/
  passCue : Nat
  /-- temperature at the last pass (T_cal), °C / 16 -/
  tCal : Int
  /-- some run has passed, so that T_cal holds -/
  everPassed : Bool
  /-- candidate trims passed; they become active at the next boundary -/
  swap : Bool
  /-- early run due (R339) -/
  early : Bool
deriving DecidableEq, Repr

/-- Trims of a column (R338), active and candidate. -/
structure ColTrim where
  off : Int
  gain : Int
  candOff : Int
  candGain : Int
  /-- the trims applied, which follow the temperature -/
  effOff : Int
  effGain : Int
  tco : Int
  tcg : Int
  resOff : Int
  inl : Nat
  sigma : Nat
deriving DecidableEq, Repr

structure Mica where
  /-- keyed by class × 2,048 + unit -/
  cal : Tab CalInfo
  /-- keyed by array × 64 + column -/
  cols : Tab ColTrim
  /-- holder of each array: partition + 1 -/
  held : Tab Nat
  /-- arrays that retired while they were held, and are still to be withdrawn (R332) -/
  leaving : List Nat
  /-- tile temperatures as the shell read them last (R338), °C / 16 -/
  temps : Tab Int
  /-- foreground column conversions of each array in the window -/
  conv : Tab Nat
  /-- sampling counts of the shadow, tile × 16 + partition -/
  shCnt : Tab Nat
  shHead : Tab Nat
  /-- ring base and size in force: partition ↦ (base, records) -/
  shRing : Tab (Nat × Nat)
  ratio : Option Nat
  floorE : Nat
  floorF : Nat
  floorCc : Nat
deriving DecidableEq, Repr

/-! ## Tiers and versions (chapter 12) -/

/-- A working-copy slot of a region. -/
structure WCopy where
  tier : Nat
  len : Nat
  frames : List Nat
  base : Nat
  pins : Nat
  age : Nat
  /-- the seal that reads it, if one runs: version -/
  sealing : Option Nat
  evicting : Bool
  /-- a copy held for the partner: no party may access it until takeover (R416) -/
  mirror : Bool
deriving DecidableEq, Repr

/-- Who waits for the end of an operation. -/
inductive Asker where
  | mailbox (opcode : Nat)
  | prim (c : CtxId) (slot : Nat) (gen : Nat) (note : Bool) (resEn : Bool) (res : Nat)
  /-- the session engine -/
  | session (id : Nat)
  | none
deriving DecidableEq, Repr

structure Region where
  part : Nat
  gen : Nat
  policy : Nat
  mirrored : Bool
  head : Nat
  next : Nat
  /-- the region of a session, whose ID this is plus 1 (R383) -/
  session : Nat
  copies : Tab WCopy
  /-- DESTROY runs: who waits for it; the record is FREE once its last version is freed -/
  dying : Option Asker
deriving DecidableEq, Repr

inductive VState where
  | sealing | sealed | head | superseded | draining
deriving DecidableEq, Repr

structure Version where
  state : VState
  base : Nat
  len : Nat
  holders : Nat
  /-- pieces whose write is not yet acknowledged -/
  pending : Nat
  /-- copy slot it is sealed from, and the PUBLISH that ends it: EXPECT -/
  slot : Nat
  pub : Option Nat
  /-- who waits for the SEAL, or for the drain, with the output of the operation -/
  askers : List (Asker × Bytes)
  /-- index of its record in the version table -/
  index : Nat
  /-- frames whose dirty bit its SEAL cleared, while it is in SEALING -/
  cleaned : List Nat
deriving DecidableEq, Repr

inductive ExtState where
  | live | draining | revoked
deriving DecidableEq, Repr

/-- An extent record: pieces are (tray, first slot) in list position order (R373). -/
structure Extent where
  state : ExtState
  part : Nat
  region : Nat
  version : Nat
  policy : Nat
  pieces : List (Nat × Nat)
  /-- CUE_COUNT at entry to REVOKED -/
  revokedAt : Nat
deriving DecidableEq, Repr

inductive TrayState where
  | disabled | healthy | failed | rebuilding | empty
deriving DecidableEq, Repr

structure Tray where
  state : TrayState
  /-- reads that missed the tray time in the window (R376) -/
  misses : Nat
  /-- write counts of its tray extents -/
  counts : Tab Nat
  /-- pieces in use -/
  used : Tab Bool
deriving DecidableEq, Repr

/-- An operation on a region as it was asked (R353); version 0 of LOAD and OPEN is HEAD, pub is the EXPECT of PUB = 1. -/
inductive VerReq where
  | destroy
  | place (slot : Nat) (tier : Nat) (len : Nat) (list : Word)
  | load (slot : Nat) (tier : Nat) (version : Nat) (list : Word)
  | unplace (slot : Nat) (force : Bool)
  | pin (slot : Nat)
  | unpin (slot : Nat)
  | seal (slot : Nat) (pub : Option Nat)
  | publish (version : Nat) (expect : Nat)
  | openVersion (version : Nat)
  | close (version : Nat)
  | discard (version : Nat)
  | revoke (version : Nat)
deriving DecidableEq, Repr

/-- A PLACE or LOAD in progress (R355, R359, R360): it waits for its frames, then its content and LIST are written. -/
structure PlaceJob where
  asker : Asker
  region : Nat
  slot : Nat
  tier : Nat
  len : Nat
  list : Word
  /-- version to load and its first extent; version 0: PLACE -/
  version : Nat
  base : Nat
  /-- evictions were chosen for it -/
  waited : Bool
  /-- the copy has its frames -/
  built : Bool
  /-- next block of the content -/
  next : Nat
  /-- mirror frames whose MACK the answer waits for (R420): stream, MSEQ -/
  mack : List (Nat × Nat)
deriving DecidableEq, Repr

/-- What a read of HOST or POOL is for. -/
inductive HostFor where
  | agent (r : ReqId)
  | ctx (c : CtxId) (key : Nat)
  | copy (c : CtxId) (slot : Nat) (gen : Nat)
  /-- what a party of the device reads -/
  | party (p : Nat)
deriving DecidableEq, Repr

/-- The writes of the pieces of one list position of an extent on one tray: region, version, extent and position they are of, WRs not yet
answered, and whether one failed. -/
structure PieceWrite where
  region : Nat
  version : Nat
  ext : Nat
  pos : Nat
  left : Nat
  bad : Bool
  /-- a rebuild switches the extent record once they are written (R377) -/
  rebuild : Bool
deriving DecidableEq, Repr

/-- What names a block: its region ID, version and block index, and the key that opens it. -/
structure BlockName where
  part : Nat
  shared : Bool
  region : Nat
  version : Nat
  block : Nat
deriving DecidableEq, Repr

/-- Who reads a slot: position of a block read, or of a row under rebuild. -/
inductive SlotFor where
  | block (id : Nat) (pos : Nat)
  | rebuild (tray : Nat) (piece : Nat) (pos : Nat)
deriving DecidableEq, Repr

/-- A slot being read from its tray (R454): reads still to be sent (first byte and length), RDs not yet answered, and what has come. -/
structure SlotRead where
  serves : SlotFor
  tray : Nat
  slot : Nat
  bulk : Bool
  todo : List (Nat × Nat)
  left : Nat
  got : Bytes
deriving DecidableEq, Repr

/-- A block read in progress (R374, R456). -/
structure BlkRead where
  party : Nat
  /-- POOL offset / 4,096 -/
  blk : Nat
  name : BlockName
  /-- 0: RS(10,8), else mirrored -/
  policy : Nat
  /-- tray and slot of each list position: of the row under RS(10,8), of the copies under mirroring -/
  at' : List (Nat × Nat)
  bulk : Bool
  /-- positions asked so far -/
  asked : List Nat
  /-- position ↦ slot as it came; none: an erasure -/
  got : Tab (Option Bytes)
  /-- a slot ended in FAIL -/
  failed : Bool
deriving DecidableEq, Repr

/-- A piece being rebuilt: extent and position, where the new piece lies, the row or block under way, and its slots read so far. -/
structure Rebuild where
  tray : Nat
  piece : Nat
  ext : Nat
  pos : Nat
  toTray : Nat
  toPiece : Nat
  row : Nat
  asked : List Nat
  got : Tab (Option Bytes)
  /-- all rows are read, and the new piece is being written -/
  writing : Bool
deriving DecidableEq, Repr

/-- A read of POOL that an agent or context waits for (R369). -/
structure PoolRead where
  party : Nat
  serves : HostFor
  off : Nat
  n : Nat
deriving DecidableEq, Repr

structure Ver where
  /-- records; a missing one is FREE -/
  regions : Tab Region
  /-- generation last used by each record, plus 1 -/
  gens : Tab Nat
  /-- keyed by region index × 2^32 + version -/
  versions : Tab Version
  extents : Tab Extent
  /-- frame in use, keyed by tier × 2^20 + frame number: (region index, slot) -/
  frames : Tab (Nat × Nat)
  /-- charges, keyed by partition × 4 + tier, in frames or extents -/
  charge : Tab Nat
  trays : Tab Tray
  /-- operations that wait for an earlier one on their region, oldest first (R352) -/
  waiting : List (Asker × RegionId × VerReq)
  /-- PLACEs and LOADs in progress, in order of arrival -/
  places : List PlaceJob
  /-- versions in SEALING whose content is still to be read: region and version -/
  seals : List (Nat × Nat)
  /-- piece writes still to be sent -/
  writes : List Purpose
  /-- sealed slots whose write is not yet acknowledged, keyed by tray × 2^40 + slot number (tray byte address / 4,352) -/
  outgoing : Tab Bytes
  /-- piece writes in progress, keyed by tray × 2^26 + first piece -/
  pieceWrs : Tab PieceWrite
  /-- holders left of versions that were freed (R371), keyed by region ID × 2^32 + version -/
  gone : Tab Nat
  /-- block reads in progress and their slot reads -/
  blks : Tab BlkRead
  slots : Tab SlotRead
  /-- pieces being rebuilt (R377) -/
  rebuilds : List Rebuild
  nextJob : Nat
  /-- reads of POOL that agents and contexts wait for -/
  reads : List PoolRead
  /-- blocks read for a party and still to be used, keyed by party × 2^38 + POOL offset / 4,096; no bytes: POISON -/
  held : Tab Bytes
deriving DecidableEq, Repr

/-! ## Sessions (chapter 13) -/

inductive SesState where
  | free | active | parking | parked | reviving | movingOut | movingIn | orphaned | failed
deriving DecidableEq, Repr

structure Bed where
  region : RegionId
  version : Nat
  first : Nat
  rows : Nat
deriving DecidableEq, Repr

/-- The session record of R381, field by field. -/
structure SesRec where
  state : SesState
  part : Nat
  owner : Nat
  kvmir : Bool
  tier : Nat
  policy : Nat
  op : Nat
  phase : Nat
  epoch : Nat
  layers : Nat
  groups : Nat
  dim : Nat
  fmt : Nat
  len : Nat
  maxRows : Nat
  proj : Word
  map : Nat
  region : RegionId
  peerDev : Nat
  peerPart : Nat
  peerSes : Nat
  logVer : Nat
  logPos : Nat
  tail0 : Nat
  beds : List Bed
  prior : Nat
  unconf : Bool
  stamp : Nat
deriving DecidableEq, Repr

/-- An open APPEND window (R394). -/
structure Window where
  pos : Nat
  count : Nat
  layers : List Nat
  lastCue : Nat
deriving DecidableEq, Repr

/-- An operation in progress on a session, with what undoes it (R399). -/
structure SesOp where
  asker : Asker
  /-- CUE_COUNT of its DEADLINE; 0: none -/
  deadline : Nat
  was : SesState
  /-- the work of the phase under way has started: seals run, or a notice is out -/
  started : Bool
  /-- versions sealed by the operation, which an undo discards: that of the bed, and the closing log -/
  sealed : List Nat
  newBed : Option Bed
  /-- new bed in the place of bed 3 -/
  replaces : Bool
  /-- FORK: the child -/
  child : Nat
  /-- MOVE: target PROJ, TIER and MODE -/
  proj : Word
  tier : Nat
  mode : Nat
  /-- blocks of the MOVE stream sent, and answered OK -/
  sent : Nat
  acked : Nat
  /-- frames of the beds that REVIVE has brought in -/
  loaded : Nat
  /-- tells its notices from those of an earlier operation -/
  serial : Nat
  /-- the answer to the notice that is out, or of a block that failed -/
  reply : Option Status
deriving DecidableEq, Repr

/-- The log copy of a session (R396, R397). -/
structure SesLog where
  used : Nat
  /-- entries added since the last seal -/
  dirty : Bool
  sealedAt : Nat
  /-- the version of a seal under way -/
  sealing : Option Nat
  /-- APPENDs with SYNC = 1 whose entry that seal holds, and those that wait for the next -/
  waitNow : List Asker
  waitNext : List Asker
deriving DecidableEq, Repr

structure Ses where
  /-- IDs whose records the slices wrote last in a state other than FREE -/
  used : List Nat
  windows : Tab Window
  ops : Tab SesOp
  logs : Tab SesLog
  /-- APPENDs that run or wait: who asked, and whether it came during a CHECKPOINT -/
  appends : List (Asker × SesAppend × Bool)
  /-- CREATEs that wait for evictions -/
  creates : List (Asker × SesCreate)
  /-- notices that wait for frames or a seal before they are answered -/
  notices : List (ReqId × Txn)
  /-- CUE_COUNT of the last notice of a MOVING_IN record, or of the last OWNER_QUERY of an unconfirmed one -/
  moveCue : Tab Nat
deriving DecidableEq, Repr

/-! ## The pair (chapter 14) -/

inductive PairState where
  | unpaired | joining | source | paired | lost | solo
deriving DecidableEq, Repr

/-- A sequenced frame sent and not yet acknowledged (R418). -/
structure Unacked where
  stream : Nat
  mseq : Nat
  ptype : Nat
  frame : PairFrame
  link : Nat
  tries : Nat
  lastSend : Nat
deriving DecidableEq, Repr

/-- What waits for MACKs (R420, R426). -/
inductive PairWait where
  | cmp (link : Nat) (cmsg : Nat) (m : CohMsg)
  | ask (a : Asker) (st : Status) (body : Bytes)
  /-- the answer to a PLACE or LOAD -/
  | placed (a : Asker) (region slot : Nat)
  | handover (id : Nat) (a : Asker)
  /-- the answer to a session notice -/
  | note (r : ReqId) (t : Txn) (st : Status) (aux : Nat)
deriving DecidableEq, Repr

/-- An item of the bulk load still to be sent (R435, R436). -/
inductive BulkItem where
  | record (table : Nat) (index : Nat)
  | map (tier : Nat) (frame : Nat)
  /-- pages of a frame of a mirrored copy, from a page number on -/
  | pages (frame : Nat) (tier : Nat) (next : Nat)
deriving DecidableEq, Repr

structure Journal where
  part : Nat
  session : Nat
  layer : Nat
  group : Nat
  t0 : Nat
  nt : Nat
  selout : Word
  selected : Nat
  ck : Nat
  tau : Nat
  cut : Nat
  flags : Nat
  tbase : Nat
deriving DecidableEq, Repr

structure Pair where
  state : PairState
  /-- state the source returns to when an admission fails -/
  former : PairState
  linkUp : Tab Bool
  lastHb : Tab Nat
  txSeq : Tab Nat
  unacked : List Unacked
  rxSeq : Tab Nat
  /-- frames that arrived early -/
  early : List (Nat × Nat × PairFrame)
  /-- mirror map: sender's frame key ↦ own frame key, plus 1 -/
  mirror : Tab Nat
  mirrorPart : Tab Nat
  journal : Tab Journal
  bulkDone : Bool
  bulkQueue : List BulkItem
  waits : List (List (Nat × Nat) × PairWait)
  bulkBytes : Nat
  scanPos : Nat
  scanning : Bool
  takeoverDone : Bool
  takeoverCue : Nat
  joinFail : Nat
  admStep : Nat
  stepDue : Bool
  auditPos : Nat
  /-- equal-epoch disagreements waiting 8 cues (R428): session ↦ cue -/
  conflicts : Tab Nat
  /-- DOWN frames still to send (R425) -/
  downLeft : Nat
  /-- frames of a reserved PTYPE, which are dropped and counted (R417) -/
  dropped : Nat
  /-- the region record that a stream brought last, and its copy: MMAP frames that follow extend that copy -/
  lastRegion : Tab (Nat × Nat)
deriving DecidableEq, Repr

/-! ## Faults (chapter 16) -/

/-- A storm-table entry (R480). -/
structure Storm where
  origin : BitVec 32
  code : Nat
  cue : Nat
  valid : Bool
  fwd : Nat
  dup : Nat
  sup : Nat
  first : Nat
  last : Nat
  used : Bool
deriving DecidableEq, Repr

/-- A prompt-book entry before it has its SEQ (R487). -/
structure PbEntry where
  tbase : Nat
  code : Nat
  kind : Nat
  sev : Nat
  step : Nat
  status : Nat
  origin : BitVec 32
  a : Word
  b : Word
  c : Word
deriving DecidableEq, Repr

structure Flt where
  storm : List Storm
  /-- staging queues of R488, keyed by tile -/
  staging : Tab (List PbEntry)
  /-- SEQ of the next entry -/
  head : Nat
  /-- reports dropped since the last PB_LOST (R481), and entries (R488) -/
  lostReports : Nat
  lostEntries : Nat
  fatal : Bool
  cause : Nat
  lastReset : Nat
  pwrReq : Bool
  fatalCue : Nat
  fatalPin : Bool
  /-- what follows the declaration: 0 wait for the host, 4 warm reset, 5 power cycle -/
  after : Nat
  /-- repeats of a step per origin in the window (R472): origin, step, count -/
  repeats : List (BitVec 32 × Nat × Nat)
  /-- FLT_STAT from before the reset, for the RESET entry (R489) -/
  before : Nat
  lastCtx : Word
  lastPc : Word
deriving DecidableEq, Repr

/-! ## Security (chapter 17) -/

structure KeySet where
  k1 : Bytes
  k2 : Bytes
  ka : Bytes
deriving DecidableEq, Repr

/-- Authentication of a link in training (R504). -/
structure Auth where
  nonce : Bytes
  peerNonce : Bytes
  certOk : Bool
  challengeOk : Bool
  keyxSent : Bool
  keyxOk : Bool
  sends : Nat
  lastSend : Nat
  peerKey : Bytes
  peerIvp : Nat
  ivp : Nat
deriving DecidableEq, Repr

/-- What measurements show, as a cue boundary found it (R508). -/
structure Measured where
  csr : Tab Word
  conf : BitVec 16
  pair : PairState
  shares : Tab Nat
  bundles : List Bundle
deriving DecidableEq, Repr

structure Sec where
  rootOk : Bool
  idOk : Bool
  seed : Option Bytes
  /-- partitions in confidential mode, staged changes, rejections and dedicated states -/
  conf : BitVec 16
  pending : BitVec 16
  topk : Tab Nat
  fwSvn : Nat
  fwSlot : Nat
  /-- keyed by partition × 2 + set (0 local, 1 shared) -/
  keys : Tab KeySet
  /-- SEC_LINK_k.STATE -/
  linkState : Tab Nat
  auth : Tab Auth
  /-- instruction in force in the TAP: 0 BYPASS, 1 SAMPLE, 2 PRELOAD, 3 EXTEST, 4 IDCODE, else another -/
  tapIr : Nat
  /-- what measurements show until the next cue boundary -/
  seen : Measured
deriving DecidableEq, Repr

/-! ## Links and CXL (chapter 18) -/

inductive LinkState where
  | down | phy | ident | auth | credit | up
deriving DecidableEq, Repr

/-- A channel of a link: receive and send side (R523 to R525). -/
structure Chan where
  rxSeq : Nat
  partialMsg : Bytes
  /-- flits that belong to the message in partialMsg -/
  partFlits : Nat
  rxFreed : Nat
  granted : Nat
  txSeq : Nat
  txAck : Nat
  txGrant : Nat
  /-- slots of messages that wait for the peer's credit; the first slot of each message is marked (R522) -/
  txSlots : List (Bool × Bytes)
deriving DecidableEq, Repr

structure Link where
  state : LinkState
  fail : Nat
  /-- the last failure was FAIL 6, because a lane retired: no retry until EN goes 0 and then 1 (R528) -/
  laneFail : Bool
  peerDev : Nat
  peerKind : Nat
  peerInst : Word
  /-- identity of the peer whose tag records are kept: KIND, DEVID, INSTANCE and role -/
  known : Option (Nat × Nat × Word × Nat)
  /-- tag allowance in force -/
  tags : Nat
  failCue : Nat
  enteredCue : Nat
  /-- CUE_COUNT at which the last flit arrived -/
  lastFlit : Nat
  chans : Tab Chan
  /-- bytes of flits sent that fill no codeword pair yet, and codeword pairs sent since the last alignment markers (R519) -/
  txTail : Bytes
  txPairs : Nat
  /-- channel whose credit return the next flit carries (R525) -/
  txRot : Nat
  /-- messages reassembled from flits and not yet taken: channel, flits whose credit they hold, and bytes -/
  rx : List (Nat × Nat × Bytes)
  cwBadWin : Nat
  /-- NEAR payload of OK completions to RD in the window (R533) -/
  bNear : Nat
deriving DecidableEq, Repr

/-- A HOST read that waits for its RdCurr data (R538): lines still awaited, by number from the first, and data received. -/
structure HostRead where
  serves : HostFor
  addr : Nat
  n : Nat
  left : List Nat
  got : Tab Bytes
  bad : Bool
deriving DecidableEq, Repr

structure Cxl where
  mode : Bool
  width : Nat
  rate : Nat
  ide : Bool
  viral : Bool
  reads : Tab HostRead
  nextRead : Nat
  /-- host lines fetched for parties of the device, keyed by party × 2^46 + host physical address / 64; no bytes: the host answered with a
  failure -/
  held : Tab Bytes
deriving DecidableEq, Repr

/-! ## Bring-up and power (chapter 19) -/

structure Pwr where
  powered : Bool
  strap : BitVec 3
  romDone : Bool
  rootTried : Bool
  memDone : Bool
  cxlUp : Bool
  cfgDone : Bool
  idDone : Bool
  ready : Bool
  partRec : Bool
  /-- setpoints in force and targets, mV, per tile -/
  vset : Tab Nat
  vtarget : Tab Nat
  vmin : Tab Nat
  duty : Nat
  dPwr : Nat
  dTh : Nat
  /-- PWR_CAP limit in force -/
  power : Nat
  temps : List Int
  tj : Int
  tjSrc : Nat
  thermN : Bool
  critHeld : Bool
  /-- INSTANCE, drawn at each reset (R528) -/
  inst : Word
  /-- FATAL_N held from the boot ROM (R498, R546) -/
  romFatal : Bool
  /-- warm chip resets since the last RESET_N -/
  warm : Bool
deriving DecidableEq, Repr

/-- Floor ratio registers of R533. -/
structure GlFloor where
  ratio : Option Nat
  e : Nat
  f : Nat
  b : Nat
deriving DecidableEq, Repr

/-! ## What leaves the device -/

inductive Out where
  | answer (link : Nat) (a : Answer) (isNak : Bool)
  | request (link : Nat) (typ : Nat) (t : Txn)
  | evt (link : Nat) (code : Nat) (info : Nat) (cong : Bool)
  | coh (link : Nat) (cmsg : Nat) (m : CohMsg)
  | ctrl (link : Nat) (ccode : Nat) (body : Bytes)
  /-- a DATA flit (R521) -/
  | flit (link : Nat) (bytes : Bytes)
  /-- a codeword pair as lanes 0 to 7 carry its symbols (R519) -/
  | lanes (link : Nat) (symbols : List (List Nat))
  /-- the alignment markers of the eight lanes (R519) -/
  | marker (link : Nat) (bytes : List Bytes)
  | pair (link : Nat) (ptype : Nat) (f : PairFrame)
  | mailbox (opcode : Nat) (status : Status) (body : Bytes)
  | mailboxUnsupported (opcode : Nat)
  | cxlData (x : Nat) (poison : Bool) (data : Bytes)
  | cxlCmp (x : Nat)
  | rspIHitI (hpa : Nat)
  | rdCurr (id : Nat) (hpa : Nat)
  | csrData (addr : Word) (v : Word)
  | interrupt (code : Nat)
  | event (chapter : Nat) (bit : Nat)
  | spdm (src : SpdmSrc) (code : Nat) (body : Bytes)
  | avs (rail : Nat) (mv : Nat)
deriving DecidableEq, Repr

/-- The device: everything but the queue of waiting commands. -/
structure Dev where
  csr : Tab Word
  mem : Mem
  tb : Tb
  cue : Cue
  thr : Thr
  eng : Eng
  txn : Txns
  coh : Coh
  sw : Sw
  rdc : Rdc
  gth : Gth
  mica : Mica
  ver : Ver
  ses : Ses
  pair : Pair
  flt : Flt
  sec : Sec
  links : Tab Link
  cxl : Cxl
  pwr : Pwr
  glFloor : GlFloor
  /-- what has left the device, newest last -/
  out : List Out
  /-- the model's own counter: index of the next free value -/
  freeIx : Nat
deriving DecidableEq, Repr

/-- The state of the block: the device and the commands that wait, first in, first out. -/
structure State where
  dev : Dev
  pending : List Instr
deriving DecidableEq, Repr

/-- Reasons for a stop with a fault. No meaning of this model stops with a fault: every command of the block completes. -/
inductive Fault where
  /-- Raised by no command; it stands here because the host's interface has a fault outcome. Safe. -/
  | neverRaised
deriving DecidableEq, Repr

/-- Reasons for a refusal. -/
inductive Refusal where
  /-- An arm of exec that has no meaning yet answers with it. Safe. -/
  | notModelled (mnemonic : String)
deriving DecidableEq, Repr

/-! ## Reset -/

def Mem.reset : Mem := { bytes := [], marks := [], ecc := [], writeBack := [], dirty := [] }

def Tb.reset : Tb :=
  { state := .unlocked, stepped := false, tbase := 0, sub := 0, cueCount := 0, cueLen := 900, aclk := 0, slot0 := 0, cue0At := 0,
    goodInt := 0, lastEdge := none, edges := [], goodEdges := 0, lockRun := 0, outliers := [], slew := 0, slew0 := 0, met := true, freq := 0, freqAcc := 0,
    lastTrim := 0, hist := [], lockedWin := false, cutWin := false, msDue := false, ratio := none, ppsOut := false }

def Cue.reset : Cue :=
  { shares := [], applyPending := false, ptr := [], gone := [], credit := [], fBase := 0, fAt := 0, overload := false, late := 0, okWindows := 0, wingsTurn := [], served := [],
    scrubPos := [] }

def Thr.reset : Thr :=
  { ctxs := [], owner := [], cfg := [], queue := [], bundles := [], staged := [], loading := [], nextUid := 1,
    copies := [], prims := [] }

def Eng.reset : Eng := { queue := [], nextId := 0, shadows := [], topk := [], lastUnit := [], hung := [], hungPart := [] }

def Txns.reset : Txns :=
  { tags := [], replay := [], msgTags := [], src := [], nextUid := 1, req := [], rseqs := [], resends := [],
    evts := [], nextId := 0, meshFailed := [], mesh := [], meshDropped := 0, fwdDropped := 0, strayAnswers := 0, lastUse := [] }

def Coh.reset : Coh :=
  { filter := [], lines := [], wayWait := [], done := [], state := [], everUp := [], accs := [], groups := [], nextAcc := 0,
    nextTxid := 0, party := 0 }

def Sw.reset : Sw :=
  { cells := [], queues := [], progress := [], nextHandle := 0, startSlice := 0, rsvUsed := [], sharedUsed := 0, blocked := [], ansWait := [],
    tc := [], tp := [], rate := [], burst := [], shape := [], avg := [], deficit := [], rr := [], drops := [], marks := [],
    telHead := 0, auditCue := 0, flows := [] }

def Rdc.reset : Rdc := { groups := [], early := [], lastAbort := 0, nextUid := 1 }

def Gth.reset : Gth := { dir := [], cache := [], fetches := [], fetched := [], pins := [], nblk := [] }

def Mica.reset : Mica :=
  { cal := [], cols := [], held := [], leaving := [], temps := [], conv := [], shCnt := [], shHead := [], shRing := [], ratio := none, floorE := 0,
    floorF := 0, floorCc := 0 }

def Ver.reset : Ver :=
  { regions := [], gens := [], versions := [], extents := [], frames := [], charge := [], trays := [], waiting := [], places := [], seals := [], writes := [], outgoing := [],
    pieceWrs := [], gone := [], blks := [], slots := [], rebuilds := [], nextJob := 1, reads := [], held := [] }

def Ses.reset : Ses := { used := [], windows := [], ops := [], logs := [], appends := [], creates := [], notices := [], moveCue := [] }

def Pair.reset : Pair :=
  { state := .unpaired, former := .unpaired, linkUp := [], lastHb := [], txSeq := [], unacked := [], rxSeq := [], early := [],
    mirror := [], mirrorPart := [], journal := [], bulkDone := false, bulkQueue := [], waits := [], bulkBytes := 0, scanPos := 0,
    scanning := false, takeoverDone := false, takeoverCue := 0, joinFail := 0, admStep := 0,
    stepDue := false, auditPos := 0, conflicts := [], downLeft := 0, dropped := 0, lastRegion := [] }

def Flt.reset : Flt :=
  { storm := [], staging := [], head := 0, lostReports := 0, lostEntries := 0, fatal := false, cause := 0, lastReset := 0,
    pwrReq := false, fatalCue := 0, fatalPin := false, after := 0, repeats := [], before := 0, lastCtx := 0, lastPc := 0 }

def Measured.reset : Measured := { csr := [], conf := 0, pair := .unpaired, shares := [], bundles := [] }

def Sec.reset : Sec :=
  { rootOk := false, idOk := false, seed := none, conf := 0, pending := 0, topk := [], fwSvn := 0, fwSlot := 0, keys := [],
    linkState := [], auth := [], tapIr := 4, seen := Measured.reset }

/-- [DESIGN CHOICE: log 130] -/
def Cxl.reset : Cxl :=
  { mode := false, width := 0, rate := 0, ide := false, viral := false, reads := [], nextRead := 0, held := [] }

/-- [DESIGN CHOICE: log 11, 12] -/
def Pwr.reset : Pwr :=
  { powered := true, strap := 0, romDone := false, rootTried := false, memDone := false, cxlUp := false, cfgDone := false,
    idDone := false, ready := false, partRec := false, vset := [], vtarget := [], vmin := [], duty := 15, dPwr := 15,
    dTh := 15, power := 0, temps := [], tj := 0, tjSrc := 0, thermN := false, critHeld := false, inst := 0,
    romFatal := false, warm := false }

def GlFloor.reset : GlFloor := { ratio := none, e := 0, f := 0, b := 0 }

/-- [DESIGN CHOICE: log 11] -/
def Dev.reset : Dev :=
  { csr := [], mem := Mem.reset, tb := Tb.reset, cue := Cue.reset, thr := Thr.reset, eng := Eng.reset, txn := Txns.reset,
    coh := Coh.reset, sw := Sw.reset, rdc := Rdc.reset, gth := Gth.reset, mica := Mica.reset, ver := Ver.reset,
    ses := Ses.reset, pair := Pair.reset, flt := Flt.reset, sec := Sec.reset, links := [], cxl := Cxl.reset, pwr := Pwr.reset,
    glFloor := GlFloor.reset, out := [], freeIx := 0 }

/-- The block right after reset release at power-up (R54, R546): no command waits. [DESIGN CHOICE: log 11] -/
def State.reset : State := { dev := Dev.reset, pending := [] }

end Sys2Proof.Machine
end

