-- ==== Sys2Proof/Machine/Csr.lean ====
section
/-! DEFINITION. The control and status registers: their BAR0 offsets (R535), masks and reset values, from the register maps of
the chapters (R63, R196, R225, R261, R289, R321, R348, R379, R410, R438, R462, R492, R517, R541, R559). The offsets of
GL_LINK_CFG_k for k = 32 to 35 coincide in R541 with those of GL_LINK_STAT_0 to 3; the configuration registers are therefore kept
under keys of their own (GL_LINK_CFG). -/

namespace Sys2Proof.Machine

/-- A family of registers: base offset, distance, number, read-write mask, write-1-to-clear mask, reset value, and whether it
has the COUNT and SAT layout of R483. -/
structure RegFam where
  base : Nat
  stride : Nat
  count : Nat
  rw : Nat
  w1c : Nat
  reset : Nat
  counter : Bool
deriving DecidableEq, Repr

/-! Offsets. -/

abbrev TB_CTRL : Nat := 0x10000
abbrev TB_SEC_NEXT : Nat := 0x10008
abbrev TB_NOW : Nat := 0x10010
abbrev TB_STAT : Nat := 0x10018
abbrev TB_PPS : Nat := 0x10020
abbrev TB_FLOOR : Nat := 0x10028
abbrev TB_EVT : Nat := 0x10030
abbrev TB_OUTLIER_CNT : Nat := 0x10038
abbrev CUE_NOW : Nat := 0x20000
abbrev CUE_CTRL : Nat := 0x20008
abbrev CUE_STAT : Nat := 0x20010
abbrev CUE_BG_STAT : Nat := 0x20018
abbrev CUE_SHARE : Nat := 0x20100
abbrev GL_DEV_ID : Nat := 0x40000
abbrev GL_EVT : Nat := 0x40008
abbrev GL_FWD_BASE : Nat := 0x40010
abbrev GL_FLOOR : Nat := 0x40018
abbrev GL_FLOOR_E : Nat := 0x40020
abbrev GL_FLOOR_F : Nat := 0x40028
abbrev GL_FLOOR_B : Nat := 0x40030
abbrev GL_LINK_STAT : Nat := 0x40200
abbrev GL_LINK_PEER : Nat := 0x40300
abbrev GL_CW_CE_CNT : Nat := 0x41000
abbrev GL_CW_UE_CNT : Nat := 0x41200
abbrev GL_FLIT_DROP_CNT : Nat := 0x41400
abbrev GL_TAG_FAIL_CNT : Nat := 0x41600
abbrev GL_DOWN_CNT : Nat := 0x41800
abbrev GL_EVT_DROP_CNT : Nat := 0x41A00
abbrev CXL_STAT : Nat := 0x50000
abbrev CXL_EVT : Nat := 0x50008
abbrev CXL_WIN_N : Nat := 0x50010
abbrev CXL_WIN_S : Nat := 0x50018
abbrev CXL_HRNG_LO : Nat := 0x50100
abbrev CXL_HRNG_HI : Nat := 0x50108
abbrev CXL_BAD_CSR_CNT : Nat := 0x50200
abbrev CXL_RETRAIN_CNT : Nat := 0x50208
abbrev GL_CA_CFG : Nat := 0x60000
abbrev GL_CA_STAT : Nat := 0x60080
abbrev GL_CA_ERR : Nat := 0x60100
abbrev GL_CA_RTX : Nat := 0x60180
abbrev GL_CA_EVT : Nat := 0x60200
abbrev SW_CELL_CFG : Nat := 0x70000
abbrev SW_CELL_STAT : Nat := 0x70008
abbrev SW_AUDIT_CFG : Nat := 0x70010
abbrev SW_AUDIT_CNT : Nat := 0x70018
abbrev SW_TEL_BASE : Nat := 0x70020
abbrev SW_TEL_CFG : Nat := 0x70028
abbrev SW_TEL_HEAD : Nat := 0x70030
abbrev SW_TEL_SKIP : Nat := 0x70038
abbrev SW_RESEQ_LOST : Nat := 0x70040
abbrev SW_RESEQ_LATE : Nat := 0x70048
abbrev SW_QDROP : Nat := 0x72000
abbrev SW_QMARK : Nat := 0x74000
abbrev POL_OVH : Nat := 0x80000
abbrev POL_PRIV : Nat := 0x80200
abbrev POL_STAT : Nat := 0x80208
abbrev POL_WRED_T : Nat := 0x80300
abbrev POL_WRED_P : Nat := 0x80308
abbrev POL_MARK : Nat := 0x80400
abbrev POL_RATE : Nat := 0x81000
abbrev POL_BURST : Nat := 0x81008
abbrev POL_SHAPE : Nat := 0x83000
abbrev POL_EG_WT : Nat := 0x83008
abbrev POL_GREEN : Nat := 0x85000
abbrev POL_YELLOW : Nat := 0x86000
abbrev POL_RED : Nat := 0x87000
abbrev RDC_CFG : Nat := 0x90000
abbrev RDC_EVT : Nat := 0x90008
abbrev RDC_LAST_ABORT : Nat := 0x90010
abbrev RDC_DONE_CNT : Nat := 0x90020
abbrev RDC_ABORT_CNT : Nat := 0x90028
abbrev RDC_SAT_CNT : Nat := 0x90030
abbrev RDC_OVF_CNT : Nat := 0x90038
abbrev RDC_EARLY_DROP_CNT : Nat := 0x90040
abbrev RDC_STALE_CNT : Nat := 0x90048
abbrev RDC_STAT : Nat := 0x90100
abbrev GTH_CACHE_BASE : Nat := 0xA0000
abbrev GTH_CACHE_CFG : Nat := 0xA0008
abbrev GTH_STAT : Nat := 0xA0010
abbrev GTH_HIT_CNT : Nat := 0xA0020
abbrev GTH_MISS_CNT : Nat := 0xA0028
abbrev GTH_SKIP_CNT : Nat := 0xA0030
abbrev GTH_CACHE_PART : Nat := 0xA0100
abbrev FIL_REC_CNT : Nat := 0xB0000
abbrev FIL_NAN_CNT : Nat := 0xB0008
abbrev FIL_OVF_CNT : Nat := 0xB0010
abbrev CV_CFG : Nat := 0xC0000
abbrev CV_LAST : Nat := 0xC0008
abbrev CV_LAST_VAL : Nat := 0xC0010
abbrev CV_MISMATCH_CNT : Nat := 0xC0018
abbrev CV_EVT : Nat := 0xC0100
abbrev ATT_CFG : Nat := 0xD0000
abbrev ATT_EVT : Nat := 0xD0008
abbrev ATT_JOB_CNT : Nat := 0xD0010
abbrev ATT_FALLBACK_CNT : Nat := 0xD0018
abbrev ATT_TRUNC_CNT : Nat := 0xD0020
abbrev ATT_NAN_CNT : Nat := 0xD0028
abbrev ATT_LIMIT_CNT : Nat := 0xD0030
abbrev ATT_SCORED_CNT : Nat := 0xD0038
abbrev ATT_EXACT_CNT : Nat := 0xD0040
abbrev ATT_STAT : Nat := 0xD0100
abbrev MICA_CFG : Nat := 0xE0000
abbrev MICA_CTRL : Nat := 0xE0008
abbrev MICA_STAT : Nat := 0xE0010
abbrev MICA_RATE : Nat := 0xE0018
abbrev MICA_EVT : Nat := 0xE0020
abbrev MICA_FLOOR : Nat := 0xE0028
abbrev MICA_FLOOR_E : Nat := 0xE0030
abbrev MICA_FLOOR_F : Nat := 0xE0038
abbrev MICA_FLOOR_CC : Nat := 0xE0040
abbrev MICA_ARR_SEL : Nat := 0xE0048
abbrev MICA_ARR_STAT : Nat := 0xE0050
abbrev MICA_COL_TRIM : Nat := 0xE0058
abbrev MICA_CAL_CNT : Nat := 0xE0080
abbrev MICA_CAL_FAIL_CNT : Nat := 0xE0088
abbrev MICA_RETIRE_CNT : Nat := 0xE0090
abbrev MICA_WITHDRAW_CNT : Nat := 0xE0098
abbrev MICA_SKETCH_CNT : Nat := 0xE00A0
abbrev MICA_SHADOW_CNT : Nat := 0xE00A8
abbrev MICA_SHADOW_DROP_CNT : Nat := 0xE00B0
abbrev MICA_RETIRED : Nat := 0xE0100
abbrev MICA_FW_CAL_CNT : Nat := 0xE0200
abbrev MICA_FW_RETIRE_CNT : Nat := 0xE0220
abbrev MICA_SHADOW_CFG : Nat := 0xE0300
abbrev MICA_SHADOW_BASE : Nat := 0xE0380
abbrev MICA_SHADOW_HEAD : Nat := 0xE0400
abbrev VER_CFG : Nat := 0xF0000
abbrev VER_REG_BASE : Nat := 0xF0008
abbrev VER_REG_CNT : Nat := 0xF0010
abbrev VER_VER_BASE : Nat := 0xF0018
abbrev VER_VER_CNT : Nat := 0xF0020
abbrev VER_EXT_BASE : Nat := 0xF0028
abbrev VER_EXT_CNT : Nat := 0xF0030
abbrev VER_POOL_N : Nat := 0xF0038
abbrev VER_POOL_S : Nat := 0xF0040
abbrev VER_EVT : Nat := 0xF0048
abbrev VER_FREE : Nat := 0xF0050
abbrev VER_EVICT_CNT : Nat := 0xF0058
abbrev VER_CONFLICT_CNT : Nat := 0xF0060
abbrev VER_REVOKE_CNT : Nat := 0xF0068
abbrev VER_DEGRADED_CNT : Nat := 0xF0070
abbrev VER_LOST_CNT : Nat := 0xF0078
abbrev VER_QN : Nat := 0xF0100
abbrev VER_QS : Nat := 0xF0180
abbrev VER_QP : Nat := 0xF0200
abbrev VER_CHG : Nat := 0xF0280
abbrev VER_TRAY_CFG : Nat := 0xF0400
abbrev VER_TRAY_STAT : Nat := 0xF0600
abbrev VER_TRAY_CTRL : Nat := 0xF0800
abbrev VER_CODEC_CFG : Nat := 0xF1000
abbrev VER_CODEC_EVT : Nat := 0xF1008
abbrev VER_SEAL_BLK_CNT : Nat := 0xF1010
abbrev VER_SEAL_RAW_CNT : Nat := 0xF1018
abbrev VER_SEAL_GRAN_CNT : Nat := 0xF1020
abbrev VER_UNSEAL_FAIL_CNT : Nat := 0xF1028
abbrev VER_RECOVER_CNT : Nat := 0xF1030
abbrev VER_ECC_N_CE_CNT : Nat := 0xF1038
abbrev VER_ECC_N_UE_CNT : Nat := 0xF1040
abbrev VER_ECC_S_CE_CNT : Nat := 0xF1048
abbrev VER_ECC_S_UE_CNT : Nat := 0xF1050
abbrev SES_CFG : Nat := 0x100000
abbrev SES_TBL_BASE : Nat := 0x100008
abbrev SES_TBL_CNT : Nat := 0x100010
abbrev SES_EVT : Nat := 0x100018
abbrev SES_LAST : Nat := 0x100020
abbrev SES_PARK_CNT : Nat := 0x100040
abbrev SES_REVIVE_CNT : Nat := 0x100048
abbrev SES_MOVE_CNT : Nat := 0x100050
abbrev SES_FORK_CNT : Nat := 0x100058
abbrev SES_APPEND_CNT : Nat := 0x100060
abbrev SES_CKPT_CNT : Nat := 0x100068
abbrev SES_CHECK_FAIL_CNT : Nat := 0x100070
abbrev SES_WIN_DROP_CNT : Nat := 0x100078
abbrev SES_STATE : Nat := 0x100100
abbrev SES_QUOTA : Nat := 0x100200
abbrev PAIR_CFG : Nat := 0x110000
abbrev PAIR_CTRL : Nat := 0x110008
abbrev PAIR_STAT : Nat := 0x110010
abbrev PAIR_EVT : Nat := 0x110018
abbrev PAIR_MAP_BASE : Nat := 0x110020
abbrev PAIR_JNL_BASE : Nat := 0x110028
abbrev PAIR_JNL_CNT : Nat := 0x110030
abbrev PAIR_BULK : Nat := 0x110038
abbrev PAIR_MWR_CNT : Nat := 0x110040
abbrev PAIR_RTX_CNT : Nat := 0x110048
abbrev PAIR_HB_MISS_CNT : Nat := 0x110050
abbrev PAIR_STALE_CNT : Nat := 0x110058
abbrev PAIR_CONFLICT_CNT : Nat := 0x110060
abbrev PAIR_CLAIM_CNT : Nat := 0x110068
abbrev PAIR_RESUME_CNT : Nat := 0x110070
abbrev PAIR_RETRY_CNT : Nat := 0x110078
abbrev PAIR_JNL_FULL_CNT : Nat := 0x110080
abbrev FLT_CFG : Nat := 0x120000
abbrev FLT_CTRL : Nat := 0x120008
abbrev FLT_STAT : Nat := 0x120010
abbrev FLT_EVT : Nat := 0x120018
abbrev FLT_LAST_CTX : Nat := 0x120020
abbrev FLT_LAST_PC : Nat := 0x120028
abbrev FLT_PB_BASE : Nat := 0x120030
abbrev FLT_PB_HEAD : Nat := 0x120038
abbrev FLT_CNT_CLR : Nat := 0x120040
abbrev FLT_REPORT_CNT : Nat := 0x120080
abbrev FLT_DUP_CNT : Nat := 0x120088
abbrev FLT_SUPPRESS_CNT : Nat := 0x120090
abbrev FLT_DEDUP_FULL_CNT : Nat := 0x120098
abbrev FLT_PB_DROP_CNT : Nat := 0x1200A0
abbrev FLT_POISON_CNT : Nat := 0x1200A8
abbrev FLT_CTX_RESET_CNT : Nat := 0x1200B0
abbrev FLT_ENG_RESET_CNT : Nat := 0x1200B8
abbrev FLT_PART_RESET_CNT : Nat := 0x1200C0
abbrev SEC_STAT : Nat := 0x130000
abbrev SEC_EVT : Nat := 0x130008
abbrev SEC_AUTH_FAIL_CNT : Nat := 0x130010
abbrev SEC_HOST_DENY_CNT : Nat := 0x130018
abbrev SEC_TENANT_LO : Nat := 0x130100
abbrev SEC_TENANT_HI : Nat := 0x130108
abbrev SEC_CONF : Nat := 0x130200
abbrev SEC_RANGE : Nat := 0x130400
abbrev SEC_LINK : Nat := 0x130600
abbrev SEC_STRM : Nat := 0x134000
abbrev PWR_CTRL : Nat := 0x140000
abbrev PWR_STAT : Nat := 0x140008
abbrev PWR_CAP : Nat := 0x140010
abbrev PWR_CAP_STAT : Nat := 0x140018
abbrev PWR_AVS_CFG : Nat := 0x140020
abbrev PWR_MEAS : Nat := 0x140028
abbrev PWR_EVT : Nat := 0x140030
abbrev PWR_ST_FAIL_CNT : Nat := 0x140038
abbrev PWR_VSET : Nat := 0x140100
abbrev THM_CFG : Nat := 0x150000
abbrev THM_STAT : Nat := 0x150008
abbrev THM_EVT : Nat := 0x150010
abbrev THM_THROT_CNT : Nat := 0x150018
abbrev THM_TEMP : Nat := 0x150100

/-- Key of GL_LINK_CFG_k: beyond BAR0's 16 MiB, because its published offsets run into those of GL_LINK_STAT_k. [DESIGN CHOICE: log 16] -/
abbrev GL_LINK_CFG : Nat := 0x1000000

def csrFams0 : List RegFam :=
  [⟨TB_CTRL, 8, 1, 0x7, 0x0, 0x4, false⟩,
   ⟨TB_SEC_NEXT, 8, 1, 0x3FFFFFFFF, 0x0, 0x0, false⟩,
   ⟨TB_NOW, 8, 1, 0x0, 0x0, 0x0, false⟩,
   ⟨TB_STAT, 8, 1, 0x0, 0x0, 0x0, false⟩,
   ⟨TB_PPS, 8, 1, 0x0, 0x0, 0x0, false⟩,
   ⟨TB_FLOOR, 8, 1, 0x0, 0x0, 0x0, false⟩,
   ⟨TB_EVT, 8, 1, 0x0, 0x1F, 0x0, false⟩,
   ⟨TB_OUTLIER_CNT, 8, 1, 0x0, 0x0, 0x0, true⟩,
   ⟨CUE_NOW, 8, 1, 0x0, 0x0, 0x0, false⟩,
   ⟨CUE_CTRL, 8, 1, 0x0, 0x0, 0x0, false⟩,
   ⟨CUE_STAT, 8, 1, 0x0, 0x2, 0x0, false⟩,
   ⟨CUE_BG_STAT, 8, 1, 0x0, 0x0, 0x0, false⟩,
   ⟨CUE_SHARE, 8, 16, 0x7F, 0x0, 0x0, false⟩,
   ⟨GL_DEV_ID, 8, 1, 0xFFF, 0x0, 0xFFF, false⟩,
   ⟨GL_EVT, 8, 1, 0x0, 0x1FFFFFFFFF, 0x0, false⟩,
   ⟨GL_FWD_BASE, 8, 1, 0xFFFFFFFFFFFFFFFF, 0x0, 0x0, false⟩,
   ⟨GL_FLOOR, 8, 1, 0x0, 0x0, 0x0, false⟩,
   ⟨GL_FLOOR_E, 8, 1, 0x0, 0x0, 0x0, false⟩,
   ⟨GL_FLOOR_F, 8, 1, 0x0, 0x0, 0x0, false⟩,
   ⟨GL_FLOOR_B, 8, 1, 0x0, 0x0, 0x0, false⟩,
   ⟨GL_LINK_STAT, 8, 36, 0x0, 0x0, 0x0, false⟩,
   ⟨GL_LINK_PEER, 8, 36, 0x0, 0x0, 0x0, false⟩,
   ⟨GL_CW_CE_CNT, 8, 36, 0x0, 0x0, 0x0, true⟩,
   ⟨GL_CW_UE_CNT, 8, 36, 0x0, 0x0, 0x0, true⟩,
   ⟨GL_FLIT_DROP_CNT, 8, 36, 0x0, 0x0, 0x0, true⟩,
   ⟨GL_TAG_FAIL_CNT, 8, 36, 0x0, 0x0, 0x0, true⟩,
   ⟨GL_DOWN_CNT, 8, 36, 0x0, 0x0, 0x0, true⟩,
   ⟨GL_EVT_DROP_CNT, 8, 36, 0x0, 0x0, 0x0, true⟩]

def csrFams1 : List RegFam :=
  [⟨CXL_STAT, 8, 1, 0x0, 0x0, 0x0, false⟩,
   ⟨CXL_EVT, 8, 1, 0x0, 0xF, 0x0, false⟩,
   ⟨CXL_WIN_N, 8, 1, 0xFFFFFFF, 0x0, 0x0, false⟩,
   ⟨CXL_WIN_S, 8, 1, 0x3FFFFFFFFF, 0x0, 0x0, false⟩,
   ⟨CXL_HRNG_LO, 16, 16, 0xFFFFFFFFFF001, 0x0, 0x0, false⟩,
   ⟨CXL_HRNG_HI, 16, 16, 0xFFFFFFFFFFFFFF, 0x0, 0x0, false⟩,
   ⟨CXL_BAD_CSR_CNT, 8, 1, 0x0, 0x0, 0x0, true⟩,
   ⟨CXL_RETRAIN_CNT, 8, 1, 0x0, 0x0, 0x0, true⟩,
   ⟨GL_CA_CFG, 8, 16, 0x1FFFFFFFFFFFF, 0x0, 0x0, false⟩,
   ⟨GL_CA_STAT, 8, 16, 0x0, 0x100000, 0x0, false⟩,
   ⟨GL_CA_ERR, 8, 16, 0x0, 0x0, 0x0, true⟩,
   ⟨GL_CA_RTX, 8, 16, 0x0, 0x0, 0x0, true⟩,
   ⟨GL_CA_EVT, 8, 1, 0x0, 0xFFFFFFFF, 0x0, false⟩,
   ⟨SW_CELL_CFG, 8, 1, 0xFFFFFFFF, 0x0, 0x44000800, false⟩,
   ⟨SW_CELL_STAT, 8, 1, 0x0, 0x0, 0x0, false⟩,
   ⟨SW_AUDIT_CFG, 8, 1, 0x1FFFF, 0x0, 0x10FA0, false⟩,
   ⟨SW_AUDIT_CNT, 8, 1, 0x0, 0x0, 0x0, true⟩,
   ⟨SW_TEL_BASE, 8, 1, 0xFFFFFFFFFFFFFFFF, 0x0, 0x0, false⟩,
   ⟨SW_TEL_CFG, 8, 1, 0x1FFFFFF, 0x0, 0x0, false⟩,
   ⟨SW_TEL_HEAD, 8, 1, 0x0, 0x0, 0x0, false⟩,
   ⟨SW_TEL_SKIP, 8, 1, 0x0, 0x0, 0x0, true⟩,
   ⟨SW_RESEQ_LOST, 8, 1, 0x0, 0x0, 0x0, true⟩,
   ⟨SW_RESEQ_LATE, 8, 1, 0x0, 0x0, 0x0, true⟩,
   ⟨SW_QDROP, 8, 612, 0x0, 0x0, 0x0, true⟩,
   ⟨SW_QMARK, 8, 612, 0x0, 0x0, 0x0, true⟩,
   ⟨POL_OVH, 8, 36, 0x3F, 0x0, 0x0, false⟩,
   ⟨POL_PRIV, 8, 1, 0xFFFF, 0x0, 0x0, false⟩,
   ⟨POL_STAT, 8, 1, 0x0, 0x1, 0x0, false⟩]

def csrFams2 : List RegFam :=
  [⟨POL_WRED_T, 16, 6, 0xFFFFFFFFFFFFFFFF, 0x0, 0x800020010000400, false⟩,
   ⟨POL_WRED_P, 16, 6, 0x7FFFF, 0x0, 0x38020, false⟩,
   ⟨POL_MARK, 8, 1, 0xFFFFFFFF, 0x0, 0x1000100, false⟩,
   ⟨POL_RATE, 16, 288, 0xFFFFFFFFFFFFFFFF, 0x0, 0x0, false⟩,
   ⟨POL_BURST, 16, 288, 0x1FFFFFFFFFFFF, 0x0, 0x0, false⟩,
   ⟨POL_SHAPE, 16, 288, 0x1FFFFFFFFFFFFFF, 0x0, 0x0, false⟩,
   ⟨POL_EG_WT, 16, 288, 0xFF, 0x0, 0x1, false⟩,
   ⟨POL_GREEN, 8, 288, 0x0, 0x0, 0x0, true⟩,
   ⟨POL_YELLOW, 8, 288, 0x0, 0x0, 0x0, true⟩,
   ⟨POL_RED, 8, 288, 0x0, 0x0, 0x0, true⟩,
   ⟨RDC_CFG, 8, 1, 0x7FFFF, 0x0, 0x50010, false⟩,
   ⟨RDC_EVT, 8, 1, 0x0, 0x7, 0x0, false⟩,
   ⟨RDC_LAST_ABORT, 8, 1, 0x0, 0x0, 0x0, false⟩,
   ⟨RDC_DONE_CNT, 8, 1, 0x0, 0x0, 0x0, true⟩,
   ⟨RDC_ABORT_CNT, 8, 1, 0x0, 0x0, 0x0, true⟩,
   ⟨RDC_SAT_CNT, 8, 1, 0x0, 0x0, 0x0, true⟩,
   ⟨RDC_OVF_CNT, 8, 1, 0x0, 0x0, 0x0, true⟩,
   ⟨RDC_EARLY_DROP_CNT, 8, 1, 0x0, 0x0, 0x0, true⟩,
   ⟨RDC_STALE_CNT, 8, 1, 0x0, 0x0, 0x0, true⟩,
   ⟨RDC_STAT, 8, 12, 0x0, 0x0, 0x0, false⟩,
   ⟨GTH_CACHE_BASE, 8, 1, 0xFFFFFFFFFFFFFFFF, 0x0, 0x0, false⟩,
   ⟨GTH_CACHE_CFG, 8, 1, 0x1FFFF, 0x0, 0x0, false⟩,
   ⟨GTH_STAT, 8, 1, 0x0, 0x1, 0x0, false⟩,
   ⟨GTH_HIT_CNT, 8, 1, 0x0, 0x0, 0x0, true⟩,
   ⟨GTH_MISS_CNT, 8, 1, 0x0, 0x0, 0x0, true⟩,
   ⟨GTH_SKIP_CNT, 8, 1, 0x0, 0x0, 0x0, true⟩,
   ⟨GTH_CACHE_PART, 8, 16, 0xFFFF, 0x0, 0x0, false⟩,
   ⟨FIL_REC_CNT, 8, 1, 0x0, 0x0, 0x0, true⟩]

def csrFams3 : List RegFam :=
  [⟨FIL_NAN_CNT, 8, 1, 0x0, 0x0, 0x0, true⟩,
   ⟨FIL_OVF_CNT, 8, 1, 0x0, 0x0, 0x0, true⟩,
   ⟨CV_CFG, 8, 1, 0x3, 0x0, 0x2, false⟩,
   ⟨CV_LAST, 8, 1, 0x0, 0x0, 0x0, false⟩,
   ⟨CV_LAST_VAL, 8, 1, 0x0, 0x0, 0x0, false⟩,
   ⟨CV_MISMATCH_CNT, 8, 1, 0x0, 0x0, 0x0, true⟩,
   ⟨CV_EVT, 8, 12, 0x0, 0xFFFF, 0x0, false⟩,
   ⟨ATT_CFG, 8, 1, 0x3F, 0x0, 0x12, false⟩,
   ⟨ATT_EVT, 8, 1, 0x0, 0x7, 0x0, false⟩,
   ⟨ATT_JOB_CNT, 8, 1, 0x0, 0x0, 0x0, true⟩,
   ⟨ATT_FALLBACK_CNT, 8, 1, 0x0, 0x0, 0x0, true⟩,
   ⟨ATT_TRUNC_CNT, 8, 1, 0x0, 0x0, 0x0, true⟩,
   ⟨ATT_NAN_CNT, 8, 1, 0x0, 0x0, 0x0, true⟩,
   ⟨ATT_LIMIT_CNT, 8, 1, 0x0, 0x0, 0x0, true⟩,
   ⟨ATT_SCORED_CNT, 8, 1, 0x0, 0x0, 0x0, true⟩,
   ⟨ATT_EXACT_CNT, 8, 1, 0x0, 0x0, 0x0, true⟩,
   ⟨ATT_STAT, 8, 12, 0x0, 0x0, 0x0, false⟩,
   ⟨MICA_CFG, 8, 1, 0xF, 0x0, 0x3, false⟩,
   ⟨MICA_CTRL, 8, 1, 0x0, 0x0, 0x0, false⟩,
   ⟨MICA_STAT, 8, 1, 0x0, 0x0, 0x0, false⟩,
   ⟨MICA_RATE, 8, 1, 0x0, 0x0, 0x0, false⟩,
   ⟨MICA_EVT, 8, 1, 0x0, 0x1F, 0x0, false⟩,
   ⟨MICA_FLOOR, 8, 1, 0x0, 0x0, 0x0, false⟩,
   ⟨MICA_FLOOR_E, 8, 1, 0x0, 0x0, 0x0, false⟩,
   ⟨MICA_FLOOR_F, 8, 1, 0x0, 0x0, 0x0, false⟩,
   ⟨MICA_FLOOR_CC, 8, 1, 0x0, 0x0, 0x0, false⟩,
   ⟨MICA_ARR_SEL, 8, 1, 0xFFFF, 0x0, 0x0, false⟩,
   ⟨MICA_ARR_STAT, 8, 1, 0x0, 0x0, 0x0, false⟩]

def csrFams4 : List RegFam :=
  [⟨MICA_COL_TRIM, 8, 1, 0x0, 0x0, 0x0, false⟩,
   ⟨MICA_CAL_CNT, 8, 1, 0x0, 0x0, 0x0, true⟩,
   ⟨MICA_CAL_FAIL_CNT, 8, 1, 0x0, 0x0, 0x0, true⟩,
   ⟨MICA_RETIRE_CNT, 8, 1, 0x0, 0x0, 0x0, true⟩,
   ⟨MICA_WITHDRAW_CNT, 8, 1, 0x0, 0x0, 0x0, true⟩,
   ⟨MICA_SKETCH_CNT, 8, 1, 0x0, 0x0, 0x0, true⟩,
   ⟨MICA_SHADOW_CNT, 8, 1, 0x0, 0x0, 0x0, true⟩,
   ⟨MICA_SHADOW_DROP_CNT, 8, 1, 0x0, 0x0, 0x0, true⟩,
   ⟨MICA_RETIRED, 8, 12, 0x0, 0x0, 0x0, false⟩,
   ⟨MICA_FW_CAL_CNT, 8, 4, 0x0, 0x0, 0x0, true⟩,
   ⟨MICA_FW_RETIRE_CNT, 8, 4, 0x0, 0x0, 0x0, true⟩,
   ⟨MICA_SHADOW_CFG, 8, 16, 0xFFFFFFFFFFFFF, 0x0, 0x0, false⟩,
   ⟨MICA_SHADOW_BASE, 8, 16, 0xFFFFFFFFFFFFFFFF, 0x0, 0x0, false⟩,
   ⟨MICA_SHADOW_HEAD, 8, 16, 0x0, 0x0, 0x0, false⟩,
   ⟨VER_CFG, 8, 1, 0x1, 0x0, 0x0, false⟩,
   ⟨VER_REG_BASE, 8, 1, 0xFFFFFFFFFFFFFFFF, 0x0, 0x0, false⟩,
   ⟨VER_REG_CNT, 8, 1, 0x3FFFFFFF, 0x0, 0x0, false⟩,
   ⟨VER_VER_BASE, 8, 1, 0xFFFFFFFFFFFFFFFF, 0x0, 0x0, false⟩,
   ⟨VER_VER_CNT, 8, 1, 0x3FFFFFFF, 0x0, 0x0, false⟩,
   ⟨VER_EXT_BASE, 8, 1, 0xFFFFFFFFFFFFFFFF, 0x0, 0x0, false⟩,
   ⟨VER_EXT_CNT, 8, 1, 0x3FFFFFFF, 0x0, 0x0, false⟩,
   ⟨VER_POOL_N, 8, 1, 0xFFFFFFF, 0x0, 0x0, false⟩,
   ⟨VER_POOL_S, 8, 1, 0x3FFFFFFFFF, 0x0, 0x0, false⟩,
   ⟨VER_EVT, 8, 1, 0x0, 0x1F, 0x0, false⟩,
   ⟨VER_FREE, 8, 1, 0x0, 0x0, 0x0, false⟩,
   ⟨VER_EVICT_CNT, 8, 1, 0x0, 0x0, 0x0, true⟩,
   ⟨VER_CONFLICT_CNT, 8, 1, 0x0, 0x0, 0x0, true⟩,
   ⟨VER_REVOKE_CNT, 8, 1, 0x0, 0x0, 0x0, true⟩]

def csrFams5 : List RegFam :=
  [⟨VER_DEGRADED_CNT, 8, 1, 0x0, 0x0, 0x0, true⟩,
   ⟨VER_LOST_CNT, 8, 1, 0x0, 0x0, 0x0, true⟩,
   ⟨VER_QN, 8, 16, 0xFFFFFFF, 0x0, 0x0, false⟩,
   ⟨VER_QS, 8, 16, 0x3FFFFFFFFF, 0x0, 0x0, false⟩,
   ⟨VER_QP, 8, 16, 0x3FFFFFFF, 0x0, 0x0, false⟩,
   ⟨VER_CHG, 8, 16, 0x0, 0x0, 0x0, false⟩,
   ⟨VER_TRAY_CFG, 8, 64, 0x7FFFFFFFFFFFFFFF, 0x0, 0x0, false⟩,
   ⟨VER_TRAY_STAT, 8, 64, 0x0, 0x0, 0x0, false⟩,
   ⟨VER_TRAY_CTRL, 8, 1, 0x0, 0x0, 0x0, false⟩,
   ⟨VER_CODEC_CFG, 8, 1, 0x3, 0x0, 0x1, false⟩,
   ⟨VER_CODEC_EVT, 8, 1, 0x0, 0x7, 0x0, false⟩,
   ⟨VER_SEAL_BLK_CNT, 8, 1, 0x0, 0x0, 0x0, true⟩,
   ⟨VER_SEAL_RAW_CNT, 8, 1, 0x0, 0x0, 0x0, true⟩,
   ⟨VER_SEAL_GRAN_CNT, 8, 1, 0x0, 0x0, 0x0, true⟩,
   ⟨VER_UNSEAL_FAIL_CNT, 8, 1, 0x0, 0x0, 0x0, true⟩,
   ⟨VER_RECOVER_CNT, 8, 1, 0x0, 0x0, 0x0, true⟩,
   ⟨VER_ECC_N_CE_CNT, 8, 1, 0x0, 0x0, 0x0, true⟩,
   ⟨VER_ECC_N_UE_CNT, 8, 1, 0x0, 0x0, 0x0, true⟩,
   ⟨VER_ECC_S_CE_CNT, 8, 1, 0x0, 0x0, 0x0, true⟩,
   ⟨VER_ECC_S_UE_CNT, 8, 1, 0x0, 0x0, 0x0, true⟩,
   ⟨SES_CFG, 8, 1, 0x1FFFFFFFFFF, 0x0, 0x4008000FA0, false⟩,
   ⟨SES_TBL_BASE, 8, 1, 0xFFFFFFFFFFFFFFFF, 0x0, 0x0, false⟩,
   ⟨SES_TBL_CNT, 8, 1, 0x1FFFFFF, 0x0, 0x0, false⟩,
   ⟨SES_EVT, 8, 1, 0x0, 0x1F, 0x0, false⟩,
   ⟨SES_LAST, 8, 1, 0x0, 0x0, 0x0, false⟩,
   ⟨SES_PARK_CNT, 8, 1, 0x0, 0x0, 0x0, true⟩,
   ⟨SES_REVIVE_CNT, 8, 1, 0x0, 0x0, 0x0, true⟩,
   ⟨SES_MOVE_CNT, 8, 1, 0x0, 0x0, 0x0, true⟩]

def csrFams6 : List RegFam :=
  [⟨SES_FORK_CNT, 8, 1, 0x0, 0x0, 0x0, true⟩,
   ⟨SES_APPEND_CNT, 8, 1, 0x0, 0x0, 0x0, true⟩,
   ⟨SES_CKPT_CNT, 8, 1, 0x0, 0x0, 0x0, true⟩,
   ⟨SES_CHECK_FAIL_CNT, 8, 1, 0x0, 0x0, 0x0, true⟩,
   ⟨SES_WIN_DROP_CNT, 8, 1, 0x0, 0x0, 0x0, true⟩,
   ⟨SES_STATE, 8, 9, 0x0, 0x0, 0x0, false⟩,
   ⟨SES_QUOTA, 8, 16, 0x1FFFFFF, 0x0, 0x0, false⟩,
   ⟨PAIR_CFG, 8, 1, 0x3FFFFFFFFFFFF, 0x0, 0x0, false⟩,
   ⟨PAIR_CTRL, 8, 1, 0x0, 0x0, 0x0, false⟩,
   ⟨PAIR_STAT, 8, 1, 0x0, 0x800, 0x0, false⟩,
   ⟨PAIR_EVT, 8, 1, 0x0, 0x3F, 0x0, false⟩,
   ⟨PAIR_MAP_BASE, 8, 1, 0xFFFFFFFFFFFFFFFF, 0x0, 0x0, false⟩,
   ⟨PAIR_JNL_BASE, 8, 1, 0xFFFFFFFFFFFFFFFF, 0x0, 0x0, false⟩,
   ⟨PAIR_JNL_CNT, 8, 1, 0xFFFF, 0x0, 0x0, false⟩,
   ⟨PAIR_BULK, 8, 1, 0x0, 0x0, 0x0, false⟩,
   ⟨PAIR_MWR_CNT, 8, 1, 0x0, 0x0, 0x0, true⟩,
   ⟨PAIR_RTX_CNT, 8, 1, 0x0, 0x0, 0x0, true⟩,
   ⟨PAIR_HB_MISS_CNT, 8, 1, 0x0, 0x0, 0x0, true⟩,
   ⟨PAIR_STALE_CNT, 8, 1, 0x0, 0x0, 0x0, true⟩,
   ⟨PAIR_CONFLICT_CNT, 8, 1, 0x0, 0x0, 0x0, true⟩,
   ⟨PAIR_CLAIM_CNT, 8, 1, 0x0, 0x0, 0x0, true⟩,
   ⟨PAIR_RESUME_CNT, 8, 1, 0x0, 0x0, 0x0, true⟩,
   ⟨PAIR_RETRY_CNT, 8, 1, 0x0, 0x0, 0x0, true⟩,
   ⟨PAIR_JNL_FULL_CNT, 8, 1, 0x0, 0x0, 0x0, true⟩,
   ⟨FLT_CFG, 8, 1, 0x7FFFFFFFFF, 0x0, 0x6304080040, false⟩,
   ⟨FLT_CTRL, 8, 1, 0x0, 0x0, 0x0, false⟩,
   ⟨FLT_STAT, 8, 1, 0x0, 0x0, 0x0, false⟩,
   ⟨FLT_EVT, 8, 1, 0x0, 0x7F, 0x0, false⟩]

def csrFams7 : List RegFam :=
  [⟨FLT_LAST_CTX, 8, 1, 0x0, 0x0, 0x0, false⟩,
   ⟨FLT_LAST_PC, 8, 1, 0x0, 0x0, 0x0, false⟩,
   ⟨FLT_PB_BASE, 8, 1, 0x0, 0x0, 0x0, false⟩,
   ⟨FLT_PB_HEAD, 8, 1, 0x0, 0x0, 0x0, false⟩,
   ⟨FLT_CNT_CLR, 8, 1, 0x0, 0x0, 0x0, false⟩,
   ⟨FLT_REPORT_CNT, 8, 1, 0x0, 0x0, 0x0, true⟩,
   ⟨FLT_DUP_CNT, 8, 1, 0x0, 0x0, 0x0, true⟩,
   ⟨FLT_SUPPRESS_CNT, 8, 1, 0x0, 0x0, 0x0, true⟩,
   ⟨FLT_DEDUP_FULL_CNT, 8, 1, 0x0, 0x0, 0x0, true⟩,
   ⟨FLT_PB_DROP_CNT, 8, 1, 0x0, 0x0, 0x0, true⟩,
   ⟨FLT_POISON_CNT, 8, 1, 0x0, 0x0, 0x0, true⟩,
   ⟨FLT_CTX_RESET_CNT, 8, 1, 0x0, 0x0, 0x0, true⟩,
   ⟨FLT_ENG_RESET_CNT, 8, 1, 0x0, 0x0, 0x0, true⟩,
   ⟨FLT_PART_RESET_CNT, 8, 1, 0x0, 0x0, 0x0, true⟩,
   ⟨SEC_STAT, 8, 1, 0x0, 0x0, 0x0, false⟩,
   ⟨SEC_EVT, 8, 1, 0x0, 0xF, 0x0, false⟩,
   ⟨SEC_AUTH_FAIL_CNT, 8, 1, 0x0, 0x0, 0x0, true⟩,
   ⟨SEC_HOST_DENY_CNT, 8, 1, 0x0, 0x0, 0x0, true⟩,
   ⟨SEC_TENANT_LO, 16, 16, 0xFFFFFFFFFFFFFFFF, 0x0, 0x0, false⟩,
   ⟨SEC_TENANT_HI, 16, 16, 0xFFFFFFFFFFFFFFFF, 0x0, 0x0, false⟩,
   ⟨SEC_CONF, 8, 16, 0x19, 0x20, 0x0, false⟩,
   ⟨SEC_RANGE, 8, 64, 0xFFFFFFFFFFF, 0x0, 0x0, false⟩,
   ⟨SEC_LINK, 8, 36, 0xFFFF0001, 0x0, 0x0, false⟩,
   ⟨SEC_STRM, 8, 1152, 0x1F1F1F1F1F1F1F1F, 0x0, 0x0, false⟩,
   ⟨PWR_CTRL, 8, 1, 0x0, 0x0, 0x0, false⟩,
   ⟨PWR_STAT, 8, 1, 0x0, 0x0, 0x0, false⟩,
   ⟨PWR_CAP, 8, 1, 0x7FF, 0x0, 0x5DC, false⟩,
   ⟨PWR_CAP_STAT, 8, 1, 0x0, 0x0, 0x0, false⟩]

def csrFams8 : List RegFam :=
  [⟨PWR_AVS_CFG, 8, 1, 0xF, 0x0, 0x4, false⟩,
   ⟨PWR_MEAS, 8, 1, 0x0, 0x0, 0x0, false⟩,
   ⟨PWR_EVT, 8, 1, 0x0, 0xF, 0x0, false⟩,
   ⟨PWR_ST_FAIL_CNT, 8, 1, 0x0, 0x0, 0x0, true⟩,
   ⟨PWR_VSET, 8, 12, 0x0, 0x0, 0x0, false⟩,
   ⟨THM_CFG, 8, 1, 0x100FFFF, 0x0, 0x645F, false⟩,
   ⟨THM_STAT, 8, 1, 0x0, 0x0, 0x0, false⟩,
   ⟨THM_EVT, 8, 1, 0x0, 0xF, 0x0, false⟩,
   ⟨THM_THROT_CNT, 8, 1, 0x0, 0x0, 0x0, true⟩,
   ⟨THM_TEMP, 8, 21, 0x0, 0x0, 0x0, false⟩]

/-- GL_LINK_CFG_k: EN, ROLE, REACH and TAGS. [DESIGN CHOICE: log 16] -/
def linkCfgFam : RegFam := ⟨GL_LINK_CFG, 8, 36, 0xFFFFF, 0, 0x1800 * 64, false⟩

/-- Every register family of the register maps. -/
def csrFams : List RegFam := csrFams0 ++ csrFams1 ++ csrFams2 ++ csrFams3 ++ csrFams4 ++ csrFams5 ++ csrFams6 ++ csrFams7 ++ csrFams8 ++ [linkCfgFam]

/-- Whether an offset names a register of the family. -/
def RegFam.covers (f : RegFam) (off : Nat) : Bool :=
  f.base ≤ off && off < f.base + f.stride * f.count && (off - f.base) % f.stride == 0

/-- The family that an offset names a register of; an undefined offset has none (R535). -/
def csrFam (off : Nat) : Option RegFam := csrFams.find? (fun f => f.covers off)

/-- The reset value of a register. -/
def csrReset (off : Nat) : Nat := match csrFam off with
  | some f => f.reset
  | none => 0

/-- The stored value of a register: what was last put there, or its reset value. -/
def Dev.reg (d : Dev) (off : Nat) : Nat := match Tab.find? d.csr off with
  | some v => v.toNat
  | none => csrReset off

/-- Puts a value into a register. -/
def Dev.putReg (d : Dev) (off v : Nat) : Dev := { d with csr := Tab.insert d.csr off (BitVec.ofNat 64 v) }

/-- A field of a register. -/
def Dev.regFld (d : Dev) (off lo w : Nat) : Nat := fld (d.reg off) lo w

/-- Sets one bit of a register. -/
def Dev.setRegBit (d : Dev) (off i : Nat) : Dev := d.putReg off (setBit (d.reg off) i)

/-- Clears one bit of a register. -/
def Dev.clrRegBit (d : Dev) (off i : Nat) : Dev := d.putReg off (clrBit (d.reg off) i)

end Sys2Proof.Machine
end

