-- ==== Sys2Proof/Machine/Ops.lean ====
section
/-! DEFINITION. The named operations over the device that every chapter uses: what leaves the device, events, saturating counters,
reports to the hub, the address maps, and reads and writes of NEAR, STRATUM and LOCAL. -/

namespace Sys2Proof.Machine

/-- Runs an update of the device: the command completes and the queue is left alone. [DEDUCED: log 1; DESIGN CHOICE: log 2] -/
def State.run (s : State) (f : Dev → Dev) : Host.Outcome State Fault Refusal :=
  .next { s with dev := if s.dev.pwr.powered && !s.dev.pwr.romFatal then f s.dev else s.dev }

/-- A meaning that also applies to a device that is off, or held in the boot ROM. [DEDUCED: log 1] -/
def State.runAlways (s : State) (f : Dev → Dev) : Host.Outcome State Fault Refusal := .next { s with dev := f s.dev }

/-! ## Free values -/

/-- Takes the next index of the opaque free values. [DESIGN CHOICE: log 5, 6] -/
def Dev.nextFree (d : Dev) : Dev × Nat := ({ d with freeIx := d.freeIx + 1 }, d.freeIx)

/-! ## Output -/

/-- Something leaves the device. [DESIGN CHOICE: log 13] -/
def Dev.emit (d : Dev) (o : Out) : Dev := { d with out := d.out ++ [o] }

/-- [DESIGN CHOICE: log 13] -/
def Dev.emits (d : Dev) (os : List Out) : Dev := { d with out := d.out ++ os }

/-- Sets an event bit; where the chapter's enable bit is 1 the event is routed to the host. -/
def Dev.event (d : Dev) (reg bit : Nat) (routed : Bool) : Dev :=
  let d := d.setRegBit reg bit
  if routed then d.emit (.event reg bit) else d

/-! ## Saturating counters and reports (R480 to R483, R487, R488) -/

/-- 2^63 - 1, where a statistics counter saturates (R483). -/
def counterMax : Nat := 2 ^ 63 - 1

/-- A counter value after n more events: COUNT stops at 2^63 - 1 and SAT is set with it (R483). [DEDUCED: log 20] -/
def countUp (v n : Nat) : Nat :=
  if counterMax ≤ v % 2 ^ 63 + n then counterMax + 2 ^ 63 else v / 2 ^ 63 * 2 ^ 63 + (v % 2 ^ 63 + n)

/-- Whether n more events make the counter saturate now. [DEDUCED: log 20] -/
def saturates (v n : Nat) : Bool := v < 2 ^ 63 && counterMax ≤ v % 2 ^ 63 + n

/-- Storm-table capacity (R480). -/
def stormEntries : Nat := 4096

/-- Staging queue of a tile (R488). -/
def stagingDepth : Nat := 256

/-- FLT_CFG.BURST; 0 reads as 1. -/
def Dev.burst (d : Dev) : Nat := max 1 (d.regFld FLT_CFG 24 8)

/-- Puts an entry into the staging queue of its origin's tile; a full queue drops it (R488). Answers whether it was dropped. [DESIGN CHOICE: log 31] -/
def Dev.stage (d : Dev) (tile : Nat) (e : PbEntry) : Dev × Bool :=
  let q := Tab.get [] d.flt.staging tile
  if q.length < stagingDepth then
    ({ d with flt := { d.flt with staging := Tab.insert d.flt.staging tile (q ++ [e]) } }, false)
  else ({ d with flt := { d.flt with lostEntries := d.flt.lostEntries + 1 } }, true)

/-- The REPORT entry of a report. -/
def reportEntry (r : Report) : PbEntry :=
  { tbase := r.tbase, code := r.code, kind := 0, sev := r.sev, step := r.step, status := r.status, origin := r.origin,
    a := r.a, b := r.b, c := r.c }

/-- Tile of an origin; the hub's own queue (15) takes origins without a tile. [DESIGN CHOICE: log 31] -/
def originTile (o : BitVec 32) : Nat := fld o.toNat 4 4

/-- Host interrupt of a REPORT entry (R482). -/
def Dev.notify (d : Dev) (r : Report) : Dev :=
  if d.regFld FLT_CFG 35 1 = 1 && bitAt (d.regFld FLT_CFG 36 3) r.sev then d.emit (.interrupt r.code) else d

/-- HOST_EVT reports write entries of KIND 2 (R487, R489). -/
def reportKinded (r : Report) : PbEntry := if r.code = 0x0003 then { (reportEntry r) with kind := 2 } else (reportEntry r)

def stormFresh (r : Report) : Storm :=
  { origin := r.origin, code := r.code, cue := 0, valid := false, fwd := 0, dup := 0, sup := 0, first := 0, last := 0, used := false }

/-- First and last cue counted in DUP or SUP. -/
def Storm.note (e : Storm) (cue : Nat) : Storm :=
  { e with first := if e.dup + e.sup = 1 then cue else e.first, last := cue }

/-- What the storm table does with a report (R480): the entry afterwards, and whether it is forwarded, a duplicate (1) or
suppressed (2). -/
def Storm.take (e : Storm) (cue burst cueCount : Nat) : Storm × Nat :=
  let e := { e with used := true }
  if e.cue = cue ∧ e.valid then (({ e with dup := e.dup + 1 } : Storm).note cueCount, 1)
  else if burst ≤ e.fwd then (({ e with cue := cue, valid := true, sup := e.sup + 1 } : Storm).note cueCount, 2)
  else ({ e with cue := cue, valid := true, fwd := e.fwd + 1 }, 0)

def stormUpdate (t : List Storm) (e : Storm) : List Storm :=
  if t.any (fun x => x.origin == e.origin && x.code == e.code) then
    t.map (fun x => if x.origin == e.origin && x.code == e.code then e else x)
  else t ++ [e]

/-- Codes that bypass the storm table and BURST (R480). -/
def bypassesStorm (code : Nat) : Bool := code == 0x001B || code == 0x001C || code == 0x001D

/-- Counts events in a counter; where it saturates, the COUNTER_SAT report follows through rep (R483). -/
def Dev.countWith (rep : Dev → Report → Dev) (d : Dev) (off n : Nat) : Dev :=
  let v := d.reg off
  let d' := d.putReg off (countUp v n)
  if saturates v n then
    rep (d'.setRegBit FLT_EVT 1)
      { code := 0x0060, sev := 0, step := 0, status := 0, origin := 0xF7, a := BitVec.ofNat 64 (0x8000000000000000 + off), b := 0,
        c := 0, cue := d.tb.tbase / 250, tbase := d.tb.tbase }
  else d'

/-- Stages a report's entry and notifies the host; a full queue counts in FLT_PB_DROP_CNT and sets PB_DROP. -/
def Dev.forward (cnt : Dev → Nat → Dev) (d : Dev) (r : Report) : Dev :=
  let x := d.stage (originTile r.origin) (reportKinded r)
  let d := if x.2 then (cnt x.1 FLT_PB_DROP_CNT).setRegBit FLT_EVT 3 else x.1
  d.notify r

/-- The hub handles a report (R480, R481, R482, R488). The fuel bounds the COUNTER_SAT reports that the report's own counters
raise; each of the five counters saturates at most once. -/
def Dev.hub : Nat → Dev → Report → Dev
  | 0, d, _ => d
  | fuel + 1, d, r =>
    let cnt := fun (d : Dev) (off : Nat) => Dev.countWith (Dev.hub fuel) d off 1
    let d := cnt d FLT_REPORT_CNT
    if bypassesStorm r.code then d.forward cnt r
    else
      match d.flt.storm.find? (fun e => e.origin == r.origin && e.code == r.code) with
      | none =>
        if d.flt.storm.length < stormEntries then
          let e := (stormFresh r).take r.cue d.burst (d.tb.cueCount % 2 ^ 32)
          ({ d with flt := { d.flt with storm := stormUpdate d.flt.storm e.1 } } : Dev).forward cnt r
        else
          let d := cnt d FLT_DEDUP_FULL_CNT
          ({ d with flt := { d.flt with lostReports := d.flt.lostReports + 1 } } : Dev).setRegBit FLT_EVT 2
      | some e =>
        let x := e.take r.cue d.burst (d.tb.cueCount % 2 ^ 32)
        let d := { d with flt := { d.flt with storm := stormUpdate d.flt.storm x.1 } }
        if x.2 = 0 then d.forward cnt r
        else if x.2 = 1 then cnt d FLT_DUP_CNT
        else cnt d FLT_SUPPRESS_CNT

/-- A report reaches the hub. -/
def Dev.hubReport (d : Dev) (r : Report) : Dev := Dev.hub 8 d r

/-- Counts n events in a saturating counter (R483). -/
def Dev.bumpBy (d : Dev) (off n : Nat) : Dev := if n = 0 then d else Dev.countWith Dev.hubReport d off n

/-- Counts one event. [DEDUCED: log 20] -/
def Dev.bump (d : Dev) (off : Nat) : Dev := d.bumpBy off 1

/-- An ORIGIN word (R487). -/
def mkOrigin (cls tile unit sub part : Nat) : BitVec 32 :=
  BitVec.ofNat 32 (cls % 16 + tile % 16 * 2 ^ 4 + unit % 256 * 2 ^ 8 + sub % 16 * 2 ^ 16 + part % 16 * 2 ^ 20)

/-- The origin of a peer device, whose ID has 12 bits (R487). -/
def peerOrigin (dev : Nat) : BitVec 32 := BitVec.ofNat 32 (9 + 15 * 16 + dev % 256 * 2 ^ 8 + dev / 256 % 16 * 2 ^ 24)

/-- The origin of the hub. -/
def hubOrigin : BitVec 32 := mkOrigin 7 15 0 0 0

/-- The origin of a context. -/
def ctxOrigin (c : CtxId) (part : Nat) : BitVec 32 := mkOrigin 0 c.tile c.core c.ctx part

/-- The origin of an engine instance. -/
def engOrigin (e : EngId) (part : Nat) : BitVec 32 := mkOrigin 1 e.tile e.inst e.cls part

/-- TBASE as it reads now (R34): the boundary value plus a part of the cue that no command states, and that never decreases. [DESIGN CHOICE: log 4] -/
def Dev.stampNow (d : Dev) : Dev × Nat :=
  let x := d.nextFree
  let ns := d.tb.sub + (Config.free64 x.2).toNat % (250 - d.tb.sub)
  ({ x.1 with tb := { x.1.tb with sub := ns } }, d.tb.tbase + ns)

/-- A detector of the device reports a fault, at the device's present TBASE. -/
def Dev.report (d : Dev) (code sev : Nat) (origin : BitVec 32) (a b c : Nat) (status : Nat := 0) (step : Nat := 0) : Dev :=
  let t := d.stampNow
  t.1.hubReport { code := code, sev := sev, step := step, status := status, origin := origin, a := BitVec.ofNat 64 a,
                  b := BitVec.ofNat 64 b, c := BitVec.ofNat 64 c, cue := t.2 / 250, tbase := t.2 }

/-! ## Address maps (R6, R18, R23 to R27, R29) -/

def spaceOf (a : Nat) : Nat := a / 2 ^ 60
def offOf (a : Nat) : Nat := a % 2 ^ 60
def nearAddr (off : Nat) : Nat := 2 ^ 60 + off
def stratAddr (off : Nat) : Nat := 2 * 2 ^ 60 + off

def nearSize : Nat := 0x780000000
def stratSize : Nat := 0x9000000000

/-- Home tile of a NEAR offset (R24). -/
def homeTile (off : Nat) : Nat :=
  let g := off / 4096
  let r := g / 12
  (g % 12 + ((fld r 0 5 ^^^ fld r 5 5) ^^^ fld r 10 5 ^^^ fld r 15 5)) % 12

/-- Tile-local NEAR offset (R24). -/
def homeLocal (off : Nat) : Nat := off / 4096 / 12 * 4096 + off % 4096

/-- Stack of a STRATUM offset (R26). -/
def stackOf (off : Nat) : Nat :=
  let g := off / 4096
  (fld g 0 3 ^^^ fld g 10 3) ^^^ fld g 20 3

/-- Stack-local offset (R26). -/
def stackLocal (off : Nat) : Nat := off / 4096 / 8 * 4096 + off % 4096

/-- Tile of a stack (R16). -/
def stackTile (s : Nat) : Nat := if s < 4 then s else s + 4

/-- Tile that serves an address of NEAR or STRATUM. -/
def memTile (a : Nat) : Nat := if spaceOf a = 1 then homeTile (offOf a) else stackTile (stackOf (offOf a))

/-- Attach tile of a link (R18). -/
def attachTile (k : Nat) : Nat :=
  if k ≤ 4 then 0 else if k ≤ 12 then 4 else if k ≤ 17 then 8 else if k ≤ 22 then 3 else if k ≤ 30 then 7 else 11

/-- Port die of a link (R18). -/
def portDie (k : Nat) : Nat := if k ≤ 8 then 0 else if k ≤ 17 then 1 else if k ≤ 26 then 2 else 3

/-- Tile-to-tile hop distance (R16). -/
def hopDist (a b : Nat) : Nat :=
  (max (a / 4) (b / 4) - min (a / 4) (b / 4)) + (max (a % 4) (b % 4) - min (a % 4) (b % 4))

/-- Whether n bytes from a lie wholly in NEAR or STRATUM (R23, R27, R100). -/
def inMem (a n : Nat) : Bool :=
  (spaceOf a == 1 && offOf a + n ≤ nearSize) || (spaceOf a == 2 && offOf a + n ≤ stratSize)

/-! ## NEAR and STRATUM -/

/-- One byte of NEAR or STRATUM; what nothing has written reads as 0, as the self-test leaves it (R547). [DESIGN CHOICE: log 10] -/
def Mem.byte (m : Mem) (a : Nat) : Byte := Tab.get 0 m.bytes a

/-- n bytes from an address. -/
def Mem.bytesAt (m : Mem) (a : Nat) : Nat → Bytes
  | 0 => []
  | n + 1 => m.byte a :: m.bytesAt (a + 1) n

/-- Writes bytes from an address on, in the canonical form of the table. -/
def putBytes (t : List Host.Cell) (a : Nat) : Bytes → List Host.Cell
  | [] => t
  | b :: bs => putBytes (Tab.set 0 t a b) (a + 1) bs

/-- Stores bytes without any check. -/
def Mem.put (m : Mem) (a : Nat) (bs : Bytes) : Mem := { m with bytes := putBytes m.bytes a bs }

/-- The granules that n bytes from a touch, as address / 64 (R119). -/
def granules (a n : Nat) : List Nat := if n = 0 then [] else (List.range ((a + n - 1) / 64 + 1 - a / 64)).map (· + a / 64)

/-- Origin of an ECC report: the tile block or the stack that serves the address. -/
def eccOrigin (a : Nat) : BitVec 32 :=
  if spaceOf a = 1 then mkOrigin 3 (homeTile (offOf a)) 0 0 0
  else mkOrigin 4 (stackTile (stackOf (offOf a))) (stackOf (offOf a)) 0 0

/-- Sets the poison mark of a granule (R464). [DESIGN CHOICE: log 32] -/
def Dev.mark (d : Dev) (g : Nat) : Dev := { d with mem := { d.mem with marks := Tab.set false d.mem.marks g true } }

/-- An uncorrectable granule is found: counted, marked and reported once (R461, R464). [DESIGN CHOICE: log 32] -/
def Dev.foundUe (d : Dev) (g : Nat) : Dev :=
  let near := spaceOf (g * 64) = 1
  let d := (d.mark g).bump (if near then VER_ECC_N_UE_CNT else VER_ECC_S_UE_CNT)
  let d := d.event VER_CODEC_EVT (if near then 1 else 2) (d.regFld VER_CODEC_CFG 1 1 == 1)
  d.report (if near then 0x20 else 0x21) 1 (eccOrigin (g * 64)) (g * 64) 0 0

/-- The bank read of one granule (R461, R466): answers whether its data is good. -/
def Dev.granRead (d : Dev) (g : Nat) : Dev × Bool :=
  if Tab.get false d.mem.marks g then (d.bump FLT_POISON_CNT, false)
  else match Tab.get Ecc.good d.mem.ecc g with
    | .good => (d, true)
    | .ce =>
      let d := d.bump (if spaceOf (g * 64) = 1 then VER_ECC_N_CE_CNT else VER_ECC_S_CE_CNT)
      ({ d with mem := { d.mem with writeBack := setIns d.mem.writeBack g } }, true)
    | .ue => (d.foundUe g, false)

def granReadAll (d : Dev) : List Nat → Dev × List (Nat × Bool)
  | [] => (d, [])
  | g :: gs =>
    let x := d.granRead g
    let y := granReadAll x.1 gs
    (y.1, (g, x.2) :: y.2)

/-- A read of n bytes: none is POISON (R14, R461, R466). -/
def Dev.memRead (d : Dev) (a n : Nat) : Dev × Option Bytes :=
  let x := granReadAll d (granules a n)
  (x.1, if x.2.all (·.2) then some (d.mem.bytesAt a n) else none)

/-- A read that keeps apart which granules were bad: their bytes read as zeros (R14, R465). -/
def Dev.memReadZ (d : Dev) (a n : Nat) : Dev × Bytes × List Nat :=
  let x := granReadAll d (granules a n)
  let bad := (x.2.filter (fun e => !e.2)).map (·.1)
  (x.1, (List.range n).map (fun i => if ((a + i) / 64) ∈ bad then 0 else d.mem.byte (a + i)), bad)

/-- Fresh check bits: the granule's mark, error and pending write-back go (R461, R466). -/
def Dev.fresh (d : Dev) (g : Nat) : Dev :=
  { d with mem := { d.mem with marks := Tab.set false d.mem.marks g false, ecc := Tab.set Ecc.good d.mem.ecc g Ecc.good,
                               writeBack := setDel d.mem.writeBack g } }

/-- Key of a 2 MiB frame's dirty bit. -/
def frameOf (a : Nat) : Nat := a / 2 ^ 21

/-- The working copy that holds a frame, with its region: (region index, slot). -/
def Dev.frameHolder (d : Dev) (a : Nat) : Option (Nat × Nat) :=
  Tab.find? d.ver.frames ((spaceOf a - 1) * 2 ^ 20 + offOf a / 2 ^ 21)

/-- The home sets the dirty bit of a frame of a working copy at any write (R357). -/
def Dev.touch (d : Dev) (a : Nat) : Dev :=
  match d.frameHolder a with
  | some _ => { d with mem := { d.mem with dirty := Tab.set false d.mem.dirty (frameOf a) true } }
  | none => d

/-- Whether an access holds data of a line that was fetched for a party of the device. -/
def Access.fetched (x : Access) : Bool :=
  match x.origin with
  | .sync _ => x.performed && x.kind == .load
  | _ => false

/-- Line data fetched earlier is not read after a store to its line (R103, R122). -/
def Dev.dropFetchedLine (d : Dev) (g : Nat) : Dev :=
  { d with coh := { d.coh with accs := d.coh.accs.filter (fun e => !(e.2.fetched && e.2.addr / 128 == g / 2)) } }

/-- Stores the piece of a write that lies in one granule (R119): answers false for POISON. [DESIGN CHOICE: log 32] -/
def Dev.granWrite (d : Dev) (a : Nat) (bs : Bytes) : Dev × Bool :=
  let g := a / 64
  let d := d.dropFetchedLine g
  if bs.length = 64 then
    let d := (d.fresh g).touch a
    ({ d with mem := d.mem.put a bs }, true)
  else if Tab.get false d.mem.marks g then (d.bump FLT_POISON_CNT, false)
  else match Tab.get Ecc.good d.mem.ecc g with
    | .ue => (d.foundUe g, false)
    | .ce =>
      let d := d.bump (if spaceOf a = 1 then VER_ECC_N_CE_CNT else VER_ECC_S_CE_CNT)
      let d := (d.fresh g).touch a
      ({ d with mem := d.mem.put a bs }, true)
    | .good =>
      let d := (d.fresh g).touch a
      ({ d with mem := d.mem.put a bs }, true)

/-- The granules that n bytes from a cover only in part. -/
def edgeGranules (a n : Nat) : List Nat := (granules a n).filter (fun g => g * 64 < a || a + n < g * 64 + 64)

/-- Whether a granule's data is lost: marked, or with an uncorrectable error. -/
def Dev.granBad (d : Dev) (g : Nat) : Bool := Tab.get false d.mem.marks g || Tab.get Ecc.good d.mem.ecc g == .ue

/-- The granules at which writes of NEAR and STRATUM would meet POISON: address, bytes. -/
def Dev.writeStops (d : Dev) (l : List (Nat × Nat)) : List Nat :=
  l.flatMap (fun w => if spaceOf w.1 = 1 ∨ spaceOf w.1 = 2 then (edgeGranules w.1 w.2).filter d.granBad else [])

/-- Cuts a write into one piece per granule (R119). The number bounds the pieces. -/
def pieces : Nat → Nat → Bytes → List (Nat × Bytes)
  | 0, _, _ => []
  | k + 1, a, bs =>
    if bs = [] then []
    else
      let n := 64 - a % 64
      (a, bs.take n) :: pieces k (a + n) (bs.drop n)

def writePieces (d : Dev) : List (Nat × Bytes) → Dev × Bool
  | [] => (d, true)
  | p :: ps =>
    let x := d.granWrite p.1 p.2
    let y := writePieces x.1 ps
    (y.1, x.2 && y.2)

/-- A write of bytes from an address: pieces of good granules are stored, and false says POISON (R461, R466). -/
def Dev.memWrite (d : Dev) (a : Nat) (bs : Bytes) : Dev × Bool := writePieces d (pieces (bs.length / 64 + 2) a bs)

/-- A write whose outcome nobody waits for (tables, rings and entries that the device keeps for itself). -/
def Dev.store (d : Dev) (a : Nat) (bs : Bytes) : Dev := (d.memWrite a bs).1

/-- An 8 B value at an address, ignoring the check bits. -/
def Mem.word (m : Mem) (a : Nat) : Nat := leNat (m.bytesAt a 8)

/-! ## Partitions' memory (R101, R509) -/

/-- Whether fixed range n is enabled and holds a frame of a space. -/
def Dev.rangeHas (d : Dev) (space frame n : Nat) : Bool :=
  let v := d.reg (SEC_RANGE + 8 * n)
  fld v 0 1 == 1 && fld v 1 1 == space - 1 && fld v 6 19 ≤ frame && frame < fld v 6 19 + fld v 25 19

/-- Whether a frame holds a copy kept for the partner. -/
def Dev.isMirrorFrame (d : Dev) (h : Nat × Nat) : Bool :=
  match Tab.find? d.ver.regions h.1 with
  | some r => (Tab.find? r.copies h.2).any (·.mirror)
  | none => false

/-- The partition whose memory a frame is: a fixed range (R509) or a frame of a working copy (R355), unless it is kept for the partner
(R416). -/
def Dev.framePart (d : Dev) (space frame : Nat) : Option Nat :=
  match Tab.find? d.ver.frames ((space - 1) * 2 ^ 20 + frame) with
  | some h => if d.isMirrorFrame h then none else (Tab.find? d.ver.regions h.1).map (·.part)
  | none => ((List.range 64).find? (d.rangeHas space frame)).map (fun n => fld (d.reg (SEC_RANGE + 8 * n)) 2 4)

/-- The frames that n bytes from an offset touch. -/
def framesOf (off n : Nat) : List Nat :=
  if n = 0 then [] else (List.range ((off + n - 1) / 2 ^ 21 + 1 - off / 2 ^ 21)).map (· + off / 2 ^ 21)

/-- Whether every byte lies in a partition's memory. -/
def Dev.owns (d : Dev) (p a n : Nat) : Bool :=
  (framesOf (offOf a) n).all (fun f => d.framePart (spaceOf a) f == some p)

/-- Whether some byte lies in the prompt book (R486). [DEDUCED: log 131] -/
def inPromptBook (a n : Nat) : Bool := spaceOf a == 1 && 0x77F000000 < offOf a + n && offOf a < nearSize

/-- Whether an address lies in fixed space: no frame of a pool range (R354). -/
def Dev.inFixed (d : Dev) (a n : Nat) : Bool :=
  let v := d.reg (if spaceOf a = 1 then VER_POOL_N else VER_POOL_S)
  let first := if spaceOf a = 1 then fld v 0 14 else fld v 0 19
  let cnt := if spaceOf a = 1 then fld v 14 14 else fld v 19 19
  (framesOf (offOf a) n).all (fun f => f < first || first + cnt ≤ f)

/-- Whether partition p is in confidential mode. -/
def Dev.isConf (d : Dev) (p : Nat) : Bool := bitAt d.sec.conf.toNat p

/-- TBASE as a partition may see it (R514): t - (t mod 250) in confidential mode. [DEDUCED: log 18] -/
def Dev.seenTime (d : Dev) (p t : Nat) : Nat := if d.isConf p then t - t % 250 else t

/-- Whether a frame belongs to a MIRRORED region (R352). -/
def Dev.isMirrored (d : Dev) (a : Nat) : Bool :=
  match d.frameHolder a with
  | some h => ((Tab.find? d.ver.regions h.1).map (·.mirrored)).getD false && !d.isMirrorFrame h
  | none => false

/-- The extent record of a POOL address, if its index is listed (R368). -/
def Dev.extentAt (d : Dev) (a : Nat) : Option Extent := Tab.find? d.ver.extents (offOf a / 2 ^ 21)

/-- Whether n bytes of POOL lie in extents that partition p holds, and below LEN of the version (R99, R369). -/
def Dev.poolHeld (d : Dev) (p a n : Nat) : Bool :=
  offOf a + n ≤ 2 ^ 50 &&
  (framesOf (offOf a) n).all (fun i =>
    match Tab.find? d.ver.extents i with
    | some e =>
      e.part == p && (match Tab.find? d.ver.versions (e.region * 2 ^ 32 + e.version) with
        | some v => v.state != .sealing && min (offOf a + n) ((i + 1) * 2 ^ 21) ≤ v.base * 2 ^ 21 + v.len
        | none => true)
    | none => false)

/-- Whether every extent that n bytes touch is LIVE (R369). [DEDUCED: log 70] -/
def Dev.poolLive (d : Dev) (a n : Nat) : Bool :=
  (framesOf (offOf a) n).all (fun i => (Tab.find? d.ver.extents i).any (fun e => e.state == .live))

/-- Whether n bytes of HOST lie within one enabled range granted to partition p (R538). -/
def Dev.hostGranted (d : Dev) (p a n : Nat) : Bool :=
  offOf a + n ≤ 2 ^ 52 &&
  (List.range 16).any (fun i =>
    let lo := d.reg (CXL_HRNG_LO + 16 * i)
    let hi := d.reg (CXL_HRNG_HI + 16 * i)
    fld lo 0 1 == 1 && bitAt (fld hi 40 16) p && fld lo 12 40 * 4096 ≤ offOf a &&
      offOf a + n ≤ fld lo 12 40 * 4096 + fld hi 0 40 * 4096)

/-- The checks of R99 to R101 on an access of partition p by an agent or a descriptor: in NEAR and STRATUM the range and then the rights; POOL and
HOST are read-only, and LOCAL and CSR out of reach, whatever the range. [DESIGN CHOICE: log 188] -/
def Dev.checkAccess (d : Dev) (p a n : Nat) (write : Bool) : Status :=
  match spaceOf a with
  | 1 => if !inMem a n then .badRequest else if inPromptBook a n || !d.owns p a n then .access else .ok
  | 2 => if !inMem a n then .badRequest else if !d.owns p a n then .access else .ok
  | 3 => if write then .access else if !d.poolHeld p a n then .badRequest else .ok
  | 4 => if write then .access else if !d.hostGranted p a n then .badRequest else .ok
  | 0 => .access
  | 8 => .access
  | _ => .badRequest

/-! ## LOCAL (R69, R71) -/

def localSize : Nat := 2 ^ 18

/-- n bytes of a LOCAL scratch. -/
def locRead (t : List Host.Cell) (a : Nat) : Nat → Bytes
  | 0 => []
  | n + 1 => Tab.get 0 t a :: locRead t (a + 1) n

/-! ## Status codes (R12) -/

def statusCode : Status → Nat
  | .ok => 0 | .poison => 1 | .timeout => 2 | .revoked => 3 | .versionConflict => 4 | .notOwner => 5 | .aborted => 6
  | .fenceIncomplete => 7 | .quota => 8 | .limit => 9 | .retryFromStart => 0xA | .access => 0xB | .badRequest => 0xC | .busy => 0xD

/-- The status of a code; codes 0x0E to 0xFF are reserved and mean a failure with no data (R15). [DESIGN CHOICE: log 154] -/
def statusOf (c : Nat) : Option Status :=
  match c with
  | 0 => some .ok | 1 => some .poison | 2 => some .timeout | 3 => some .revoked | 4 => some .versionConflict | 5 => some .notOwner
  | 6 => some .aborted | 7 => some .fenceIncomplete | 8 => some .quota | 9 => some .limit | 0xA => some .retryFromStart
  | 0xB => some .access | 0xC => some .badRequest | 0xD => some .busy | _ => none

/-! ## Links -/

def Link.reset : Link :=
  { state := .down, fail := 0, laneFail := false, peerDev := 0, peerKind := 0, peerInst := 0, known := none,
    tags := 0x1800, failCue := 0, enteredCue := 0, lastFlit := 0, chans := [], txTail := [], txPairs := 0, txRot := 0, rx := [], cwBadWin := 0, bNear := 0 }

/-- A link's record. -/
def Dev.link (d : Dev) (k : Nat) : Link := Tab.get Link.reset d.links k

def Dev.setLink (d : Dev) (k : Nat) (l : Link) : Dev := { d with links := Tab.set Link.reset d.links k l }

/-- ROLE of a link: 0 none, 1 ACC, 2 TRAY, 3 PEER, 4 PAIR. -/
def Dev.role (d : Dev) (k : Nat) : Nat := d.regFld (GL_LINK_CFG + 8 * k) 1 3

def Dev.isUp (d : Dev) (k : Nat) : Bool := (d.link k).state == .up

def Chan.reset : Chan :=
  { rxSeq := 0, partialMsg := [], partFlits := 0, rxFreed := 0, granted := 0, txSeq := 0, txAck := 0, txGrant := 0, txSlots := [] }

/-- A channel of a link: 0 TXN, 1 REQ, 2 SNP, 3 RSP, 4 GNT. -/
def Dev.chan (d : Dev) (k ch : Nat) : Chan := Tab.get Chan.reset (d.link k).chans ch

def Dev.setChan (d : Dev) (k ch : Nat) (c : Chan) : Dev := d.setLink k { d.link k with chans := Tab.set Chan.reset (d.link k).chans ch c }

/-- The message of a channel that was reassembled first and still waits: channel, flits whose credit it holds, bytes. -/
def Dev.frontRx (d : Dev) (k ch : Nat) : Option (Nat × Nat × Bytes) := (d.link k).rx.find? (fun m => m.1 == ch)

/-- Returns the credit of n flits of a channel (R525). -/
def Dev.freeFlits (d : Dev) (k ch n : Nat) : Dev :=
  if n = 0 then d else d.setChan k ch { d.chan k ch with rxFreed := (d.chan k ch).rxFreed + n }

/-- The message of a channel that waited longest is taken from its buffer; how many flits' credit it goes on holding. Without one, nothing. -/
def Dev.holdRx (d : Dev) (k ch : Nat) : Dev × Nat :=
  match d.frontRx k ch with
  | none => (d, 0)
  | some m => (d.setLink k { d.link k with rx := (d.link k).rx.erase m }, m.2.1)

/-- The same, and the flits that the message held are freed at once. -/
def Dev.takeRx (d : Dev) (k ch : Nat) : Dev :=
  let x := d.holdRx k ch
  x.1.freeFlits k ch x.2

/-- Links that are up and have a role. -/
def Dev.upLinks (d : Dev) (role : Nat) : List Nat := (List.range 36).filter (fun k => d.isUp k && d.role k == role)

/-- The partition that a stream of a link is mapped to (R510). -/
def Dev.streamPart (d : Dev) (k stream : Nat) : Option Nat :=
  let v := fld (d.reg (SEC_STRM + 256 * k + 8 * (stream / 8))) (8 * (stream % 8)) 8
  if fld v 4 1 = 1 then some (fld v 0 4) else none

/-- Links with a stream of a partition. -/
def Dev.linkCarries (d : Dev) (k p : Nat) : Bool := (List.range 256).any (fun s => d.streamPart k s == some p)

/-- GL_DEV_ID. -/
def Dev.devId (d : Dev) : Nat := d.regFld GL_DEV_ID 0 12

end Sys2Proof.Machine
end

