-- ==== Sys2Proof/Machine/Operands.lean ====
section
/-! DEFINITION. The registers of a Thorum context and the operands that instructions name: g, p and d registers, immediates,
LOCAL addresses (R67, R69, R70, R561, R564). -/

namespace Sys2Proof.Machine

/-- A context that has never run: FREE, with cleared registers and LOCAL. [DESIGN CHOICE: log 11] -/
def Ctx.reset : Ctx :=
  { run := .free, part := 0, code := 0, pc := 0, g := [], p := 0, d := [], loc := [], tickets := [], gens := [], issued := 0, events := 0, msgq := [],
    req := none, startCue := 0, budget := 0, outst := [], pendErr := none, idleCues := 0, wdogFired := false }

/-- Key of a context: tile × 256 + core × 16 + context, which is also its tag at the home (R155). -/
def ctxKey (c : CtxId) : Nat := c.tile * 256 + c.core * 16 + c.ctx

/-- A name of a context that exists (R64). -/
def ctxExists (c : CtxId) : Bool := c.tile < 12 && c.core < 16 && c.ctx < 16

def Dev.ctx (d : Dev) (c : CtxId) : Ctx := Tab.get Ctx.reset d.thr.ctxs (ctxKey c)

def Dev.setCtx (d : Dev) (c : CtxId) (x : Ctx) : Dev := { d with thr := { d.thr with ctxs := Tab.set Ctx.reset d.thr.ctxs (ctxKey c) x } }

/-- The partition that owns a context, if any. -/
def Dev.ctxPart (d : Dev) (c : CtxId) : Option Nat :=
  match Tab.get 0 d.thr.owner (ctxKey c) with
  | 0 => none
  | n + 1 => some n

/-! ## Registers -/

/-- g register r; g0 reads as 0 (R67). -/
def Ctx.gr (x : Ctx) (r : Nat) : Word := if r = 0 then 0 else Tab.get 0 x.g r

/-- Writes g register r; a write to g0 is discarded (R67). -/
def Ctx.setG (x : Ctx) (r : Nat) (v : Word) : Ctx := if r = 0 then x else { x with g := Tab.set 0 x.g r v }

/-- Predicate register r (R67). -/
def Ctx.pr (x : Ctx) (r : Nat) : Bool := pGet x.p r

def Ctx.setP (x : Ctx) (r : Nat) (v : Bool) : Ctx := { x with p := pSet x.p r v }

/-- Descriptor register r. -/
def Ctx.dr (x : Ctx) (r : Nat) : Desc := Tab.get 0 x.d r

def Ctx.setD (x : Ctx) (r : Nat) (v : Desc) : Ctx := { x with d := Tab.set 0 x.d r v }

/-- The 64 B of a descriptor, lowest first (R10). -/
def descBytes (v : Desc) : Bytes := leBytes 64 v.toNat

/-- Field [lo + w - 1 : lo] of a descriptor. -/
def dfld (v : Desc) (lo w : Nat) : Nat := fld v.toNat lo w

/-! ## Immediates -/

def sext14 (i : BitVec 14) : Word := i.signExtend 64
def zext14 (i : BitVec 14) : Word := i.zeroExtend 64
def sext20 (i : BitVec 20) : Word := i.signExtend 64

/-- The target of a branch: off20 counted in instructions from the branch's own PC (R561). -/
def branchTo (pc : Nat) (off : BitVec 20) : Nat := (BitVec.ofNat 64 pc + sext20 off).toNat

/-! ## LOCAL operands (R69, R70) -/

/-- The address of a MEM-format operand: imm14 is unsigned and counted in units of the access size. -/
def memAddr (x : Ctx) (f : ImmF) (size : Nat) : Word := x.gr f.ra.toNat + BitVec.ofNat 64 (f.imm.toNat * size)

/-- Whether a LOCAL access of a size raises BAD_LOCAL: misaligned, or a bit of [63:18] set (R70). -/
def badLocal (a : Word) (size : Nat) : Bool := a.toNat % size != 0 || localSize ≤ a.toNat

/-- Whether a LOCAL offset lies in the bundle-image range (R69). -/
def inImages (off : Nat) : Bool := 0x30000 ≤ off && off < localSize

/-- n bytes of the context's LOCAL. -/
def Ctx.local (x : Ctx) (off n : Nat) : Bytes := locRead x.loc off n

/-- Stores bytes into the context's LOCAL. -/
def Ctx.setLocal (x : Ctx) (off : Nat) (bs : Bytes) : Ctx := { x with loc := putBytes x.loc off bs }

/-! ## Engine and queue names -/

def engKey (e : EngId) : Nat := e.tile * 128 + e.cls * 16 + e.inst
def engQKey (e : EngId) (p : Nat) : Nat := engKey e * 16 + p

/-- The engine that a context key of the queue table names. -/
def engOfKey (k : Nat) : EngId := { tile := k / 128, cls := k % 128 / 16, inst := k % 16 }

/-- Number of instances of an engine class on a tile (R78); reserved classes have none. -/
def engInstances (cls : Nat) : Nat :=
  match cls with
  | 0 => 4 | 1 => 4 | 2 => 4 | 3 => 2 | 4 => 1 | 5 => 16 | _ => 0

end Sys2Proof.Machine
end

