-- ==== Sys2Proof/Machine/Slots.lean ====
section
/-! DEFINITION. The slots of scheduled resources (R39 to R45, R65, R553): which slots carry foreground work, the calendar, what a
foreground slot is used for, and the slots that work takes from the cue in progress. -/

namespace Sys2Proof.Machine

/-! ## Slots (R39, R553) -/

/-- Slot k of a resource is a wings slot. -/
def wingsOf (k : Nat) : Bool := k % 16 == 15

/-- The slot index of a resource at an ACLK since reset release. -/
def Tb.slot (t : Tb) (aclk : Nat) : Nat := aclk - t.slot0

/-- The number of a foreground slot, counting foreground slots only. -/
def foreground (k : Nat) : Nat := k - k / 16

/-- The duty as slots of 16 (R553): 15 leaves every foreground slot usable. -/
def dutySlots (duty : Nat) : Nat := min 15 duty

/-- Slot k of a gated resource may carry foreground work under a duty (R40, R553). [DESIGN CHOICE: log 142] -/
def usableSlot (duty k : Nat) : Bool := k % 16 < dutySlots duty

/-- How many of the slots below k are usable under a duty. -/
def usableBelow (duty k : Nat) : Nat := k / 16 * dutySlots duty + min (k % 16) (dutySlots duty)

/-- The calendar index f of slot k of a gated resource: unusable slots do not advance it, and a duty counts from the slot at which it came
into force (R553). [DESIGN CHOICE: log 142] -/
def Dev.slotNumber (d : Dev) (k : Nat) : Nat := d.cue.fBase + usableBelow d.pwr.duty k - usableBelow d.pwr.duty d.cue.fAt

/-! ## The calendar and the use of slots (R43 to R45) -/

def Dev.share (d : Dev) (p : Nat) : Nat := Tab.get 0 d.cue.shares p

/-- seq of R44: share[p] entries of each partition, then FREE. -/
def shareSeq (share : Nat → Nat) : List (Option Nat) := (List.range 16).flatMap (fun p => List.replicate (share p) (some p))

/-- Entry j of the calendar. [DESIGN CHOICE: log 150] -/
def calEntry (share : Nat → Nat) (j : Nat) : Option Nat := ((shareSeq share).getD (bitrev6 (j % 64)) none)

/-- The calendar. -/
def calendar (share : Nat → Nat) : List (Option Nat) := (List.range 64).map (calEntry share)

/-- The partitions in search order from one on. -/
def fromPart (q : Nat) : List Nat := (List.range 16).map (fun i => (q + i) % 16)

/-- Foreground slot f of resource res, where pending partitions have work: the user, if any, and the search pointer afterwards.
[DESIGN CHOICE: log 150] -/
def Dev.useSlot (d : Dev) (res f : Nat) (pending : Nat → Bool) : Dev × Option Nat :=
  let lend := match (fromPart (Tab.get 0 d.cue.ptr res)).find? (fun q => !d.isConf q && pending q) with
    | some q => (({ d with cue := { d.cue with ptr := Tab.set 0 d.cue.ptr res ((q + 1) % 16) } } : Dev), some q)
    | none => (d, none)
  match calEntry d.share f with
  | some o => if pending o then (d, some o) else if d.isConf o then (d, none) else lend
  | none => lend

/-! ## Slots of the cue in progress (R37, R65, R575) -/

/-- Slots that were given to a partition on a resource in this cue, and that its work has not used yet. -/
def Dev.slotCredit (d : Dev) (res p : Nat) : Nat := Tab.get 0 d.cue.credit (res * 16 + p)

def Dev.setCredit (d : Dev) (res p n : Nat) : Dev :=
  { d with cue := { d.cue with credit := Tab.set 0 d.cue.credit (res * 16 + p) n } }

/-- One more slot of a gated resource has gone by. -/
def Dev.passSlot (d : Dev) (res : Nat) : Dev :=
  { d with cue := { d.cue with gone := Tab.set 0 d.cue.gone res (Tab.get 0 d.cue.gone res + 1) } }

/-- The next slot of a gated resource in this cue goes by: a usable one to the partition that R45 names, if any. -/
def Dev.nextSlot (d : Dev) (res : Nat) (pending : Nat → Bool) : Dev :=
  let k := d.tb.slot d.tb.aclk + Tab.get 0 d.cue.gone res
  let d := d.passSlot res
  if usableSlot d.pwr.duty k then
    let x := d.useSlot res (d.slotNumber k) pending
    match x.2 with
    | some q => x.1.setCredit res q (x.1.slotCredit res q + 1)
    | none => x.1
  else d

/-- Partition p takes need slots of a gated resource: slots go by until it has been given as many. None: too few are left in the cue; the
number bounds the slots that may go by. [DESIGN CHOICE: log 193] -/
def takeSlots (res : Nat) (pending : Nat → Bool) (p need : Nat) : Nat → Dev → Option Dev
  | 0, d => if need ≤ d.slotCredit res p then some (d.setCredit res p (d.slotCredit res p - need)) else none
  | n + 1, d =>
    if need ≤ d.slotCredit res p then some (d.setCredit res p (d.slotCredit res p - need))
    else takeSlots res pending p need n (d.nextSlot res pending)

/-- The slots that a resource still has in this cue. -/
def Dev.slotsLeft (d : Dev) (res : Nat) : Nat := d.tb.cueLen - Tab.get 0 d.cue.gone res

/-- The calendar indices of R553 are kept where the duty changes, at the present cue's first slot. [DESIGN CHOICE: log 142] -/
def Dev.rebaseSlots (d : Dev) : Dev :=
  let k := d.tb.slot d.tb.aclk
  { d with cue := { d.cue with fBase := d.slotNumber k, fAt := k } }

/-- A boundary: what is left of the cue's slots is gone. -/
def Dev.freshSlots (d : Dev) : Dev := { d with cue := { d.cue with gone := [], credit := [] } }

end Sys2Proof.Machine
end

