-- ==== Sys2Proof/Machine/Crypto.lean ====
section
/-! DEFINITION. The checks and ciphers that the manual names: the CRC of R282, arithmetic in GF(2^8), and, from the public standards
that it refers to, SHA-256 (FIPS 180-4), HMAC (FIPS 198-1), AES-256 (FIPS 197), XTS (IEEE 1619) and the tag of GCM (SP 800-38D).
The standards' content is PRESUMED: the manual names them and does not repeat them. -/

namespace Sys2Proof.Machine

/-! ## CRC (R282) -/

/-- Reflects the low w bits. -/
def reflect (w v : Nat) : Nat := (List.range w).foldl (fun acc i => if bitAt v i then acc + 2 ^ (w - 1 - i) else acc) 0

/-- One bit step of R282. -/
def crcStep (width poly crc : Nat) : Nat :=
  if bitAt crc (width - 1) then ((crc * 2) ^^^ poly) % 2 ^ width else crc * 2 % 2 ^ width

/-- Eight bit steps. -/
def crcByte (width poly : Nat) (refin : Bool) (crc : Nat) (b : Byte) : Nat :=
  let x := if refin then reflect 8 b.toNat else b.toNat
  (List.range 8).foldl (fun c _ => crcStep width poly c) (crc ^^^ x * 2 ^ (width - 8))

/-- The CRC of a byte sequence (R282). -/
def crcOf (width poly init xorout : Nat) (refin refout : Bool) (bs : Bytes) : Nat :=
  let c := bs.foldl (crcByte width poly refin) init
  (if refout then reflect width c else c) ^^^ xorout

/-- CRC-64/XZ. -/
def crc64xz (bs : Bytes) : Nat := crcOf 64 0x42F0E1EBA9EA3693 (2 ^ 64 - 1) (2 ^ 64 - 1) true true bs

/-- CRC-32C. -/
def crc32c (bs : Bytes) : Nat := crcOf 32 0x1EDC6F41 0xFFFFFFFF 0xFFFFFFFF true true bs

/-! ## GF(2^8) -/

/-- Doubling modulo a polynomial of degree 8. -/
def gfDouble (poly a : Nat) : Nat := if 128 ≤ a then (a * 2) ^^^ poly else a * 2

/-- Product modulo a polynomial of degree 8; the first number counts bits. -/
def gfMulAux (poly : Nat) : Nat → Nat → Nat → Nat
  | 0, _, _ => 0
  | n + 1, a, b => (if b % 2 = 1 then a else 0) ^^^ gfMulAux poly n (gfDouble poly a) (b / 2)

def gfMul (poly a b : Nat) : Nat := gfMulAux poly 8 a b

def gfPow (poly a : Nat) : Nat → Nat
  | 0 => 1
  | n + 1 => gfMul poly a (gfPow poly a n)

/-- The inverse, a^254; 0 for 0. -/
def gfInv (poly a : Nat) : Nat := gfPow poly a 254

/-! ## SHA-256 and HMAC -/

/-- The largest r below 2^b with r^k at most n, found bit by bit upward from acc. -/
def rootBits (k n : Nat) : Nat → Nat → Nat
  | 0, acc => acc
  | b + 1, acc => rootBits k n b (if (acc + 2 ^ b) ^ k ≤ n then acc + 2 ^ b else acc)

/-- The first 32 bits of the fraction of the k-th root of a prime below 512, as FIPS 180-4 fixes its constants. -/
def rootFraction (k p : Nat) : BitVec 32 := BitVec.ofNat 32 (rootBits k (p * 2 ^ (32 * k)) 37 0)

/-- No number from 2 up to n divides p. -/
def noDivisor (p : Nat) : Nat → Bool
  | 0 => true
  | n + 1 => (n + 1 == 1 || p % (n + 1) != 0) && noDivisor p n

/-- The first 64 primes; the last is 311. -/
def shaPrimes : List Nat := (List.range 312).filter (fun p => decide (2 ≤ p) && noDivisor p (min 17 (p - 1)))

/-- The constants of the 64 rounds. -/
def shaK : List (BitVec 32) := shaPrimes.map (rootFraction 3)

/-- The hash value that a message starts from. -/
def shaInit : List (BitVec 32) := (shaPrimes.take 8).map (rootFraction 2)

/-- The message schedule, newest word first; 48 words are added to the 16 of the block. -/
def shaSched : Nat → List (BitVec 32) → List (BitVec 32)
  | 0, w => w
  | n + 1, w =>
    let a := w.getD 14 0
    let b := w.getD 1 0
    let s0 := (a.rotateRight 7) ^^^ (a.rotateRight 18) ^^^ (a >>> 3)
    let s1 := (b.rotateRight 17) ^^^ (b.rotateRight 19) ^^^ (b >>> 10)
    shaSched n ((w.getD 15 0 + s0 + w.getD 6 0 + s1) :: w)

/-- One round. -/
def shaRound (v : List (BitVec 32)) (kw : BitVec 32) : List (BitVec 32) :=
  let a := v.getD 0 0
  let b := v.getD 1 0
  let c := v.getD 2 0
  let e := v.getD 4 0
  let f := v.getD 5 0
  let g := v.getD 6 0
  let s1 := (e.rotateRight 6) ^^^ (e.rotateRight 11) ^^^ (e.rotateRight 25)
  let ch := (e &&& f) ^^^ (~~~e &&& g)
  let t1 := v.getD 7 0 + s1 + ch + kw
  let s0 := (a.rotateRight 2) ^^^ (a.rotateRight 13) ^^^ (a.rotateRight 22)
  let maj := (a &&& b) ^^^ (a &&& c) ^^^ (b &&& c)
  [t1 + s0 + maj, a, b, c, v.getD 3 0 + t1, e, f, g]

def shaBlock (h : List (BitVec 32)) (blk : Bytes) : List (BitVec 32) :=
  let w := ((List.range 16).map (fun i => BitVec.ofNat 32 (beNat (slice blk (4 * i) 4)))).reverse
  let ws := (shaSched 48 w).reverse
  let v := (List.zipWith (· + ·) shaK ws).foldl shaRound h
  List.zipWith (· + ·) h v

/-- Folds the 64 B blocks of a padded message; the number counts blocks. -/
def shaBlocks : Nat → List (BitVec 32) → Bytes → List (BitVec 32)
  | 0, h, _ => h
  | n + 1, h, bs => shaBlocks n (shaBlock h (bs.take 64)) (bs.drop 64)

/-- [PRESUMED: log 8] -/
def sha256 (m : Bytes) : Bytes :=
  let pad := m ++ 0x80 :: zeros ((119 - m.length % 64) % 64) ++ beBytes 8 (m.length * 8)
  (shaBlocks (pad.length / 64) shaInit pad).flatMap (fun w => beBytes 4 w.toNat)

/-- [PRESUMED: log 8] -/
def hmac256 (key m : Bytes) : Bytes :=
  let k := slice (if key.length ≤ 64 then key else sha256 key) 0 64
  sha256 (k.map (· ^^^ 0x5c) ++ sha256 (k.map (· ^^^ 0x36) ++ m))

/-- Bytes of an ASCII label. -/
def ascii (s : String) : Bytes := s.toList.map (fun c => BitVec.ofNat 8 c.toNat)

/-! ## AES-256 -/

def rotl8 (a n : Nat) : Nat := (a * 2 ^ n) % 256 + a / 2 ^ (8 - n)

/-- The S-box: inverse in GF(2^8) modulo 0x11B, then the affine map. -/
def sbox (a : Nat) : Nat :=
  let b := gfInv 0x11B a
  ((((b ^^^ rotl8 b 1) ^^^ rotl8 b 2) ^^^ rotl8 b 3) ^^^ rotl8 b 4) ^^^ 0x63

/-- The inverse S-box. -/
def sboxInv (a : Nat) : Nat := gfInv 0x11B (((rotl8 a 1 ^^^ rotl8 a 3) ^^^ rotl8 a 6) ^^^ 0x05)

def xorL (a b : List Nat) : List Nat := List.zipWith (· ^^^ ·) a b

/-- The key schedule, newest word first. -/
def aesExpand : Nat → Nat → List (List Nat) → List (List Nat)
  | 0, _, w => w
  | n + 1, i, w =>
    let t := w.getD 0 []
    let t := if i % 8 = 0 then xorL ((t.drop 1 ++ t.take 1).map sbox) [gfPow 0x11B 2 (i / 8 - 1), 0, 0, 0]
             else if i % 8 = 4 then t.map sbox else t
    aesExpand n (i + 1) (xorL (w.getD 7 []) t :: w)

/-- The 15 round keys of a 32 B key. -/
def aesKeys (key : Bytes) : List (List Nat) :=
  let k := key.map (fun b => b.toNat)
  let w := ((List.range 8).map (fun i => (k.drop (4 * i)).take 4)).reverse
  let ws := (aesExpand 52 8 w).reverse
  (List.range 15).map (fun r => ((ws.drop (4 * r)).take 4).flatten)

def shiftRows (s : List Nat) : List Nat := (List.range 16).map (fun i => s.getD ((i + 4 * (i % 4)) % 16) 0)
def shiftRowsInv (s : List Nat) : List Nat := (List.range 16).map (fun i => s.getD ((i + 12 * (i % 4)) % 16) 0)

def mixCol (m : List Nat) (s : List Nat) : List Nat :=
  (List.range 16).map (fun i =>
    (List.range 4).foldl (fun acc k => acc ^^^ gfMul 0x11B (m.getD ((k + 4 - i % 4) % 4) 0) (s.getD (i / 4 * 4 + k) 0)) 0)

/-- [PRESUMED: log 8] -/
def aesEnc (ks : List (List Nat)) (blk : Bytes) : Bytes :=
  let s := xorL (blk.map (fun b => b.toNat)) (ks.getD 0 [])
  let s := (List.range 13).foldl (fun s r => xorL (mixCol [2, 3, 1, 1] (shiftRows (s.map sbox))) (ks.getD (r + 1) [])) s
  (xorL (shiftRows (s.map sbox)) (ks.getD 14 [])).map (BitVec.ofNat 8)

def aesDec (ks : List (List Nat)) (blk : Bytes) : Bytes :=
  let s := (shiftRowsInv (xorL (blk.map (fun b => b.toNat)) (ks.getD 14 []))).map sboxInv
  let s := (List.range 13).foldl (fun s r => (shiftRowsInv (mixCol [14, 11, 13, 9] (xorL s (ks.getD (13 - r) [])))).map sboxInv) s
  (xorL s (ks.getD 0 [])).map (BitVec.ofNat 8)

/-! ## XTS -/

/-- The next tweak: multiplication by x in GF(2^128), little-endian. -/
def xtsNext (t : Bytes) : Bytes :=
  let v := leNat t * 2
  leBytes 16 ((v % 2 ^ 128) ^^^ (if 2 ^ 128 ≤ v then 0x87 else 0))

/-- XTS over whole 16 B blocks; the number counts blocks. -/
def xtsRun (f : Bytes → Bytes) : Nat → Bytes → Bytes → Bytes
  | 0, _, _ => []
  | n + 1, t, bs => xorBytes (f (xorBytes (bs.take 16) t)) t ++ xtsRun f n (xtsNext t) (bs.drop 16)

/-- [PRESUMED: log 8] -/
def xtsEnc (k1 k2 tweak bs : Bytes) : Bytes := xtsRun (aesEnc (aesKeys k1)) (bs.length / 16) (aesEnc (aesKeys k2) tweak) bs
def xtsDec (k1 k2 tweak bs : Bytes) : Bytes := xtsRun (aesDec (aesKeys k1)) (bs.length / 16) (aesEnc (aesKeys k2) tweak) bs

/-! ## GCM -/

/-- Product in the field of GHASH (big-endian, bit-reflected); the first number counts bits. -/
def ghMul : Nat → Nat → Nat → Nat → Nat
  | 0, _, _, z => z
  | n + 1, x, v, z =>
    ghMul n x (if v % 2 = 1 then (v / 2) ^^^ (0xe1 * 2 ^ 120) else v / 2) (if bitAt x n then z ^^^ v else z)

/-- GHASH over bytes padded to 16 B; the number counts blocks. -/
def ghashRun (h : Nat) : Nat → Nat → Bytes → Nat
  | 0, y, _ => y
  | n + 1, y, bs => ghashRun h n (ghMul 128 (y ^^^ beNat (slice bs 0 16)) h 0) (bs.drop 16)

def ghash (h : Nat) (bs : Bytes) : Nat := ghashRun h (ceilDiv bs.length 16) 0 bs

def pad16 (bs : Bytes) : Bytes := bs ++ zeros ((16 - bs.length % 16) % 16)

/-- J0 of an IV: 96-bit IVs with a counter of 1, others by GHASH. -/
def gcmJ0 (h : Nat) (iv : Bytes) : Bytes :=
  if iv.length = 12 then iv ++ [0, 0, 0, 1]
  else beBytes 16 (ghash h (pad16 iv ++ zeros 8 ++ beBytes 8 (iv.length * 8)))

/-- The 16 B tag. -/
def gcmTag (key iv aad ct : Bytes) : Bytes :=
  let ks := aesKeys key
  let h := beNat (aesEnc ks (zeros 16))
  let s := ghash h (pad16 aad ++ pad16 ct ++ beBytes 8 (aad.length * 8) ++ beBytes 8 (ct.length * 8))
  xorBytes (aesEnc ks (gcmJ0 h iv)) (beBytes 16 s)

/-- The counter block i after J0. -/
def gcmCtr (j0 : Bytes) (i : Nat) : Bytes := j0.take 12 ++ beBytes 4 ((beNat (j0.drop 12) + i) % 2 ^ 32)

/-- Counter mode; the number counts blocks. -/
def gcmCrypt (key iv bs : Bytes) : Bytes :=
  let ks := aesKeys key
  let j0 := gcmJ0 (beNat (aesEnc ks (zeros 16))) iv
  (List.range (ceilDiv bs.length 16)).flatMap (fun i => xorBytes ((bs.drop (16 * i)).take 16) (aesEnc ks (gcmCtr j0 (i + 1))))

end Sys2Proof.Machine
end

