-- ==== Sys2Proof/Machine/Packets.lean ====
section
/-! DEFINITION. The wire formats: header words, extensions and payloads of transactions (R135, R136), the routing extension (R160),
coherence messages (R180) and PAIR frames (R417), each composed into bytes and read from bytes. -/

namespace Sys2Proof.Machine

/-! ## Header word 0 (R135) -/

/-- Word 0 from its fields; flag is RTX of a request and COMPL of an answer. -/
def headWord (typ tag stream rseq tc cong flag len opx : Nat) : Nat :=
  typ % 2 ^ 4 + tag % 2 ^ 13 * 2 ^ 4 + stream % 2 ^ 8 * 2 ^ 17 + rseq % 2 ^ 16 * 2 ^ 25 + tc % 2 ^ 3 * 2 ^ 41 + cong % 2 * 2 ^ 44 +
    flag % 2 * 2 ^ 45 + len % 2 ^ 13 * 2 ^ 46 + opx % 2 ^ 5 * 2 ^ 59

/-! ## The routing extension (R160) -/

def routeBytes (r : Route) : Bytes :=
  leBytes 8 (r.dstDev.toNat + r.srcDev.toNat * 2 ^ 12 + r.dstPart.toNat * 2 ^ 24 + r.dstTile.toNat * 2 ^ 28 + r.dstCore.toNat * 2 ^ 32 +
    r.dstCtx.toNat * 2 ^ 36 + r.hops.toNat * 2 ^ 40) ++ leBytes 8 r.notify.toNat

/-- The extension at a position of a message. -/
def routeAt (bs : Bytes) (pos : Nat) : Route :=
  let w := leAt bs pos 8
  { dstDev := BitVec.ofNat 12 (fld w 0 12), srcDev := BitVec.ofNat 12 (fld w 12 12), dstPart := BitVec.ofNat 4 (fld w 24 4),
    dstTile := BitVec.ofNat 4 (fld w 28 4), dstCore := BitVec.ofNat 4 (fld w 32 4), dstCtx := BitVec.ofNat 4 (fld w 36 4),
    hops := BitVec.ofNat 3 (fld w 40 3), notify := BitVec.ofNat 64 (leAt bs (pos + 8) 8) }

/-! ## Requests and MSG (R136) -/

/-- Word 1 of a transaction. -/
def txnWord1 (typ : Nat) (t : Txn) : Nat := if typ = 4 then t.opcode.toNat + t.nops.toNat * 2 ^ 16 else t.addr.toNat

/-- What follows the header before the payload. -/
def txnExt (typ : Nat) (t : Txn) : Bytes :=
  match typ with
  | 2 => leBytes 8 t.flagAddr.toNat ++ leBytes 8 t.flagVal.toNat ++ leBytes 2 t.priorCnt.toNat ++ leBytes 2 t.prevRseq.toNat ++
      leBytes 1 (b2n t.prevV) ++ zeros 3
  | 4 => (t.ops.take t.nops.toNat).flatMap (fun a => leBytes 8 a.toNat)
  | 5 => routeBytes t.route
  | _ => []

/-- The bytes of a transaction of TYPE typ; a RD has no payload. -/
def txnImage (typ : Nat) (t : Txn) : Bytes :=
  leBytes 8 (headWord typ t.tag.toNat t.stream.toNat t.rseq.toNat t.tc.toNat (b2n t.cong) (b2n t.rtx) t.len.toNat t.opx.toNat) ++
    leBytes 8 (txnWord1 typ t) ++ txnExt typ t ++ (if typ = 0 then [] else slice t.data 0 t.len.toNat)

/-- A transaction with every field 0. -/
def blankTxn : Txn :=
  { tag := 0, stream := 0, rseq := 0, tc := 0, cong := false, rtx := false, len := 0, opx := 0, rsv := false, addr := 0, flagAddr := 0,
    flagVal := 0, priorCnt := 0, prevRseq := 0, prevV := false, opcode := 0, nops := 0, ops := [],
    route := { dstDev := 0, srcDev := 0, dstPart := 0, dstTile := 0, dstCore := 0, dstCtx := 0, hops := 0, notify := 0 }, data := [] }

/-- The fields of header word 0 of a transaction. -/
def txnHead (w : Nat) : Txn :=
  { blankTxn with
    tag := BitVec.ofNat 13 (fld w 4 13), stream := BitVec.ofNat 8 (fld w 17 8), rseq := BitVec.ofNat 16 (fld w 25 16),
    tc := BitVec.ofNat 3 (fld w 41 3), cong := bitAt w 44, rtx := bitAt w 45, len := BitVec.ofNat 13 (fld w 46 13), opx := BitVec.ofNat 5 (fld w 59 5) }

/-- TYPE of the message that bytes spell. -/
def typeAt (bs : Bytes) : Nat := fld (leAt bs 0 8) 0 4

/-- The transaction that bytes spell, by its TYPE; rsv tells a reserved field that is not 0. -/
def txnAt (bs : Bytes) : Txn :=
  let t := txnHead (leAt bs 0 8)
  let w1 := leAt bs 8 8
  let n := t.len.toNat
  match typeAt bs with
  | 0 => { t with addr := BitVec.ofNat 64 w1 }
  | 2 => { t with
      addr := BitVec.ofNat 64 w1, flagAddr := BitVec.ofNat 64 (leAt bs 16 8), flagVal := BitVec.ofNat 64 (leAt bs 24 8)
      priorCnt := BitVec.ofNat 16 (leAt bs 32 2), prevRseq := BitVec.ofNat 16 (leAt bs 34 2), prevV := bitAt (leAt bs 36 1) 0
      rsv := leAt bs 36 4 / 2 != 0, data := slice bs 40 n }
  | 4 =>
    let k := fld w1 16 3
    { t with opcode := BitVec.ofNat 16 w1, nops := BitVec.ofNat 3 k, rsv := w1 / 2 ^ 19 != 0
             ops := (List.range k).map (fun i => BitVec.ofNat 64 (leAt bs (16 + 8 * i) 8)), data := slice bs (16 + 8 * k) n }
  | 5 => { t with addr := BitVec.ofNat 64 w1, route := routeAt bs 16, rsv := leAt bs 16 8 / 2 ^ 43 != 0, data := slice bs 32 n }
  | _ => { t with addr := BitVec.ofNat 64 w1, data := slice bs 16 n }

/-! ## Answers and EVT (R136, R140, R167) -/

/-- The bytes of an ACK or NAK; the COMPL bit of a NAK is always 1. -/
def answerImage (a : Answer) (isNak : Bool) : Bytes :=
  leBytes 8 (headWord (if isNak then 8 else 7) a.tag.toNat a.stream.toNat a.rseq.toNat a.tc.toNat (b2n a.cong) (b2n (a.compl || isNak)) a.data.length 0) ++
    leBytes 8 (a.status.toNat + a.aux.toNat * 2 ^ 8) ++ (match a.route with | some r => routeBytes r | none => []) ++ a.data

/-- The answer that bytes spell; routed says that it answers a MSG. -/
def answerAt (routed : Bool) (bs : Bytes) : Answer :=
  let w := leAt bs 0 8
  { tag := BitVec.ofNat 13 (fld w 4 13), stream := BitVec.ofNat 8 (fld w 17 8), rseq := BitVec.ofNat 16 (fld w 25 16), tc := BitVec.ofNat 3 (fld w 41 3),
    cong := bitAt w 44, compl := bitAt w 45, status := BitVec.ofNat 8 (leAt bs 8 1), aux := BitVec.ofNat 32 (leAt bs 9 4),
    route := if routed then some (routeAt bs 16) else none, data := slice bs (if routed then 32 else 16) (fld w 46 13) }

/-- The bytes of an EVT of class 7: TAG 0, no payload; the fields that no rule gives are 0. -/
def evtImage (code info : Nat) (cong : Bool) : Bytes :=
  leBytes 8 (headWord 6 0 0 0 7 (b2n cong) 0 0 0) ++ leBytes 8 (code % 2 ^ 16 + info % 2 ^ 48 * 2 ^ 16)

/-! ## Coherence messages (R180) -/

/-- The bytes of a coherence message. -/
def cohImage (cmsg : Nat) (m : CohMsg) : Bytes :=
  leBytes 8 (cmsg % 2 ^ 5 + m.id.toNat * 2 ^ 5 + m.rseq.toNat * 2 ^ 18 + m.ca.toNat * 2 ^ 34 + m.way.toNat * 2 ^ 38 + m.htile.toNat * 2 ^ 42 +
    m.newst.toNat * 2 ^ 46 + b2n m.d * 2 ^ 49 + b2n m.rtx * 2 ^ 50 + m.status.toNat * 2 ^ 51) ++ leBytes 8 m.addr.toNat ++
    (if m.d then slice m.data 0 128 else [])

/-- CMSG of the message that bytes spell. -/
def cmsgAt (bs : Bytes) : Nat := fld (leAt bs 0 8) 0 5

/-- The coherence message that bytes spell. -/
def cohAt (bs : Bytes) : CohMsg :=
  let w := leAt bs 0 8
  { id := BitVec.ofNat 13 (fld w 5 13), rseq := BitVec.ofNat 16 (fld w 18 16), ca := BitVec.ofNat 4 (fld w 34 4), way := BitVec.ofNat 4 (fld w 38 4),
    htile := BitVec.ofNat 4 (fld w 42 4), newst := BitVec.ofNat 3 (fld w 46 3), d := bitAt w 49, rtx := bitAt w 50, status := BitVec.ofNat 8 (fld w 51 8),
    rsv := fld w 59 5 != 0, addr := BitVec.ofNat 64 (leAt bs 8 8), data := if bitAt w 49 then slice bs 16 128 else [] }

/-! ## PAIR frames (R417) -/

/-- The bytes of a PAIR frame. -/
def pairImage (ptype : Nat) (f : PairFrame) : Bytes :=
  leBytes 8 (ptype % 2 ^ 4 + f.stream.toNat * 2 ^ 4 + f.mseq.toNat * 2 ^ 8 + f.len.toNat * 2 ^ 40 + b2n f.rtx * 2 ^ 53) ++ leBytes 8 f.word1.toNat ++
    slice f.data 0 f.len.toNat

/-- PTYPE of the frame that bytes spell. -/
def ptypeAt (bs : Bytes) : Nat := fld (leAt bs 0 8) 0 4

/-- The PAIR frame that bytes spell. -/
def pairAt (bs : Bytes) : PairFrame :=
  let w := leAt bs 0 8
  { stream := BitVec.ofNat 4 (fld w 4 4), mseq := BitVec.ofNat 32 (fld w 8 32), len := BitVec.ofNat 13 (fld w 40 13), rtx := bitAt w 53,
    word1 := BitVec.ofNat 64 (leAt bs 8 8), data := slice bs 16 (fld w 40 13) }

/-! ## Messages of a channel (R522) -/

/-- A message padded with zeros to whole slots of 16 B. -/
def padSlots (bs : Bytes) : Bytes := bs ++ zeros (ceilDiv bs.length 16 * 16 - bs.length)

/-- The bytes of what a switch queue holds. -/
def wireImage : Wire → Bytes
  | .answer a isNak => answerImage a isNak
  | .request typ t => txnImage typ t
  | .evt code info cong => evtImage code info cong

end Sys2Proof.Machine
end

