-- ==== Sys2Proof/Machine/Lanes.lean ====
section
/-! DEFINITION. What a link transmits (R518 to R527): messages in slots, flits with their credit returns and encryption, the codewords of the
FEC, and their symbols and alignment markers on the lanes. -/

namespace Sys2Proof.Machine

/-! ## Codewords and lanes (R518, R519) -/

/-- A product in GF(2^10) modulo x^10 + x^3 + 1; the first number counts bits. [PRESUMED: log 201] -/
def gfTenAux : Nat → Nat → Nat → Nat
  | 0, _, _ => 0
  | n + 1, a, b => (if b % 2 = 1 then a else 0) ^^^ gfTenAux n (if 512 ≤ a then (a * 2) ^^^ 0x409 else a * 2) (b / 2)

def gfTen (a b : Nat) : Nat := gfTenAux 10 a b

/-- A polynomial, highest coefficient first, times x + r. -/
def timesRoot (g : List Nat) (r : Nat) : List Nat := List.zipWith (· ^^^ ·) (g ++ [0]) (0 :: g.map (gfTen r))

/-- The powers of x, from the first on. -/
def powersTen : Nat → Nat → List Nat
  | 0, _ => []
  | n + 1, a => a :: powersTen n (gfTen 2 a)

/-- The generator of RS(544,514) below its leading coefficient. [PRESUMED: log 201] -/
def fecGenerator : List Nat := ((powersTen 30 1).foldl timesRoot [1]).drop 1

/-- One message symbol enters the division by the generator. -/
def fecStep (reg : List Nat) (m : Nat) : List Nat :=
  let f := m ^^^ reg.headD 0
  List.zipWith (· ^^^ ·) (reg.drop 1 ++ [0]) (fecGenerator.map (gfTen f))

/-- A codeword: message symbols and their 30 parity symbols. -/
def codeword (l : List Nat) : List Nat := l ++ l.foldl fecStep (List.replicate 30 0)

/-- The 10-bit symbols of bytes, the least significant bit first. [PRESUMED: log 201] -/
def symbolsOf (bs : Bytes) : List Nat :=
  let v := leNat bs
  (List.range (bs.length * 8 / 10)).map (fun i => fld v (10 * i) 10)

/-- Every n-th element from the i-th on. -/
def everyNth (n i : Nat) (l : List Nat) : List Nat := (List.range ((l.length + n - 1 - i) / n)).map (fun j => l.getD (i + n * j) 0)

/-- Two codewords, symbol by symbol. -/
def interleave (a b : List Nat) : List Nat := (List.zip a b).flatMap (fun p => [p.1, p.2])

/-- Message bytes of a codeword pair: 2 × 514 symbols. -/
def pairBytes : Nat := 1285

/-- The symbols of a codeword pair as its eight lanes carry them (R519). -/
def pairLanes (bs : Bytes) : List (List Nat) :=
  let m := symbolsOf bs
  let s := interleave (codeword (everyNth 2 0 m)) (codeword (everyNth 2 1 m))
  (List.range 8).map (fun i => everyNth 8 i s)

/-- The alignment marker of a lane (R519). -/
def laneMarker (i : Nat) : Bytes :=
  let b : Bytes := [0xA5, 0xC3, 0x5A, 0x3C]
  b ++ b ++ b ++ [BitVec.ofNat 8 i, BitVec.ofNat 8 (255 - i)] ++ zeros 2

/-- Bytes of flits go back to back into codeword pairs; after every 65,536 pairs the lanes send their markers (R519). [DESIGN CHOICE: log 202] -/
def Dev.lineOut (d : Dev) (k : Nat) (bs : Bytes) : Dev :=
  let l := d.link k
  let tail := l.txTail ++ bs
  if tail.length < pairBytes then d.setLink k { l with txTail := tail }
  else
    let d := (d.setLink k { l with txTail := tail.drop pairBytes, txPairs := (l.txPairs + 1) % 65536 }).emit (.lanes k (pairLanes (tail.take pairBytes)))
    if l.txPairs + 1 = 65536 then d.emit (.marker k ((List.range 8).map laneMarker)) else d

/-! ## Flits (R521, R522, R525, R527) -/

/-- The 256-bit root. -/
def rootKey : Bytes := slice Config.kRoot 0 32

/-- K_TX of a link (R503). -/
def linkKey (k : Nat) : Bytes := hmac256 rootKey (ascii "LINK" ++ [BitVec.ofNat 8 k])

def Auth.reset : Auth :=
  { nonce := [], peerNonce := [], certOk := false, challengeOk := false, keyxSent := false, keyxOk := false, sends := 0, lastSend := 0,
    peerKey := [], peerIvp := 0, ivp := 0 }

def Dev.auth (d : Dev) (k : Nat) : Auth := Tab.get Auth.reset d.sec.auth k
def Dev.setAuth (d : Dev) (k : Nat) (a : Auth) : Dev := { d with sec := { d.sec with auth := Tab.set Auth.reset d.sec.auth k a } }

/-- Whether the device's encryption is in force on a link (R505, R529). -/
def Dev.linkEnc (d : Dev) (k : Nat) : Bool := d.role k == 4 || d.regFld (SEC_LINK + 8 * k) 0 1 == 1

/-- The IV of a DATA flit (R527). [PRESUMED: log 134] -/
def flitIv (ivp cnt ch : Nat) : Bytes := leBytes 12 (cnt % 2 ^ 29 + ch % 8 * 2 ^ 29 + (ivp + cnt / 2 ^ 29) % 2 ^ 64 * 2 ^ 32)

/-- Slots that a flit of a link can use. -/
def Dev.flitSlots (d : Dev) (k : Nat) : Nat := if d.linkEnc k then 14 else 15

/-- The header of a flit. -/
def flitHead (ftype ch fseq crch crcnt first used : Nat) (enc : Bool) : Bytes :=
  leBytes 8 (ftype % 4 + ch % 8 * 2 ^ 2 + fseq % 4096 * 2 ^ 5 + crch % 8 * 2 ^ 17 + crcnt % 32768 * 2 ^ 20 + first % 16 * 2 ^ 35 + used % 16 * 2 ^ 39 +
    b2n enc * 2 ^ 43)

/-- The channel whose credit return a link's next flit carries, and the count: none before UP (R521, R525). -/
def Dev.creditOut (d : Dev) (k : Nat) : Nat × Nat :=
  if d.isUp k then ((d.link k).txRot % 5, (d.chan k ((d.link k).txRot % 5)).rxFreed % 32768) else (7, 0)

/-- A flit with its header and slots leaves with its CRC. -/
def Dev.flitOut (d : Dev) (k : Nat) (body : Bytes) : Dev :=
  let f := body ++ leBytes 8 (crc64xz body)
  ((d.setLink k { d.link k with txRot := if d.isUp k then ((d.link k).txRot + 1) % 5 else 0 }).emit (.flit k f)).lineOut k f

/-- A DATA flit: number cnt of its channel, with slots in use (R521, R527). -/
def Dev.dataOut (d : Dev) (k ch cnt : Nat) (l : List (Bool × Bytes)) : Dev :=
  let cr := d.creditOut k
  let first := (l.findIdx? (·.1)).getD 15
  let slots := slice (l.flatMap (·.2)) 0 240
  if d.linkEnc k then
    let head := flitHead 1 ch cnt cr.1 cr.2 first l.length true
    let iv := flitIv (d.auth k).ivp cnt ch
    let ct := gcmCrypt (linkKey k) iv (slots.take 224)
    d.flitOut k (head ++ ct ++ gcmTag (linkKey k) iv head ct)
  else d.flitOut k (flitHead 1 ch cnt cr.1 cr.2 first l.length false ++ slots)

/-- The slots that wait on a channel leave in DATA flits, as far as the peer's credit allows (R524). The number bounds the flits.
[DESIGN CHOICE: log 132] -/
def Dev.drainTx (d : Dev) (k ch : Nat) : Nat → Dev
  | 0 => d
  | n + 1 =>
    let c := d.chan k ch
    if c.txSlots = [] ∨ c.txGrant ≤ (c.txSeq + 32768 - c.txAck) % 32768 then d
    else
      let cap := d.flitSlots k
      ((d.dataOut k ch c.txSeq (c.txSlots.take cap)).setChan k ch { c with txSeq := c.txSeq + 1, txSlots := c.txSlots.drop cap }).drainTx k ch n

/-- The slots of a message: the first is marked. [DESIGN CHOICE: log 132] -/
def slotsOf (bs : Bytes) : List (Bool × Bytes) := (List.range (ceilDiv bs.length 16)).map (fun i => (i == 0, slice bs (16 * i) 16))

/-- A message follows the messages of its channel into the flits of a link that is up (R522). [DESIGN CHOICE: log 132] -/
def Dev.carry (d : Dev) (k ch : Nat) (bs : Bytes) : Dev :=
  if d.isUp k then
    let c := d.chan k ch
    let l := c.txSlots ++ slotsOf bs
    (d.setChan k ch { c with txSlots := l }).drainTx k ch (l.length + 1)
  else d

/-- The link messages of a CTRL message: SPDM and KEYX in segments of up to 232 B (R528). -/
def ctrlSegments (ccode : Nat) (body : Bytes) : List Bytes :=
  if ccode = 3 ∨ ccode = 4 then
    (List.range (ceilDiv body.length 232)).map (fun i =>
      leBytes 2 ccode ++ leBytes 2 body.length ++ leBytes 2 (232 * i) ++ (body.drop (232 * i)).take 232)
  else [leBytes 2 ccode ++ body]

/-- A link message leaves in CTRL flits. -/
def Dev.sendCtrl (d : Dev) (k ccode : Nat) (body : Bytes) : Dev :=
  (ctrlSegments ccode body).foldl (fun (d : Dev) s =>
    let cr := d.creditOut k
    d.flitOut k (flitHead 2 0 0 cr.1 cr.2 0 0 false ++ slice s 0 240)) (d.emit (.ctrl k ccode body))

/-- A PAIR frame leaves on a link. -/
def Dev.sendPair (d : Dev) (k ptype : Nat) (f : PairFrame) : Dev := (d.emit (.pair k ptype f)).carry k 0 (pairImage ptype f)

end Sys2Proof.Machine
end

