-- ==== Sys2Proof/Machine/Switch.lean ====
section
/-! DEFINITION. The switch core (chapter 7): cells and accounts, policing, class queues, congestion, egress scheduling, the leak
audit and the telemetry record. -/

namespace Sys2Proof.Machine

/-! ## Lengths -/

/-- Bytes of a packet on the wire: header, extension and payload (R136). -/
def txnBytes (typ : Nat) (t : Txn) : Nat :=
  match typ with
  | 0 => 16
  | 2 => 40 + t.data.length
  | 4 => 16 + 8 * t.ops.length + t.data.length
  | 5 => 32 + t.data.length
  | _ => 16 + t.data.length

def answerBytes (a : Answer) : Nat := 16 + (if a.route.isSome then 16 else 0) + a.data.length

def wireBytes : Wire → Nat
  | .answer a _ => answerBytes a
  | .request typ t => txnBytes typ t
  | .evt _ _ _ => 16

/-- Cells of 256 B that a packet takes. -/
def cellsOf (bytes : Nat) : Nat := ceilDiv bytes 256

/-- L of R210: bytes on the wire and POL_OVH of the link. -/
def Dev.lenOn (d : Dev) (k bytes : Nat) : Nat := bytes + d.regFld (POL_OVH + 8 * k) 0 6

/-! ## Cells (R197, R198, R201, R205) -/

/-- Queue indices of R200. -/
def ingressQ (k tc : Nat) : Nat := 8 * k + tc
def classQ (k tc : Nat) : Nat := 288 + 8 * k + tc
def answerQ (k : Nat) : Nat := 576 + k

/-- SW_CELL_CFG fields; ALPHA above 7 reads as 7. Cell counts outside 256 to 8,192 read as the nearer limit. -/
def Dev.inCells (d : Dev) : Nat := max 256 (min 8192 (d.regFld SW_CELL_CFG 0 14))
def Dev.egRsv (d : Dev) : Nat := max 256 (min 8192 (d.regFld SW_CELL_CFG 14 14))
def Dev.alpha (d : Dev) : Nat := min 7 (d.regFld SW_CELL_CFG 28 4)

/-- Cells of the shared account (R201). -/
def Dev.sharedCells (d : Dev) : Nat := 786432 - 36 * (d.inCells + d.egRsv + 1024)

/-- The lowest free cell of a slice of 65,536. The number bounds the cells looked at. [DESIGN CHOICE: log 26] -/
def freeCell (t : Tab Cell) (slice : Nat) : Nat → Nat → Option Nat
  | 0, i => if i < 65536 then some (12 * i + slice) else none
  | n + 1, i =>
    if 65536 ≤ i then none
    else if (Tab.find? t (12 * i + slice)).isSome then freeCell t slice n (i + 1)
    else some (12 * i + slice)

/-- The next cell: of a slice, or of the next one that is not full. [DESIGN CHOICE: log 26] -/
def nextCell (t : Tab Cell) (slice : Nat) : Option Nat := (List.range 12).findSome? (fun j => freeCell t ((slice + j) % 12) t.length 0)

/-- Allocates n cells from successive slices with an owner tag and a stamp. [DESIGN CHOICE: log 26] -/
def takeCells (t : Tab Cell) (c : Cell) (slice : Nat) : Nat → Tab Cell × List Nat
  | 0 => (t, [])
  | n + 1 =>
    match nextCell t slice with
    | none => (t, [])
    | some i =>
      let x := takeCells (Tab.insert t i c) c (slice + 1) n
      (x.1, i :: x.2)

def dropCells (t : Tab Cell) (l : List Nat) : Tab Cell := l.foldl Tab.erase t

/-- The queue with index q, oldest first. -/
def Dev.swQ (d : Dev) (q : Nat) : List QPkt := Tab.get [] d.sw.queues q

def Dev.setSwQ (d : Dev) (q : Nat) (l : List QPkt) : Dev := { d with sw := { d.sw with queues := Tab.set [] d.sw.queues q l } }

/-- Cells held by queue q. -/
def Dev.depth (d : Dev) (q : Nat) : Nat := ((d.swQ q).map (fun p => p.cells.length)).sum

/-- A packet joins a queue: its cells are allocated and stamped, and the starting slice advances by one (R198, R205). -/
def Dev.joinQ (d : Dev) (q : Nat) (w : Wire) (color : Color) (rsv : Nat) (flits : Nat := 0) : Dev :=
  let n := cellsOf (wireBytes w)
  let h := d.sw.nextHandle
  let x := takeCells d.sw.cells { q := q, handle := h, stamp := d.tb.cueCount % 2 ^ 32 } d.sw.startSlice n
  let p : QPkt := { handle := h, wire := w, len := wireBytes w, color := color, cells := x.2, cueIn := d.tb.cueCount, rsv := rsv, flits := flits,
                     receipted := false }
  let d := d.setSwQ q (d.swQ q ++ [p])
  { d with sw := { d.sw with cells := x.1, nextHandle := h + 1, startSlice := (d.sw.startSlice + 1) % 12 } }

/-- A packet that its consumer takes as it arrives is written into cells and read from them once: they are free again, and the starting
slice has advanced (R198, R199). -/
def Dev.throughCells (d : Dev) : Dev := { d with sw := { d.sw with startSlice := (d.sw.startSlice + 1) % 12 } }

/-- Cells of the ingress account of a link in use (R201). -/
def Dev.inUsed (d : Dev) (k : Nat) : Nat := ((List.range 8).map (fun tc => d.depth (ingressQ k tc))).sum

/-- Whether the ingress account of a link has n cells free (R201, R202). -/
def Dev.inFits (d : Dev) (k n : Nat) : Bool := d.inUsed k + n ≤ d.inCells

/-- A packet leaves a queue: its cells, and its share of the account, are freed, and the credit that ingress cells held is returned. -/
def Dev.leaveQ (d : Dev) (q : Nat) (p : QPkt) : Dev :=
  let d := d.setSwQ q ((d.swQ q).filter (fun x => x.handle ≠ p.handle))
  let d := if q < 288 then d.freeFlits (q / 8) 0 p.flits else d
  let sw := d.sw
  { d with sw := { sw with
      cells := dropCells sw.cells p.cells
      sharedUsed := if 288 ≤ q ∧ q < 576 then sw.sharedUsed - p.cells.length else sw.sharedUsed
      rsvUsed := if 576 ≤ q then Tab.set 0 sw.rsvUsed (q - 576) (Tab.get 0 sw.rsvUsed (q - 576) - p.rsv) else sw.rsvUsed } }

/-- Marks the progress of a queue (R205). -/
def Dev.progress (d : Dev) (q : Nat) : Dev :=
  { d with sw := { d.sw with progress := Tab.set 0 d.sw.progress q d.tb.cueCount } }

/-! ## Policing (R208 to R212) -/

/-- Marker settings and the index n = 8 × link + TC. -/
structure Marker where
  en : Bool
  cir : Nat
  pir : Nat
  cbs : Nat
  pbs : Nat
deriving DecidableEq, Repr

def markerOf (rate burst : Nat) : Marker :=
  { en := bitAt burst 48, cir := fld rate 0 32, pir := fld rate 32 32, cbs := fld burst 0 24 * 256, pbs := fld burst 24 24 * 256 }

/-- The setting in force of marker n. -/
def Dev.marker (d : Dev) (n : Nat) : Marker := markerOf (Tab.get 0 d.sw.rate n).toNat (Tab.get 0 d.sw.burst n).toNat

/-- R211: the colour of a packet of L bytes, and the counts afterwards (8 fraction bits). -/
def colourOf (m : Marker) (tc tp len : Nat) : Color × Nat × Nat :=
  if !m.en then (.green, tc, tp)
  else if tp < len * 256 then (.red, tc, tp)
  else if tc < len * 256 then (.yellow, tc, tp - len * 256)
  else (.green, tc - len * 256, tp - len * 256)

/-- Colours an arriving request or MSG and counts a red one (R209, R212). -/
def Dev.police (d : Dev) (k tc bytes : Nat) : Dev × Color :=
  let n := 8 * k + tc
  let x := colourOf (d.marker n) (Tab.get 0 d.sw.tc n) (Tab.get 0 d.sw.tp n) (d.lenOn k bytes)
  let d := { d with sw := { d.sw with tc := Tab.set 0 d.sw.tc n x.2.1, tp := Tab.set 0 d.sw.tp n x.2.2 } }
  (d.bump (match x.1 with | .green => POL_GREEN + 8 * n | .yellow => POL_YELLOW + 8 * n | .red => POL_RED + 8 * n), x.1)

/-- Whether the setting of rate and burst words is one that R211 rejects. -/
def markerBad (rate burst : Nat) : Bool :=
  bitAt burst 48 && (fld rate 32 32 < fld rate 0 32 || fld burst 0 24 < 4199 || fld burst 24 24 < 4199)

/-- A write to POL_RATE_n or POL_BURST_n (R211): the other word stays. -/
def Dev.setMarker (d : Dev) (n rate burst : Nat) : Dev :=
  if markerBad rate burst then d.setRegBit POL_STAT 0
  else
    let wasEn := bitAt (d.reg (POL_BURST + 16 * n)) 48
    let d := (d.putReg (POL_RATE + 16 * n) rate).putReg (POL_BURST + 16 * n) burst
    if bitAt burst 48 && wasEn then d
    else
      let m := markerOf rate burst
      { d with sw := { d.sw with rate := Tab.set 0 d.sw.rate n (BitVec.ofNat 64 rate), burst := Tab.set 0 d.sw.burst n (BitVec.ofNat 64 burst),
                                 tc := if m.en then Tab.set 0 d.sw.tc n m.cbs else d.sw.tc, tp := if m.en then Tab.set 0 d.sw.tp n m.pbs else d.sw.tp } }

/-- Write of POL_RATE_n. -/
def Dev.writePolRate (d : Dev) (n v : Nat) : Dev := d.setMarker n v (d.reg (POL_BURST + 16 * n))

/-- Write of POL_BURST_n. -/
def Dev.writePolBurst (d : Dev) (n v : Nat) : Dev := d.setMarker n (d.reg (POL_RATE + 16 * n)) (v % 2 ^ 49)

/-- The cue boundary of every marker: new settings in force and the counts refilled (R211). [DESIGN CHOICE: log 23] -/
def Dev.markerCue (d : Dev) (n : Nat) : Dev :=
  let rate := d.reg (POL_RATE + 16 * n)
  let burst := d.reg (POL_BURST + 16 * n)
  let m := markerOf rate burst
  if !m.en then d
  else
    { d with sw := { d.sw with
        rate := Tab.set 0 d.sw.rate n (BitVec.ofNat 64 rate), burst := Tab.set 0 d.sw.burst n (BitVec.ofNat 64 burst)
        tc := Tab.set 0 d.sw.tc n (min m.cbs (Tab.get 0 d.sw.tc n + m.cir))
        tp := Tab.set 0 d.sw.tp n (min m.pbs (Tab.get 0 d.sw.tp n + m.pir)) } }

/-! ## Class queues and congestion (R204, R214 to R218) -/

/-- Shaper of class queue n: enabled, rate and burst. -/
def Dev.shaper (d : Dev) (n : Nat) : Bool × Nat × Nat :=
  let v := d.reg (POL_SHAPE + 16 * n)
  (bitAt v 56, fld v 0 32, fld v 32 24 * 256)

/-- Drop probability of R216 as a fraction (numerator, denominator); the averages have 16 fraction bits. [DESIGN CHOICE: log 22] -/
def wredP (minT maxT pmax avg : Nat) : Nat × Nat :=
  if avg < minT * 2 ^ 16 then (0, 1)
  else if avg < maxT * 2 ^ 16 then (pmax * (avg - minT * 2 ^ 16), 256 * (maxT * 2 ^ 16 - minT * 2 ^ 16))
  else (1, 1)

/-- Whether R216 drops a droppable packet of a class queue: the draw of the tile's generator is a free value. [DESIGN CHOICE: log 7, 22] -/
def Dev.wred (d : Dev) (k tc : Nat) (color : Color) : Dev × Bool :=
  let t := d.reg (POL_WRED_T + 16 * tc)
  let p := d.reg (POL_WRED_P + 16 * tc)
  let avg := Tab.get 0 d.sw.avg (8 * k + tc)
  let pr := if color = .yellow then wredP (fld t 32 16) (fld t 48 16) (fld p 8 8) avg else wredP (fld t 0 16) (fld t 16 16) (fld p 0 8) avg
  let x := d.nextFree
  (x.1, (Config.draw32 x.2).toNat * pr.2 < pr.1 * 2 ^ 32)

/-- Counts a drop on class queue q. -/
def Dev.countDrop (d : Dev) (q : Nat) : Dev :=
  let d := d.bump (SW_QDROP + 8 * q)
  { d with sw := { d.sw with drops := Tab.set 0 d.sw.drops q (Tab.get 0 d.sw.drops q + 1) } }

/-- Counts a mark, or a CONG received, on queue q. -/
def Dev.countMark (d : Dev) (q : Nat) : Dev :=
  let d := d.bump (SW_QMARK + 8 * q)
  { d with sw := { d.sw with marks := Tab.set 0 d.sw.marks q (Tab.get 0 d.sw.marks q + 1) } }

/-- A packet received with CONG = 1 counts in the counter of the ingress queue of its link and class (R218). [DEDUCED: log 174] -/
def Dev.noteCong (d : Dev) (k tc : Nat) (cong : Bool) : Dev := if cong then d.countMark (ingressQ k tc) else d

/-- Whether a packet may be dropped for congestion (R215): a request or MSG in classes 0 to 5. -/
def droppable : Wire → Nat → Bool
  | .request _ _, tc => tc < 6
  | _, _ => false

/-- R204. -/
def Dev.fitsShared (d : Dev) (q n : Nat) : Bool :=
  (d.depth q + n) * 16 ≤ 2 ^ d.alpha * (d.sharedCells - d.sw.sharedUsed)

/-- The depth above which a packet of class 6 or 7 is marked (R218). -/
def Dev.markDepth (d : Dev) (tc : Nat) : Nat := d.regFld POL_MARK (if tc = 6 then 0 else 16) 16

def setCong : Wire → Wire
  | .request typ t => .request typ { t with cong := true }
  | .answer a n => .answer { a with cong := true } n
  | .evt c i _ => .evt c i true

/-- A packet that passed R204 joins its class queue, marked under R218. -/
def Dev.joinClass (d : Dev) (k tc : Nat) (w : Wire) (color : Color) : Dev :=
  let q := classQ k tc
  let n := cellsOf (wireBytes w)
  let mark := 6 ≤ tc ∧ d.markDepth tc < d.depth q
  let d := if mark then d.countMark q else d
  let d := d.joinQ q (if mark then setCong w else w) color 0
  { d with sw := { d.sw with sharedUsed := d.sw.sharedUsed + n } }

/-- A packet that the device originates or forwards arrives at a class queue (R204, R216, R217). -/
def Dev.toClass (d : Dev) (k tc : Nat) (w : Wire) (color : Color) : Dev :=
  let q := classQ k tc
  let n := cellsOf (wireBytes w)
  if droppable w tc then
    let x := d.wred k tc color
    if x.2 then x.1.countDrop q
    else if x.1.fitsShared q n then x.1.joinClass k tc w color else x.1.countDrop q
  else if d.fitsShared q n then d.joinClass k tc w color
  else { d with sw := { d.sw with blocked := d.sw.blocked ++ [(k, tc, w, color)] } }

/-- Packets that wait at their producers are tried again, in order (R217). -/
def retryBlocked (d : Dev) : List (Nat × Nat × Wire × Color) → Dev
  | [] => d
  | p :: ps =>
    let d := if d.fitsShared (classQ p.1 p.2.1) (cellsOf (wireBytes p.2.2.1)) then d.joinClass p.1 p.2.1 p.2.2.1 p.2.2.2
             else { d with sw := { d.sw with blocked := d.sw.blocked ++ [p] } }
    retryBlocked d ps

/-! ## Answer reserve (R203) -/

/-- Whether the answer reserve of a link can supply n cells. -/
def Dev.rsvFits (d : Dev) (k n : Nat) : Bool := Tab.get 0 d.sw.rsvUsed k + n ≤ d.egRsv

/-- [DESIGN CHOICE: log 25] -/
def Dev.reserve (d : Dev) (k n : Nat) : Dev :=
  { d with sw := { d.sw with rsvUsed := Tab.set 0 d.sw.rsvUsed k (Tab.get 0 d.sw.rsvUsed k + n) } }

def Dev.unreserve (d : Dev) (k n : Nat) : Dev :=
  { d with sw := { d.sw with rsvUsed := Tab.set 0 d.sw.rsvUsed k (Tab.get 0 d.sw.rsvUsed k - n) } }

/-- An answer whose cells were not reserved on the link it leaves on (a receipt, an answer to a MSG, a forwarded answer) takes them from that
link's answer reserve, and waits where it has none free. [DESIGN CHOICE: log 25] -/
def Dev.ansOut (d : Dev) (k : Nat) (a : Answer) (isNak : Bool) : Dev :=
  let n := cellsOf (answerBytes a)
  if !d.isUp k then d
  else if d.rsvFits k n then (d.reserve k n).joinQ (answerQ k) (.answer a isNak) .green n
  else { d with sw := { d.sw with ansWait := d.sw.ansWait ++ [(k, a, isNak)] } }

/-- What waits at its producer is tried again, in order (R203, R217). -/
def Dev.unblock (d : Dev) : Dev :=
  let l := d.sw.blocked
  let w := d.sw.ansWait
  let d := { d with sw := { d.sw with blocked := [], ansWait := [] } }
  w.foldl (fun d e => d.ansOut e.1 e.2.1 e.2.2) (retryBlocked d l)

/-- Cells of the largest answer to a request (R136, R203). [DESIGN CHOICE: log 25] -/
def answerCells (typ : Nat) (t : Txn) : Nat :=
  match typ with
  | 0 => cellsOf (16 + t.len.toNat)
  | 3 => 1
  | 4 => cellsOf (16 + 4096)
  | _ => 1

/-! ## Egress (R213, R214) -/

/-- What leaves when a packet of a link is sent. -/
def outOf (k : Nat) : Wire → Out
  | .answer a n => .answer k a n
  | .request typ t => .request k typ t
  | .evt c i cong => .evt k c i cong

/-- Whether the front packet of class queue (k, tc) may pass its shaper; EN = 1 with RATE 0 pauses the queue. -/
def Dev.shaperLets (d : Dev) (k tc : Nat) (p : QPkt) : Bool :=
  let n := 8 * k + tc
  let s := d.shaper n
  !s.1 || (s.2.1 != 0 && d.lenOn k p.len * 256 ≤ Tab.get 0 d.sw.shape n)

/-- Sends the front packet of a queue. -/
def Dev.sendFront (d : Dev) (k q : Nat) (p : QPkt) : Dev :=
  let d := (d.leaveQ q p).progress q
  let d := if 288 ≤ q ∧ q < 576 ∧ (d.shaper (q - 288)).1 then
      { d with sw := { d.sw with shape := Tab.set 0 d.sw.shape (q - 288) (Tab.get 0 d.sw.shape (q - 288) - d.lenOn k p.len * 256) } }
    else d
  (d.emit (outOf k p.wire)).carry k 0 (wireImage p.wire)

/-- POL_EG_WT; 0 reads as 1. -/
def Dev.egWeight (d : Dev) (n : Nat) : Nat := max 1 (d.regFld (POL_EG_WT + 16 * n) 0 8)

/-- Deficit round robin over classes 0 to 5 (R213): rr holds 2 × class, plus 1 once the class has had its quantum. -/
def Dev.drr (d : Dev) (k : Nat) : Nat → Dev × Option (Nat × QPkt)
  | 0 => (d, none)
  | fuel + 1 =>
    let r := Tab.get 0 d.sw.rr k
    let tc := r / 2
    let n := 8 * k + tc
    let next := { d with sw := { d.sw with rr := Tab.set 0 d.sw.rr k (2 * ((tc + 1) % 6)) } }
    match d.swQ (classQ k tc) with
    | [] => Dev.drr { next with sw := { next.sw with deficit := Tab.set 0 next.sw.deficit n 0 } } k fuel
    | p :: _ =>
      if !d.shaperLets k tc p then Dev.drr next k fuel
      else
        let def0 := Tab.get 0 d.sw.deficit n + (if r % 2 = 0 then 256 * d.egWeight n else 0)
        if d.lenOn k p.len ≤ def0 then
          ({ d with sw := { d.sw with deficit := Tab.set 0 d.sw.deficit n (def0 - d.lenOn k p.len), rr := Tab.set 0 d.sw.rr k (2 * tc + 1) } },
            some (classQ k tc, p))
        else Dev.drr { next with sw := { next.sw with deficit := Tab.set 0 next.sw.deficit n def0 } } k fuel

/-- Whether some packet of classes 0 to 5 may pass. -/
def Dev.someLow (d : Dev) (k : Nat) : Bool :=
  (List.range 6).any (fun tc => match d.swQ (classQ k tc) with
    | [] => false
    | p :: _ => d.shaperLets k tc p)

/-- Class 6, and then the round robin over classes 0 to 5. -/
def Dev.egressLow (d : Dev) (k : Nat) : Dev × Option (Nat × QPkt) :=
  match d.swQ (classQ k 6) with
  | p :: _ => if d.shaperLets k 6 p then (d, some (classQ k 6, p)) else if d.someLow k then d.drr k 240 else (d, none)
  | [] => if d.someLow k then d.drr k 240 else (d, none)

/-- The packet that the link sends next (R213). -/
def Dev.egress (d : Dev) (k : Nat) : Dev × Option (Nat × QPkt) :=
  match d.swQ (answerQ k) with
  | p :: _ => (d, some (answerQ k, p))
  | [] =>
    match d.swQ (classQ k 7) with
    | p :: _ => if d.shaperLets k 7 p then (d, some (classQ k 7, p)) else d.egressLow k
    | [] => d.egressLow k

/-- The link sends its next packet, if it has one that may pass. -/
def Dev.transmit (d : Dev) (k : Nat) : Dev :=
  if d.isUp k then
    match d.egress k with
    | (d, some (q, p)) => (d.sendFront k q p).unblock
    | (_, none) => d
  else d

/-! ## The cue boundary of the core (R205, R211, R214, R216, R219, R220) -/

/-- [DESIGN CHOICE: log 23] -/
def Dev.shaperCue (d : Dev) (n : Nat) : Dev :=
  let s := d.shaper n
  if s.1 then { d with sw := { d.sw with shape := Tab.set 0 d.sw.shape n (min s.2.2 (Tab.get 0 d.sw.shape n + s.2.1)) } } else d

/-- avg += (depth - avg) / 2^W, with 16 fraction bits. [DESIGN CHOICE: log 22] -/
def Dev.wredCue (d : Dev) (n : Nat) : Dev :=
  if n % 8 < 6 then
    let w := d.regFld (POL_WRED_P + 16 * (n % 8)) 16 3
    let avg := Tab.get 0 d.sw.avg n
    let dep := d.depth (288 + n) * 2 ^ 16
    let new := if avg ≤ dep then avg + (dep - avg) / 2 ^ w else avg - (avg - dep) / 2 ^ w
    { d with sw := { d.sw with avg := Tab.set 0 d.sw.avg n new } }
  else d

/-- The sample of queue q (R219). [DESIGN CHOICE: log 24] -/
def Dev.telSample (d : Dev) (q : Nat) : Nat :=
  let age := match d.swQ q with
    | [] => 0
    | p :: _ => min 1048575 ((d.tb.cueCount - p.cueIn) * 250)
  min (2 ^ 20 - 1) (d.depth q) + age * 2 ^ 20 + min 255 (Tab.get 0 d.sw.drops q) * 2 ^ 40 + min 255 (Tab.get 0 d.sw.marks q) * 2 ^ 48

def Dev.telRecord (d : Dev) : Bytes :=
  leBytes 8 d.tb.cueCount ++ leBytes 8 d.tb.tbase ++ zeros 48 ++ (List.range 612).flatMap (fun q => leBytes 8 (d.telSample q))

/-- Writes the telemetry record of a boundary, or counts its skip (R219, R220). -/
def Dev.telemetry (d : Dev) (ok : Bool) : Dev :=
  let recs := d.regFld SW_TEL_CFG 0 24
  let d' :=
    if d.regFld SW_TEL_CFG 24 1 = 1 ∧ recs ≠ 0 then
      let a := d.reg SW_TEL_BASE / 4096 * 4096 + d.tb.cueCount % recs * 4960
      if ok && inMem a 4960 then
        let d := d.store a d.telRecord
        { d with sw := { d.sw with telHead := d.tb.cueCount } }
      else d.bump SW_TEL_SKIP
    else d
  { d' with sw := { d'.sw with drops := [], marks := [] } }

/-- Cells that hold messages still in a link's receiver, and flits of messages not yet whole (R526). -/
def Link.rxCells (l : Link) : Nat :=
  ((l.rx.filter (fun m => m.1 == 0)).map (fun m => m.2.1)).sum + (Tab.get Chan.reset l.chans 0).partFlits

/-- Free cells of all accounts (R201): those of queues, of held results and of messages being received are in use. -/
def Dev.freeCells (d : Dev) : Nat :=
  786432 - d.sw.cells.length - (d.txn.replay.map (fun e => cellsOf e.2.2)).sum - (d.links.map (fun l => l.2.rxCells)).sum

/-- SW_CELL_STAT shows the accounts as the last cue boundary found them. [DESIGN CHOICE: log 195] -/
def Dev.latchCells (d : Dev) : Dev := d.putReg SW_CELL_STAT (d.freeCells % 2 ^ 20 + d.sw.sharedUsed % 2 ^ 20 * 2 ^ 20)

/-- Everything the core does at a cue boundary. [DESIGN CHOICE: log 146] -/
def Dev.switchCue (d : Dev) (telOk : Bool) : Dev :=
  let d := (List.range 288).foldl (fun d n => (d.markerCue n).shaperCue n) d
  let d := d.telemetry telOk
  ((List.range 288).foldl Dev.wredCue d).unblock.latchCells

/-! ## The leak audit (R205 to R207) -/

/-- Paused queues: of a link that is down, or a class queue whose shaper has EN = 1 and RATE 0. -/
def Dev.qPaused (d : Dev) (q : Nat) : Bool :=
  if 576 ≤ q then !d.isUp (q - 576)
  else if 288 ≤ q then !d.isUp ((q - 288) / 8) || ((d.shaper (q - 288)).1 && (d.shaper (q - 288)).2.1 == 0)
  else !d.isUp (q / 8)

/-- SW_AUDIT_CFG.AGE, the audit age in cues (R207). [DESIGN CHOICE: log 24] -/
def Dev.auditAge (d : Dev) : Nat := d.regFld SW_AUDIT_CFG 0 16

/-- Modular cue arithmetic on 32-bit stamps: now is at least n after s. [DESIGN CHOICE: log 24] -/
def cueAge (now s : Nat) : Nat := (now + 2 ^ 32 - s % 2 ^ 32) % 2 ^ 32

/-- Whether the audit reclaims a cell (R206). -/
def Dev.leaked (d : Dev) (c : Cell) : Bool :=
  let now := d.tb.cueCount % 2 ^ 32
  !d.qPaused c.q && d.auditAge ≤ cueAge now c.stamp && cueAge now c.stamp ≤ cueAge now (Tab.get 0 d.sw.progress c.q % 2 ^ 32)

/-- Reclaims the packets of one queue that hold a leaked cell, and reports their cells (R207). -/
def Dev.auditQ (d : Dev) (q : Nat) : Dev :=
  let bad := (d.swQ q).filter (fun p => p.cells.any (fun i => (Tab.find? d.sw.cells i).any d.leaked))
  let n := (bad.map (fun p => p.cells.length)).sum
  if bad = [] then d
  else
    let d := bad.foldl (fun d p => d.leaveQ q p) d
    (d.bumpBy SW_AUDIT_CNT n).report 0x31 1 hubOrigin q n 0

/-- A pass of the audit is due: it is enabled, and 4,000 cues have passed since the last one (R206). [DESIGN CHOICE: log 156] -/
def Dev.auditDue (d : Dev) : Bool := d.regFld SW_AUDIT_CFG 16 1 == 1 && d.sw.auditCue + 4000 ≤ d.tb.cueCount

/-- One pass of the audit over all cells, where it is due. -/
def Dev.auditAll (d : Dev) : Dev :=
  if d.auditDue then (List.range 612).foldl Dev.auditQ { d with sw := { d.sw with auditCue := d.tb.cueCount } } else d

/-- Write of SW_AUDIT_CFG: an AGE below 512 is rejected and the old value kept (R207). [DEDUCED: log 27] -/
def Dev.writeAuditCfg (d : Dev) (v : Nat) : Dev :=
  if fld v 0 16 < 512 then (d.putReg SW_AUDIT_CFG (setFld (d.reg SW_AUDIT_CFG) 16 1 (fld v 16 1))).setRegBit POL_STAT 0
  else d.putReg SW_AUDIT_CFG (v % 2 ^ 17)

/-- Frees every cell of a link's queues (R530). -/
def Dev.flushLink (d : Dev) (k : Nat) (qs : List Nat) : Dev :=
  qs.foldl (fun d q => (d.swQ q).foldl (fun d p => d.leaveQ q p) d)
    { d with sw := { d.sw with blocked := d.sw.blocked.filter (fun b => b.1 ≠ k), ansWait := d.sw.ansWait.filter (fun b => b.1 ≠ k) } }

/-- Credit that ingress cells of a link hold counts no more once the link is trained anew. -/
def Dev.forgetFlits (d : Dev) (k : Nat) : Dev :=
  (List.range 8).foldl (fun d tc => d.setSwQ (ingressQ k tc) ((d.swQ (ingressQ k tc)).map (fun p => { p with flits := 0 }))) d

end Sys2Proof.Machine
end

