-- ==== Sys2Proof/Machine/Transport.lean ====
section
/-! DEFINITION. Transport at the attach tiles (chapter 5): answers, receipts and tag records, the period state of WRF, the device's
own requests with their timers, and EVT. -/

namespace Sys2Proof.Machine

/-! ## Answers (R138 to R140, R145, R146) -/

/-- An answer joins the answer queue of its link in its reserved cells; on a link that is not up the cells are freed (R530). -/
def Dev.sendAnswer (d : Dev) (k : Nat) (a : Answer) (isNak : Bool) (rsv : Nat) : Dev :=
  if d.isUp k then d.joinQ (answerQ k) (.answer a isNak) .green rsv else d.unreserve k rsv

/-- AUX is carried for VERSION_CONFLICT and FENCE_INCOMPLETE only (R140). -/
def auxFor (st : Status) (aux : Nat) : Nat := if st = .versionConflict ∨ st = .fenceIncomplete then aux else 0

/-- The completion of a request: an ACK with its data for OK, else a NAK without payload (R13, R138, R140). -/
def completionOf (r : ReqId) (st : Status) (aux : Nat) (data : Bytes) : Answer :=
  { tag := r.tag, stream := r.stream, rseq := r.rseq, tc := r.tc, cong := r.cong, compl := true, status := BitVec.ofNat 8 (statusCode st),
    aux := BitVec.ofNat 32 (auxFor st aux), route := none, data := if st = .ok then data else [] }

def Dev.sendCompletion (d : Dev) (r : ReqId) (st : Status) (aux : Nat) (data : Bytes) : Dev :=
  d.sendAnswer r.link (completionOf r st aux data) (st ≠ .ok) r.rsv

/-! ## Messages that have arrived (R135, R136, R522) -/

/-- Whether a transaction of TYPE typ arrives on a link: the oldest message that its flits brought, if one waits, spells it. [DEDUCED: log 157] -/
def Dev.spellsTxn (d : Dev) (k typ : Nat) (t : Txn) : Bool :=
  match d.frontRx k 0 with
  | none => true
  | some m => typeAt m.2.2 == typ && txnAt m.2.2 == t

/-- Whether an answer arrives on a link: one on a PEER link carries the routing extension (R136). -/
def Dev.spellsAnswer (d : Dev) (k : Nat) (a : Answer) (isNak : Bool) : Bool :=
  match d.frontRx k 0 with
  | none => true
  | some m => typeAt m.2.2 == (if isNak then 8 else 7) && answerAt (d.role k == 3) m.2.2 == a

/-- Whether an EVT arrives on a link. -/
def Dev.spellsEvt (d : Dev) (k : Nat) (tc : BitVec 3) (cong : Bool) : Bool :=
  match d.frontRx k 0 with
  | none => true
  | some m => typeAt m.2.2 == 6 && fld (leAt m.2.2 0 8) 41 3 == tc.toNat && bitAt (leAt m.2.2 0 8) 44 == cong

/-- Whether a coherence message arrives on a channel of a link. [DEDUCED: log 157] -/
def Dev.spellsCoh (d : Dev) (k ch cmsg : Nat) (m : CohMsg) : Bool :=
  match d.frontRx k ch with
  | none => true
  | some x => cmsgAt x.2.2 == cmsg && cohAt x.2.2 == m

/-- Whether a PAIR frame arrives on a link. [DEDUCED: log 157] -/
def Dev.spellsPair (d : Dev) (k ptype : Nat) (f : PairFrame) : Bool :=
  match d.frontRx k 0 with
  | none => true
  | some m => ptypeAt m.2.2 == ptype && pairAt m.2.2 == f

/-! ## Receipts and tag records (R139, R145, R146) -/

/-- The receipt of a request: an ACK with COMPL = 0 and STATUS 0x00 (R139). -/
def receiptOf (r : ReqId) : Answer :=
  { tag := r.tag, stream := r.stream, rseq := r.rseq, tc := r.tc, cong := r.cong, compl := false, status := 0, aux := 0, route := none,
    data := [] }

def tagKey (k : Nat) (tag : BitVec 13) : Nat := k * 8192 + tag.toNat

/-- The record of a tag of a link. -/
def Dev.tagRec (d : Dev) (k : Nat) (tag : BitVec 13) : Option TagRec := Tab.find? d.txn.tags (tagKey k tag)

def Dev.setTagRec (d : Dev) (k : Nat) (tag : BitVec 13) (r : TagRec) : Dev :=
  { d with txn := { d.txn with tags := Tab.insert d.txn.tags (tagKey k tag) r } }

/-- Marks an OPREQ result as no longer held. -/
def dropResult (tags : Tab TagRec) (key : Nat) : Tab TagRec :=
  match Tab.find? tags key with
  | some r => Tab.insert tags key { r with dropped := true, ret := [] }
  | none => tags

/-- Frees the oldest results of a link until n more bytes fit in its store of 256 KiB, which is 1,024 cells (R146, R201). The number bounds the entries. -/
def freeReplay (k n : Nat) : Nat → Tab TagRec → List (Nat × Nat × Nat) → Tab TagRec × List (Nat × Nat × Nat)
  | 0, t, l => (t, l)
  | fuel + 1, t, l =>
    if ((l.filter (fun e => e.1 == k)).map (fun e => cellsOf e.2.2)).sum + cellsOf n ≤ 1024 then (t, l)
    else match l.find? (fun e => e.1 == k) with
      | none => (t, l)
      | some e => freeReplay k n fuel (dropResult t (k * 8192 + e.2.1)) (l.erase e)

/-- Gives up the result held under a tag that is used anew (R146). -/
def Dev.dropReplay (d : Dev) (k : Nat) (tag : BitVec 13) : Dev :=
  { d with txn := { d.txn with replay := d.txn.replay.filter (fun e => !(e.1 == k && e.2.1 == tag.toNat)) } }

/-- Holds the result of a completed OPREQ for replay (R146). -/
def Dev.holdResult (d : Dev) (k : Nat) (tag : BitVec 13) (n : Nat) : Dev :=
  let x := freeReplay k n (d.txn.replay.length + 1) d.txn.tags d.txn.replay
  { d with txn := { d.txn with tags := x.1, replay := x.2 ++ [(k, tag.toNat, n)] } }

/-! ## Sources and flagged writes (R126 to R131) -/

def srcKey (k : Nat) (stream : BitVec 8) : Nat := k * 256 + stream.toNat

def WrfSrc.reset : WrfSrc := { counted := [], held := [], loose := [], resolved := [], seq := 0, top := 0 }

def Dev.src (d : Dev) (k : Nat) (stream : BitVec 8) : WrfSrc := Tab.get WrfSrc.reset d.txn.src (srcKey k stream)

def Dev.setSrc (d : Dev) (k : Nat) (stream : BitVec 8) (s : WrfSrc) : Dev :=
  { d with txn := { d.txn with src := Tab.set WrfSrc.reset d.txn.src (srcKey k stream) s } }

/-- (a - b) mod 65,536. -/
def sub16 (a b : Nat) : Nat := (a % 65536 + 65536 - b % 65536) % 65536

/-- An RSEQ counted on past its wraps: the number nearest to the source's latest one. The first counts from 2^17. [DEDUCED: log 33] -/
def WrfSrc.posOf (s : WrfSrc) (rseq : Nat) : Nat :=
  if s.top = 0 then 2 ^ 17 + rseq
  else if sub16 rseq s.top < 32768 then s.top + sub16 rseq s.top else s.top - sub16 s.top rseq

/-- A request of a source is accepted: the latest RSEQ moves on, and what lies more than a wrap behind is forgotten. [DEDUCED: log 33] -/
def Dev.noteRseq (d : Dev) (k : Nat) (stream : BitVec 8) (rseq : BitVec 16) : Dev :=
  let s : WrfSrc := d.src k stream
  let top := max s.top (s.posOf rseq.toNat)
  d.setSrc k stream { s with
    top := top, counted := s.counted.filter (fun c => c.done.isNone || top < c.pos + 2 ^ 17), resolved := s.resolved.filter (fun r => top < r + 2 ^ 17) }

/-- How many RSEQs lie from the WRF that a WRF names in PREV_RSEQ to the WRF itself. -/
def prevBack (t : Txn) : Nat := sub16 t.rseq.toNat t.prevRseq.toNat

/-- Whether a counted store belongs to the period of a WRF (R128). [DEDUCED: log 33] -/
def inPeriod (h : HeldWrf) (c : Counted) : Bool :=
  c.pos < h.pos && (if h.txn.prevV then h.pos < c.pos + prevBack h.txn else h.pos < c.pos + 32768)

/-- Whether the WRF that a WRF names in PREV_RSEQ has been resolved; one that names none need not wait (R129). [DEDUCED: log 33] -/
def prevResolved (s : WrfSrc) (h : HeldWrf) : Bool := !h.txn.prevV || (h.pos - prevBack h.txn) ∈ s.resolved

/-- The counted stores of a held WRF's period accepted so far. -/
def periodOf (s : WrfSrc) (h : HeldWrf) : List Counted := s.counted.filter (inPeriod h)

/-- A WR or ATOM is accepted and counted once (R127). A refused store is counted with its status. -/
def Dev.countStore (d : Dev) (k : Nat) (stream : BitVec 8) (rseq : BitVec 16) (done : Option Status) : Dev :=
  let s : WrfSrc := d.src k stream
  if s.counted.any (fun c => c.pos == s.posOf rseq.toNat) then d
  else d.setSrc k stream { s with
    counted := s.counted ++ [{ rseq := rseq.toNat, pos := s.posOf rseq.toNat, seq := s.seq, done := done }], seq := s.seq + 1 }

/-- Whether conditions 1 to 3 of R129 hold, so that the flag may be written. -/
def flagReady (s : WrfSrc) (h : HeldWrf) : Bool :=
  let p := periodOf s h
  p.length % 65536 == h.txn.priorCnt.toNat && p.all (fun c => c.done == some .ok) && h.dataDone == some .ok && h.waitFor.isEmpty &&
    prevResolved s h

/-- Whether the count and the chain are reached (conditions 1 and 3 of R129). -/
def countReached (s : WrfSrc) (h : HeldWrf) : Bool :=
  (periodOf s h).length % 65536 == h.txn.priorCnt.toNat && prevResolved s h

/-- The stores of the period and the WRF's own data: acceptance number and status. -/
def wrfMembers (s : WrfSrc) (h : HeldWrf) : List (Nat × Option Status) :=
  (periodOf s h).map (fun c => (c.seq, c.done)) ++ [(h.seq, h.dataDone)]

/-- Whether some counted store of the period or the own data failed. -/
def wrfFailed (s : WrfSrc) (h : HeldWrf) : Bool := (wrfMembers s h).any (fun m => match m.2 with | some st => st != .ok | none => false)

/-- The status of the earliest-accepted member that failed (R130). -/
def firstFailure (l : List (Nat × Option Status)) : Status :=
  let bad := l.filter (fun m => match m.2 with | some st => st != .ok | none => false)
  match bad.foldl (fun (b : Option (Nat × Status)) m => match b, m.2 with
      | none, some st => some (m.1, st)
      | some x, some st => if m.1 < x.1 then some (m.1, st) else some x
      | b, none => b) none with
  | some x => x.2
  | none => .ok

/-- The data of a WRF that ends while it is still being written (R129). -/
def looseData (s : WrfSrc) (rseq : Nat) : List Counted :=
  (s.held.filter (fun h => h.rseq == rseq && h.dataDone.isNone)).map (fun h => { rseq := h.rseq, pos := h.pos, seq := h.seq, done := none })

/-- A WRF is resolved: its successors in the chain may go on. The stores of other periods stay counted (R128). -/
def wrfResolve (s : WrfSrc) (rseq : Nat) : WrfSrc :=
  let pos := match s.held.find? (fun h => h.rseq == rseq) with
    | some h => h.pos
    | none => s.posOf rseq
  { s with resolved := s.resolved.filter (· ≠ pos) ++ [pos], loose := s.loose ++ looseData s rseq
           held := s.held.filter (fun h => h.rseq ≠ rseq) }

/-- Descriptors of a kind that wait on transactions: a started SNOOP_PORT of a link, direction and stream with some still to fold. [DEDUCED: log 44] -/
def DescEntry.snoopsPort (x : DescEntry) (k dir stream : Nat) : Bool :=
  let f := fun lo w => fld x.word.toNat lo w
  x.started && x.status.isNone && f 0 4 == 5 && f 12 8 == 3 && f 384 6 == k && f 390 1 == dir && f 391 8 == stream && x.nTrans < f 399 16

/-- Folds the payload of a transaction into every SNOOP_PORT that matches it; one without a payload is not counted (R286). [DEDUCED: log 44] -/
def Dev.portFold (d : Dev) (k dir stream : Nat) (payload : Bytes) : Dev :=
  if payload = [] then d
  else
    { d with eng := { d.eng with queue := d.eng.queue.map (fun q => (q.1, q.2.map (fun x =>
        if x.snoopsPort k dir stream then
          { x with folded := putBytes x.folded x.nFolded payload, nFolded := x.nFolded + payload.length, nTrans := x.nTrans + 1 }
        else x))) } }

/-- Completes the tag record of a request and sends its completion, unless the record was discarded (R143, R145, R146).
[DEDUCED: log 44; DESIGN CHOICE: log 191] -/
def Dev.finishTag (d : Dev) (r : ReqId) (kind : TxKind) (st : Status) (aux : Nat) (data : Bytes) : Dev :=
  match d.tagRec r.link r.tag with
  | some t =>
    if t.id.uid = r.uid ∧ t.done = false then
      let keep := if st = .ok ∧ (kind = .atom ∨ kind = .opreq) then data else []
      let d := d.setTagRec r.link r.tag { t with done := true, status := st, aux := auxFor st aux, ret := keep, doneCue := d.tb.cueCount }
      let d := if kind = .opreq ∧ keep ≠ [] then d.holdResult r.link r.tag keep.length else d
      let d := if st ≠ .ok then d else d.portFold r.link 1 r.stream.toNat data
      d.sendCompletion r st aux data
    else if t.id.uid = r.uid then d
    else if r.uid ∈ t.again then (d.setTagRec r.link r.tag { t with again := t.again.filter (· ≠ r.uid) }).sendCompletion r st aux data
    else d.unreserve r.link r.rsv
  | none => d.unreserve r.link r.rsv

/-- Completes every WRF of a source that has failed and whose members have all completed (R130). -/
def wrfSettle (d : Dev) (k : Nat) (stream : BitVec 8) : Nat → Dev
  | 0 => d
  | n + 1 =>
    let s := d.src k stream
    match s.held.find? (fun h => wrfFailed s h && (wrfMembers s h).all (fun m => m.2.isSome)) with
    | none => d
    | some h =>
      let d := d.setSrc k stream (wrfResolve s h.rseq)
      wrfSettle (d.finishTag h.id .wrf (firstFailure (wrfMembers s h)) 0 []) k stream n

/-- Settles every WRF of a requester whose group is done. -/
def Dev.settleSrc (d : Dev) (k : Nat) (stream : BitVec 8) : Dev := wrfSettle d k stream ((d.src k stream).held.length + 1)

/-- Notes the status of a counted store that still runs. -/
def doneCounted (l : List Counted) (rseq : Nat) (st : Status) : List Counted :=
  l.map (fun c => if c.rseq = rseq ∧ c.done = none then { c with done := some st } else c)

/-- Notes the status of the data of a held WRF. -/
def doneData (l : List HeldWrf) (rseq : Nat) (st : Status) : List HeldWrf :=
  l.map (fun h => if h.rseq = rseq then { h with dataDone := some st } else h)

/-- Acceptance number of a store that completes: data of a WRF may outlast the WRF (R130). -/
def seqOf (s : WrfSrc) (kind : TxKind) (rseq : Nat) : Option Nat :=
  if kind = .wrf then
    match s.held.find? (fun h => h.rseq == rseq && h.dataDone.isNone) with
    | some h => some h.seq
    | none => (s.loose.find? (fun c => c.rseq == rseq)).map (fun c => c.seq)
  else (s.counted.find? (fun c => c.rseq == rseq && c.done.isNone)).map (fun c => c.seq)

/-- A store of a source has completed: WR and ATOM in the counted list, WRF data in its own record; waiting flags see it. -/
def Dev.storeDone (d : Dev) (r : ReqId) (kind : TxKind) (st : Status) : Dev :=
  let s : WrfSrc := d.src r.link r.stream
  let seq := seqOf s kind r.rseq.toNat
  let held := if kind = .wrf then doneData s.held r.rseq.toNat st else s.held
  let counted := if kind = .wrf then s.counted else doneCounted s.counted r.rseq.toNat st
  let held := held.map (fun h => { h with waitFor := h.waitFor.filter (fun n => some n ≠ seq) })
  let loose := if kind = .wrf then s.loose.filter (fun c => some c.seq ≠ seq) else s.loose
  (d.setSrc r.link r.stream { s with held := held, counted := counted, loose := loose }).settleSrc r.link r.stream

/-- A request completes: RD, WR, ATOM, OPREQ, and the flag or failure of a WRF. -/
def Dev.complete (d : Dev) (r : ReqId) (kind : TxKind) (st : Status) (aux : Nat) (data : Bytes) : Dev :=
  let d := d.finishTag r kind st aux data
  if kind = .wr ∨ kind = .atom then d.storeDone r kind st else d

/-! ## EVT (R167) -/

/-- EVT travels in class 7. [DESIGN CHOICE: log 21] -/
def evtClass : Nat := 7

/-- [DESIGN CHOICE: log 21] -/
def Dev.sendEvt (d : Dev) (k code info : Nat) : Dev := d.toClass k evtClass (.evt code info false) .green

/-- Sends an EVT on links and, where it is repeated, keeps what is left to send. -/
def Dev.startEvt (d : Dev) (links : List Nat) (code info times spacing : Nat) : Dev :=
  let d := links.foldl (fun d k => d.sendEvt k code info) d
  if 1 < times then
    { d with txn := { d.txn with
        evts := d.txn.evts ++ [{ id := d.txn.nextId, links := links, code := code, info := info, left := times - 1, spacing := spacing,
                                 due := d.tb.cueCount + spacing }]
        nextId := d.txn.nextId + 1 } }
  else d

/-- Sends a due repeat again on the links that are up. -/
def Dev.repeatEvt (d : Dev) (id : Nat) : Dev :=
  match d.txn.evts.find? (fun e => e.id == id) with
  | none => d
  | some e =>
    if d.tb.cueCount < e.due then d
    else
      let rest := if e.left ≤ 1 then [] else [{ e with left := e.left - 1, due := e.due + e.spacing }]
      let d := { d with txn := { d.txn with evts := d.txn.evts.filter (fun x => x.id ≠ id) ++ rest } }
      (e.links.filter d.isUp).foldl (fun d k => d.sendEvt k e.code e.info) d

/-! ## The device as requester (R143, R149 to R152, R161, R165, R531) -/

/-- Bytes queued on a link. -/
def Dev.queuedBytes (d : Dev) (k : Nat) : Nat :=
  (((answerQ k) :: (List.range 8).map (classQ k)).map (fun q => ((d.swQ q).map (·.len)).sum)).sum

/-- Whether MSG of partition p may use PEER link k (R511, R513). -/
def Dev.peerCarries (d : Dev) (k p : Nat) : Bool :=
  let v := d.reg (SEC_LINK + 8 * k)
  bitAt (fld v 16 16) p && (!d.isConf p || (fld v 0 1 == 1 && Tab.get 0 d.sec.linkState k == 2))

/-- PEER links that the forwarding table lists for a device and that are up (R161, R531). [DESIGN CHOICE: log 90] -/
def Dev.fwdLinks (d : Dev) (dev : Nat) : List Nat :=
  let mask := d.mem.word (d.reg GL_FWD_BASE + 8 * dev)
  (List.range 36).filter (fun k => bitAt mask k && d.role k == 3 && d.isUp k)

/-- The link of the fewest queued bytes; the lowest of equals. [DESIGN CHOICE: log 90] -/
def Dev.leastQueued (d : Dev) : List Nat → Option Nat
  | [] => none
  | k :: ks => match d.leastQueued ks with
    | none => some k
    | some j => if d.queuedBytes j < d.queuedBytes k then some j else some k

/-- The PEER link that a MSG of partition p toward a device takes now. -/
def Dev.msgLink (d : Dev) (p dev : Nat) : Option Nat := d.leastQueued ((d.fwdLinks dev).filter (fun k => d.peerCarries k p))

/-- Links in role TRAY that reach a tray (R379) and are up. -/
def Dev.trayLink (d : Dev) (tray : Nat) : Option Nat :=
  let mask := d.regFld (VER_TRAY_CFG + 8 * tray) 27 36
  d.leastQueued ((List.range 36).filter (fun k => bitAt mask k && d.role k == 2 && d.isUp k))

/-- Requester records: a MSG's tag is unique over all PEER links, a TRAY request's over all links to its tray, since it may be sent again on
another of them (R530). Key of a tag. -/
def reqKeyMsg (tag : Nat) : Nat := tag
/-- [DESIGN CHOICE: log 30] -/
def reqKeyTray (tray tag : Nat) : Nat := 8192 * (tray + 1) + tag

/-- Whether the device's tag may be used now: free, and not within 128 cues of its last send (R152, R165). [DEDUCED: log 94] -/
def Dev.tagFree (d : Dev) (key : Nat) : Bool :=
  (Tab.find? d.txn.req key).isNone &&
    (match Tab.find? d.txn.lastUse key with
     | none => true
     | some c => c + 128 ≤ d.tb.cueCount)

/-- The lowest usable tag from a base key. [DESIGN CHOICE: log 30] -/
def Dev.pickTag (d : Dev) (base : Nat) : Nat → Nat → Option Nat
  | 0, _ => none
  | n + 1, t => if d.tagFree (base + t) then some t else d.pickTag base n (t + 1)

/-- Puts the request of a tag on its link's class queue, and notes when. -/
def Dev.putReq (d : Dev) (key : Nat) (r : ReqTag) : Dev :=
  let d := d.toClass r.link r.txn.tc.toNat (.request r.typ r.txn) .green
  { d with txn := { d.txn with req := Tab.insert d.txn.req key { r with lastSend := d.tb.cueCount },
                               lastUse := Tab.insert d.txn.lastUse key d.tb.cueCount } }

/-- A new request of the device: it takes a tag and the next RSEQ, and enters SENT (R144, R149). Without a link up it is not put on
any queue and is recovered by its timers like a lost one. Tags may run out; the request is then not sent, and answers none. [DESIGN CHOICE: log 30] -/
def Dev.newReq (d : Dev) (base part : Nat) (k : Option Nat) (typ : Nat) (t : Txn) (purpose : Purpose) : Dev × Option Nat :=
  if d.flt.fatal ∨ 40960 ≤ d.txn.req.length then (d, none)
  else match d.pickTag base 8192 0 with
    | none => (d, none)
    | some tag =>
      let s := srcKey (k.getD 0) t.stream
      let t := { t with tag := BitVec.ofNat 13 tag, rseq := BitVec.ofNat 16 (Tab.get 0 d.txn.rseqs s), rtx := false }
      let d := { d with txn := { d.txn with rseqs := Tab.set 0 d.txn.rseqs s ((Tab.get 0 d.txn.rseqs s + 1) % 65536) } }
      let r : ReqTag := { link := k.getD 0, part := part, typ := typ, txn := t, phase := .sent, n := 0, lastSend := d.tb.cueCount, purpose := purpose }
      if k.isSome then ((d.portFold r.link 1 t.stream.toNat t.data).putReq (base + tag) r, some (base + tag))
      else ({ d with txn := { d.txn with req := Tab.insert d.txn.req (base + tag) r, lastUse := Tab.insert d.txn.lastUse (base + tag) d.tb.cueCount } },
        some (base + tag))

/-- Sends a MSG of a partition toward a device (R161, R165). -/
def Dev.sendMsg (d : Dev) (p : Nat) (t : Txn) (purpose : Purpose) : Dev × Option Nat :=
  d.newReq 0 p (d.msgLink p t.route.dstDev.toNat) 5 t purpose

/-- The link a resend takes: another to the same peer where its own is no longer fit (R149, R161, R530). -/
def Dev.resendLink (d : Dev) (r : ReqTag) : Option Nat :=
  match r.purpose with
  | .pieceWr _ _ tray _ _ _ => d.trayLink tray
  | .slotRd _ tray _ => d.trayLink tray
  | .ctxMsg _ _ _ => d.msgLink r.part r.txn.route.dstDev.toNat
  | .notice _ _ _ _ => d.msgLink r.part r.txn.route.dstDev.toNat
  | .sesNotice _ _ => d.msgLink r.part r.txn.route.dstDev.toNat

/-- Resends a tag with RTX = 1 and counts the retransmission. -/
def Dev.resendReq (d : Dev) (key : Nat) (r : ReqTag) : Dev :=
  let k := (d.resendLink r).getD r.link
  let r := { r with link := k, txn := { r.txn with rtx := true }, n := r.n + 1, phase := .sent }
  if d.isUp k then d.putReq key r
  else { d with txn := { d.txn with req := Tab.insert d.txn.req key { r with lastSend := d.tb.cueCount } } }

/-- T_DONE in cues (R150): a tray serves POOL, a MSG has 24. -/
def tDoneCues (r : ReqTag) : Nat := if r.typ = 5 then 24 else 40

end Sys2Proof.Machine
end

