-- ==== Sys2Proof/Machine/Context.lean ====
section
/-! DEFINITION. Thorum contexts (chapter 3): tickets, events, the end of a script, exceptions, dispatch, and the one operation
through which every instruction issues. -/

namespace Sys2Proof.Machine

/-! ## Tickets (R72 to R75) -/

/-- A ticket value: slot in [5:0], generation in [15:6] (R73). [DESIGN CHOICE: log 28] -/
def ticketVal (slot gen : Nat) : Nat := slot + gen % 1024 * 64

/-- The lowest slot that holds no ticket. [DESIGN CHOICE: log 28] -/
def Ctx.freeSlot (x : Ctx) : Option Nat := (List.range 64).find? (fun i => (Tab.find? x.tickets i).isNone)

/-- Whether all 64 tickets are held (R72). -/
def Ctx.exhausted (x : Ctx) : Bool := x.freeSlot.isNone

/-- Issues a ticket: its slot and generation; each issue of a slot advances its modular generation. [DESIGN CHOICE: log 28] -/
def Ctx.issueTicket (x : Ctx) (kind : TicketKind) : Ctx × Nat × Nat :=
  let slot := x.freeSlot.getD 0
  let gen := Tab.get 0 x.gens slot
  ({ x with tickets := Tab.insert x.tickets slot { gen := gen, kind := kind, done := none, lost := false, seq := x.issued },
            issued := x.issued + 1,
            gens := Tab.set 0 x.gens slot ((gen + 1) % 1024) }, slot, gen)

/-- Frees a ticket's slot. -/
def Ctx.freeTicket (x : Ctx) (slot : Nat) : Ctx := { x with tickets := Tab.erase x.tickets slot }

/-- The ticket that a value names, if it is held and not stale (R73). [DESIGN CHOICE: log 187] -/
def Ctx.ticketOf (x : Ctx) (v : Word) : Option (Nat × Ticket) :=
  let n := v.toNat % 65536
  match Tab.find? x.tickets (n % 64) with
  | some t => if t.gen = n / 64 then some (n % 64, t) else none
  | none => none

/-- Whether the ticket (slot, generation) of a context still runs. -/
def Ctx.ticketRuns (x : Ctx) (slot gen : Nat) : Bool := (Tab.find? x.tickets slot).any (fun t => t.gen == gen && t.done.isNone)

/-! ## Resuming -/

/-- The instruction at the PC has retired. -/
def Ctx.retire (x : Ctx) : Ctx := { x with pc := x.pc + 1, idleCues := 0 }

/-- A waiting context resumes behind its WAIT. -/
def Ctx.resume (x : Ctx) : Ctx := { x.retire with run := .running }

/-! ## The end of a script (R75, R87, R88) -/

/-- Takes the context's descriptors that have not started a work unit off the engine queues (R75); the snoops attached to one of them learn
that it was ABORTED (R288). -/
def dropUnstarted (q : Tab (List DescEntry)) (c : CtxId) : Tab (List DescEntry) :=
  let gone := fun (x : DescEntry) => !x.started && x.ctx == c
  let told := fun (x : DescEntry) =>
    if x.target.any (fun t => q.any (fun l => l.2.any (fun y => gone y && y.id == t))) then { x with targetDone := some .aborted } else x
  (q.map (fun e => (e.1, (e.2.filter (fun x => !gone x)).map told))).filter (fun e => e.2 ≠ [])

/-- The tickets of the discarded descriptors complete with ABORTED. -/
def abortTickets (q : Tab (List DescEntry)) (c : CtxId) (t : Tab Ticket) : Tab Ticket :=
  t.map (fun e =>
    if e.2.done.isNone && q.any (fun l => l.2.any (fun x => !x.started && x.ctx == c && x.slot == e.1 && x.gen == e.2.gen))
    then (e.1, { e.2 with done := some .aborted }) else e)

/-- A context ends for any reason: its unstarted descriptors are discarded and it waits for its tickets (R75). -/
def Dev.endCtx (d : Dev) (c : CtxId) : Dev :=
  let x := d.ctx c
  let q := d.eng.queue
  ({ d with eng := { d.eng with queue := dropUnstarted q c } } : Dev).setCtx c
    { x with run := .ended, tickets := abortTickets q c x.tickets, req := none, pendErr := none }

/-- Completes the request that the context serves. -/
def Dev.answerScript (d : Dev) (c : CtxId) (st : Status) (aux : Nat) (data : Bytes) : Dev :=
  match (d.ctx c).req with
  | some r => d.complete r .opreq st aux data
  | none => d

/-- Ends the script with a status (R85 to R88). -/
def Dev.endScript (d : Dev) (c : CtxId) (st : Status) (aux : Nat) (data : Bytes) : Dev :=
  (d.answerScript c st aux data).endCtx c

/-- Loads FLT_LAST_CTX and FLT_LAST_PC (R469). -/
def Dev.lastFault (d : Dev) (c : CtxId) (part code exc pc : Nat) : Dev :=
  { d with flt := { d.flt with
      lastCtx := BitVec.ofNat 64 (part + c.tile * 2 ^ 4 + c.core * 2 ^ 8 + c.ctx * 2 ^ 12 + code * 2 ^ 16 + exc * 2 ^ 32)
      lastPc := BitVec.ofNat 64 pc } }

/-- The exceptions of R88 with their numbers of R563. -/
inductive Exc where
  | badInstr | badLocal | accessViolation | ticketExhausted | badTicket | poisonUse | spaceError | trap
deriving DecidableEq, Repr

/-- [DEDUCED: log 93] -/
def excNumber : Exc → Nat
  | .badInstr => 1 | .badLocal => 2 | .accessViolation => 3 | .ticketExhausted => 4 | .badTicket => 5 | .poisonUse => 6
  | .spaceError => 7 | .trap => 8

/-- The request status of an exception (R88); SPACE_ERROR takes the access's own. [DEDUCED: log 93] -/
def excStatus : Exc → Status → Status
  | .badInstr, _ => .badRequest | .badLocal, _ => .badRequest | .accessViolation, _ => .access | .ticketExhausted, _ => .badRequest
  | .badTicket, _ => .badRequest | .poisonUse, _ => .poison | .spaceError, st => st | .trap, _ => .badRequest

/-- An exception ends the script at the faulting instruction: the fault record is written, R75 applied, and the request completed
(R88, R469). -/
def Dev.raise (d : Dev) (c : CtxId) (e : Exc) (st : Status) (pc : Nat) (w : BitVec 32) : Dev :=
  let p := (d.ctx c).part
  let d := d.report 0x0001 1 (ctxOrigin c p) pc (excNumber e + w.toNat * 2 ^ 32) 0 (statusCode (excStatus e st))
  (d.lastFault c p 0x0001 (excNumber e) pc).endScript c (excStatus e st) 0 []

/-- A failed posted store raises SPACE_ERROR at the first instruction boundary (R567): at once for a running context, else when
its WAIT ends. -/
def Dev.boundary (d : Dev) (c : CtxId) : Dev :=
  match (d.ctx c).run, (d.ctx c).pendErr with
  | .running, some (st, pc, w) => d.raise c .spaceError st pc w
  | _, _ => d

/-! ## Events (R90, R91) -/

/-- Sets an event bit; a wait.e that the bit is masked in resumes at once with the masked bits, which it clears. -/
def Dev.setEvent (d : Dev) (c : CtxId) (bit : Nat) : Dev :=
  let x := d.ctx c
  let ev := x.events ||| (1#32 <<< bit)
  match x.run with
  | .waitE mask _ rd =>
    if ev &&& mask = 0 then d.setCtx c { x with events := ev }
    else (d.setCtx c ((({ x with events := ev &&& ~~~mask } : Ctx).setG rd ((ev &&& mask).zeroExtend 64)).resume)).boundary c
  | _ => d.setCtx c { x with events := ev }

/-- A ticket completes with a status: a context that waits on it resumes with the status, and the ticket is freed (R74). -/
def Dev.ticketDone (d : Dev) (c : CtxId) (slot gen : Nat) (st : Status) (lost : Bool := false) : Dev :=
  let x := d.ctx c
  match Tab.find? x.tickets slot with
  | none => d
  | some t =>
    if t.gen ≠ gen ∨ t.done.isSome then d
    else match x.run with
      | .waitT s rd =>
        if s = slot then (d.setCtx c (((x.freeTicket slot).setG rd (BitVec.ofNat 64 (statusCode st))).resume)).boundary c
        else d.setCtx c { x with tickets := Tab.insert x.tickets slot { t with done := some st, lost := lost } }
      | _ => d.setCtx c { x with tickets := Tab.insert x.tickets slot { t with done := some st, lost := lost } }

/-! ## Bundles and bindings (R81, R97) -/

/-- The bundle image that a uid names. -/
def Dev.bundle (d : Dev) (uid : Nat) : Option Bundle := d.thr.bundles.find? (fun b => b.uid == uid)

/-- The binding of an operation code in a partition, with its bundle. -/
def Dev.binding (d : Dev) (p opcode : Nat) : Option (Bundle × Binding) :=
  (d.thr.bundles.filter (fun b => b.live && b.part == p)).findSome? (fun b =>
    (b.binds.find? (fun e => e.opcode == opcode)).map (fun e => (b, e)))

/-- THR_CFG of a partition: contexts per tile, queue depth, store quota. -/
def Dev.thrCfg (d : Dev) (p : Nat) : Nat × Nat × Nat := (Tab.find? d.thr.cfg p).getD (0, 0, 0)

/-! ## Dispatch (R29, R68, R82, R83) -/

/-- The tile that runs an OPREQ (R29). [DESIGN CHOICE: log 181] -/
def opreqTile (k : Nat) (t : Txn) : Nat :=
  match t.ops with
  | a :: _ =>
    if spaceOf a.toNat = 1 ∧ offOf a.toNat < nearSize then homeTile (offOf a.toNat)
    else if spaceOf a.toNat = 2 ∧ offOf a.toNat < stratSize then stackTile (stackOf (offOf a.toNat))
    else attachTile k
  | [] => attachTile k

/-- The contexts of a tile in order of core and context. [DESIGN CHOICE: log 29] -/
def ctxsOfTile (tile : Nat) : List CtxId :=
  (List.range 16).flatMap (fun core => (List.range 16).map (fun ctx => { tile := tile, core := core, ctx := ctx }))

/-- A free context of partition p on a tile. [DESIGN CHOICE: log 29] -/
def Dev.freeCtx (d : Dev) (p tile : Nat) : Option CtxId :=
  (ctxsOfTile tile).find? (fun c => d.ctxPart c == some p && (d.ctx c).run == .free)

/-- Register values at dispatch (R68). -/
def dispatchRegs (peer : Bool) (p : Nat) (r : ReqId) (t : Txn) (stamp : Nat) : List (Nat × Word) :=
  [(1, BitVec.ofNat 64 (r.opcode % 65536 + p * 2 ^ 16 + r.link * 2 ^ 20 + b2n peer * 2 ^ 26)), (2, BitVec.ofNat 64 t.data.length),
   (3, BitVec.ofNat 64 t.ops.length), (4, t.ops.getD 0 0), (5, t.ops.getD 1 0), (6, t.ops.getD 2 0), (7, t.ops.getD 3 0),
   (8, BitVec.ofNat 64 stamp)]

/-- Starts a request in a context (R68). [DESIGN CHOICE: log 29] -/
def Dev.startCtx (d : Dev) (c : CtxId) (p : Nat) (b : Bundle) (e : Binding) (r : ReqId) (t : Txn) (stamp : Nat) : Dev :=
  let x := d.ctx c
  let regs := dispatchRegs (d.role r.link == 3) p r t (d.seenTime p stamp)
  let x : Ctx := { x with
    run := .running, part := p, code := b.uid, pc := e.entry, g := regs.foldl (fun g kv => Tab.set 0 g kv.1 kv.2) [], p := 0, d := [],
    tickets := [], events := if x.msgq = [] then 0 else 1, req := some r, startCue := d.tb.cueCount, budget := e.budget, outst := [],
    pendErr := none, idleCues := 0, wdogFired := false }
  d.setCtx c (x.setLocal 0 (slice t.data 0 192))

/-- Key of the dispatch queue of a partition on a tile. -/
def dqKey (tile p : Nat) : Nat := tile * 16 + p

def Dev.dispatchQ (d : Dev) (tile p : Nat) : List QReq := Tab.get [] d.thr.queue (dqKey tile p)

def Dev.setDispatchQ (d : Dev) (tile p : Nat) (l : List QReq) : Dev := { d with thr := { d.thr with queue := Tab.set [] d.thr.queue (dqKey tile p) l } }

/-- The role bit of a link: ACC 0, PEER 1 (R81). -/
def roleBit (role : Nat) : Nat := if role = 3 then 1 else 0

/-- R82: an OPREQ that passed the checks of R137 is dispatched, queued or refused. [DEDUCED: log 48] -/
def Dev.dispatch (d : Dev) (p : Nat) (r : ReqId) (t : Txn) : Dev :=
  match d.binding p r.opcode with
  | none => d.complete r .opreq .badRequest 0 []
  | some (b, e) =>
    if 192 < t.data.length ∨ t.data.length < e.minArg then d.complete r .opreq .badRequest 0 []
    else if !bitAt e.roles (roleBit (d.role r.link)) then d.complete r .opreq .access 0 []
    else
      let tile := opreqTile r.link t
      let s := d.stampNow
      match d.freeCtx p tile with
      | some c => s.1.startCtx c p b e r t s.2
      | none =>
        if (d.dispatchQ tile p).length < (d.thrCfg p).2.1 then
          s.1.setDispatchQ tile p (d.dispatchQ tile p ++ [{ req := r, txn := t, cueIn := d.tb.cueCount, admitCues := e.admitCues, stamp := s.2 }])
        else d.complete r .opreq .busy 0 []

/-- A context takes the oldest request of its partition's queue; a request whose operation code is no longer bound completes with
BAD_REQUEST (R83, R97). The number bounds the requests so removed. [DESIGN CHOICE: log 186] -/
def Dev.takeQueued (d : Dev) (c : CtxId) (p : Nat) : Nat → Dev
  | 0 => d
  | n + 1 =>
    match d.dispatchQ c.tile p with
    | [] => d
    | q :: rest =>
      let d := d.setDispatchQ c.tile p rest
      match d.binding p q.req.opcode with
      | some (b, e) => d.startCtx c p b e q.req q.txn q.stamp
      | none => (d.complete q.req .opreq .badRequest 0 []).takeQueued c p n

/-- A context whose script has ended, whose tickets have completed and whose accesses have ended is FREE again (R75). [DESIGN CHOICE: log 36] -/
def Dev.freeContext (d : Dev) (c : CtxId) : Dev :=
  let x := d.ctx c
  if x.run = .ended ∧ x.tickets.all (fun t => t.2.done.isSome) ∧ x.outst = [] then
    let d := d.setCtx c { x with run := .free, tickets := [], part := 0, code := 0 }
    match d.ctxPart c with
    | some p => d.takeQueued c p ((d.dispatchQ c.tile p).length + 1)
    | none => d
  else d

/-! ## Issuing an instruction (R65, R560, R567) -/

/-- The g registers that an outstanding access will write (R562, R567). -/
def SpaceAcc.writes (a : SpaceAcc) : List Nat :=
  match a.kind, a.st with
  | .store, true => [a.rd]
  | .store, false => []
  | _, true => [a.rd, a.rd + 1]
  | _, false => [a.rd]

/-- Whether a named g register waits for an outstanding access. [DESIGN CHOICE: log 36] -/
def Ctx.stalls (x : Ctx) (regs : List Nat) : Bool := x.outst.any (fun a => a.writes.any (fun r => r ≠ 0 && r ∈ regs))

/-- The word at the context's PC; none outside the code section. [DEDUCED: log 35] -/
def Dev.wordAt (d : Dev) (x : Ctx) : Option (BitVec 32) :=
  match d.bundle x.code with
  | some b => b.words[x.pc]?
  | none => none

/-- The issue port of a core, as a scheduled resource (R65). -/
def issueRes (c : CtxId) : Nat := 2048 + c.tile * 16 + c.core

/-- Whether a context is ready: it runs, and its next word names no register that waits for an access (R65). [DESIGN CHOICE: log 193] -/
def Dev.readyCtx (d : Dev) (x : Ctx) : Bool :=
  x.run == .running && !(match d.wordAt x with
    | some w => x.stalls [(rdOf w).toNat, (raOf w).toNat, (rbOf w).toNat]
    | none => false)

/-- Whether a partition has a ready context on a core, reserved context 15 apart. -/
def Dev.issuePending (d : Dev) (c : CtxId) (q : Nat) : Bool :=
  d.thr.ctxs.any (fun (e : Nat × Ctx) => e.1 / 16 == ctxKey c / 16 && e.1 % 16 != 15 && e.2.part == q && d.readyCtx e.2)

/-- The issue slot that a context takes: context 15 issues in wings slots, every other in a foreground slot of its partition (R65). None:
no slot is left to the partition in this cue. -/
def Dev.issueSlot (d : Dev) (c : CtxId) : Option Dev :=
  if c.ctx = 15 then some d else takeSlots (issueRes c) (d.issuePending c) (d.ctx c).part 1 (d.slotsLeft (issueRes c)) d

/-- Whether context c issues word w now: it is running, w stands at its PC, no named register is being waited for, and its core has an
issue slot for it. -/
def Dev.issues (d : Dev) (c : CtxId) (w : BitVec 32) (regs : List Nat) : Bool :=
  let x := d.ctx c
  x.run == .running && d.wordAt x == some w && !x.stalls regs && (d.issueSlot c).isSome

/-- The device once the slot of an instruction is taken. -/
def Dev.slotted (d : Dev) (c : CtxId) : Dev := (d.issueSlot c).getD d

/-- An instruction event: where the context does not issue the word, nothing happens; a word that R560 refuses raises BAD_INSTR;
else the body acts. [DEDUCED: log 34, 35] -/
def issue (c : CtxId) (w : BitVec 32) (regs : List Nat) (body : Dev → Ctx → Dev) (d : Dev) : Dev :=
  if d.issues c w regs then
    if staticOk w then body (d.slotted c) (d.ctx c) else (d.slotted c).raise c .badInstr .ok (d.ctx c).pc w
  else d

/-- An instruction that may have to wait where it stands: without an answer of the body its context is stalled, which takes no slot (R65). -/
def issueUnlessHeld (c : CtxId) (w : BitVec 32) (regs : List Nat) (body : Dev → Ctx → Option Dev) (d : Dev) : Dev :=
  issue c w regs (fun e x => (body e x).getD d) d

/-- An instruction that only changes its context and retires. -/
def issueCtx (c : CtxId) (w : BitVec 32) (regs : List Nat) (f : Ctx → Ctx) (d : Dev) : Dev :=
  issue c w regs (fun d x => d.setCtx c (f x).retire) d

/-! ## Deadlines of contexts (R83, R85) -/

/-- At a cue boundary a queued request that has waited ADMIT cues completes with BUSY (R83). -/
def Dev.admitTimeout (d : Dev) (tile p : Nat) : Dev :=
  let late := (d.dispatchQ tile p).filter (fun q => q.cueIn + q.admitCues ≤ d.tb.cueCount)
  let d := d.setDispatchQ tile p ((d.dispatchQ tile p).filter (fun q => !(q.cueIn + q.admitCues ≤ d.tb.cueCount)))
  late.foldl (fun d q => d.complete q.req .opreq .busy 0 []) d

/-- A script that still runs or waits. -/
def Ctx.active (x : Ctx) : Bool :=
  match x.run with
  | .free => false
  | .ended => false
  | _ => true

/-- The cue budget of a script is reached (R85). -/
def Dev.budgetTimeout (d : Dev) (c : CtxId) : Dev :=
  let x := d.ctx c
  if x.active ∧ x.startCue + x.budget ≤ d.tb.cueCount then d.endScript c .timeout 0 [] else d

end Sys2Proof.Machine
end

