-- ==== Sys2Proof/Machine/Alu.lean ====
section
/-! DEFINITION. The ALU and immediate instructions, branches, and the moves of predicate and descriptor registers
(R564, R565). -/

namespace Sys2Proof.Machine

/-! ## Operations of R565 -/

/-- Shift amounts are taken from bits [5:0] (R565). -/
def shAmt (b : Word) : Nat := b.toNat % 64

/-- High 64 bits of the signed product. -/
def mulHigh (a b : Word) : Word := BitVec.ofInt 64 (a.toInt * b.toInt / 2 ^ 64)

/-- High 64 bits of the unsigned product. -/
def mulHighU (a b : Word) : Word := BitVec.ofNat 64 (a.toNat * b.toNat / 2 ^ 64)

/-- divu: division by 0 gives all ones (R565). -/
def divU (a b : Word) : Word := if b = 0 then BitVec.allOnes 64 else BitVec.ofNat 64 (a.toNat / b.toNat)

/-- remu: division by 0 gives g[ra] (R565). -/
def remU (a b : Word) : Word := if b = 0 then a else BitVec.ofNat 64 (a.toNat % b.toNat)

/-- Sign-extends the low n bits. -/
def sextLow (n : Nat) (a : Word) : Word := BitVec.ofInt 64 (sextInt n a.toNat)

/-- Leading zeros; 64 for 0. -/
def clz64 (a : Word) : Word := BitVec.ofNat 64 (64 - bitLen a.toNat)

/-- Set bits. -/
def popc64 (a : Word) : Word := BitVec.ofNat 64 (popNat 64 a.toNat)

/-- An instruction that writes g[rd] from g[ra] and g[rb]. -/
def alu2 (c : CtxId) (w : BitVec 32) (f : RegF) (op : Word → Word → Word) : Dev → Dev :=
  issueCtx c w [f.rd.toNat, f.ra.toNat, f.rb.toNat] (fun x => x.setG f.rd.toNat (op (x.gr f.ra.toNat) (x.gr f.rb.toNat)))

/-- An instruction that writes g[rd] from g[ra]. -/
def alu1 (c : CtxId) (w : BitVec 32) (f : RegF) (op : Word → Word) : Dev → Dev :=
  issueCtx c w [f.rd.toNat, f.ra.toNat] (fun x => x.setG f.rd.toNat (op (x.gr f.ra.toNat)))

/-- A compare of two g registers into p[rd]. -/
def aluCmp (c : CtxId) (w : BitVec 32) (f : RegF) (cond : Cond) : Dev → Dev :=
  issueCtx c w [f.ra.toNat, f.rb.toNat] (fun x => x.setP f.rd.toNat (cond.holds (x.gr f.ra.toNat) (x.gr f.rb.toNat)))

/-- An operation on predicate registers. -/
def aluPred (c : CtxId) (w : BitVec 32) (f : RegF) (op : Bool → Bool → Bool) : Dev → Dev :=
  issueCtx c w [] (fun x => x.setP f.rd.toNat (op (x.pr f.ra.toNat) (x.pr f.rb.toNat)))

/-- An instruction that writes g[rd] from g[ra] and an immediate. -/
def immOp (c : CtxId) (w : BitVec 32) (f : ImmF) (op : Word → Word) : Dev → Dev :=
  issueCtx c w [f.rd.toNat, f.ra.toNat] (fun x => x.setG f.rd.toNat (op (x.gr f.ra.toNat)))

/-- A branch: the PC goes to its target where the condition holds, else to the next word. -/
def branch (c : CtxId) (w : BitVec 32) (f : BrF) (regs : List Nat) (cond : Ctx → Bool) : Dev → Dev :=
  issue c w regs (fun d x =>
    d.setCtx c (if cond x then { x.retire with pc := branchTo x.pc f.off } else x.retire))

/-- A LOCAL load of a size into g[rd] (R70). -/
def loadLocal (c : CtxId) (w : BitVec 32) (f : ImmF) (size : Nat) : Dev → Dev :=
  issue c w [f.rd.toNat, f.ra.toNat] (fun d x =>
    if badLocal (memAddr x f size) size then d.raise c .badLocal .ok x.pc w
    else d.setCtx c (x.setG f.rd.toNat (BitVec.ofNat 64 (leNat (x.local (memAddr x f size).toNat size)))).retire)

/-- A LOCAL store of a size: BAD_LOCAL first, then ACCESS_VIOLATION in the image range (R70). -/
def storeLocal (c : CtxId) (w : BitVec 32) (f : ImmF) (size : Nat) (regs : List Nat) (v : Ctx → Bytes) : Dev → Dev :=
  issue c w regs (fun d x =>
    if badLocal (memAddr x f size) size then d.raise c .badLocal .ok x.pc w
    else if inImages (memAddr x f size).toNat then d.raise c .accessViolation .ok x.pc w
    else d.setCtx c (x.setLocal (memAddr x f size).toNat (v x)).retire)

/-! ## Meanings -/

/-- g[rd] = g[ra] + g[rb] (R565). -/
def execAdd (c : CtxId) (f : RegF) (s : State) : Host.Outcome State Fault Refusal :=
  s.run (alu2 c (encode (.add f)) f (fun a b => a + b))

/-- g[rd] = g[ra] - g[rb] (R565). -/
def execSub (c : CtxId) (f : RegF) (s : State) : Host.Outcome State Fault Refusal :=
  s.run (alu2 c (encode (.sub f)) f (fun a b => a - b))

/-- Bitwise and (R565). -/
def execAnd (c : CtxId) (f : RegF) (s : State) : Host.Outcome State Fault Refusal :=
  s.run (alu2 c (encode (.and f)) f (fun a b => a &&& b))

/-- Bitwise or (R565). -/
def execOr (c : CtxId) (f : RegF) (s : State) : Host.Outcome State Fault Refusal :=
  s.run (alu2 c (encode (.or f)) f (fun a b => a ||| b))

/-- Bitwise exclusive or (R565). -/
def execXor (c : CtxId) (f : RegF) (s : State) : Host.Outcome State Fault Refusal :=
  s.run (alu2 c (encode (.xor f)) f (fun a b => a ^^^ b))

/-- Shift left by g[rb][5:0] (R565). -/
def execShl (c : CtxId) (f : RegF) (s : State) : Host.Outcome State Fault Refusal :=
  s.run (alu2 c (encode (.shl f)) f (fun a b => a <<< shAmt b))

/-- Logical shift right by g[rb][5:0] (R565). -/
def execShr (c : CtxId) (f : RegF) (s : State) : Host.Outcome State Fault Refusal :=
  s.run (alu2 c (encode (.shr f)) f (fun a b => a >>> shAmt b))

/-- Arithmetic shift right by g[rb][5:0] (R565). -/
def execSra (c : CtxId) (f : RegF) (s : State) : Host.Outcome State Fault Refusal :=
  s.run (alu2 c (encode (.sra f)) f (fun a b => a.sshiftRight (shAmt b)))

/-- Low 64 bits of the product (R565). -/
def execMul (c : CtxId) (f : RegF) (s : State) : Host.Outcome State Fault Refusal :=
  s.run (alu2 c (encode (.mul f)) f (fun a b => a * b))

/-- High 64 bits of the unsigned product (R565). -/
def execMulhu (c : CtxId) (f : RegF) (s : State) : Host.Outcome State Fault Refusal :=
  s.run (alu2 c (encode (.mulhu f)) f mulHighU)

/-- High 64 bits of the signed product (R565). -/
def execMulh (c : CtxId) (f : RegF) (s : State) : Host.Outcome State Fault Refusal :=
  s.run (alu2 c (encode (.mulh f)) f mulHigh)

/-- Unsigned division (R565). -/
def execDivu (c : CtxId) (f : RegF) (s : State) : Host.Outcome State Fault Refusal :=
  s.run (alu2 c (encode (.divu f)) f divU)

/-- Unsigned remainder (R565). -/
def execRemu (c : CtxId) (f : RegF) (s : State) : Host.Outcome State Fault Refusal :=
  s.run (alu2 c (encode (.remu f)) f remU)

/-- Signed minimum (R565). -/
def execMin (c : CtxId) (f : RegF) (s : State) : Host.Outcome State Fault Refusal :=
  s.run (alu2 c (encode (.min f)) f (fun a b => if a.slt b then a else b))

/-- Signed maximum (R565). -/
def execMax (c : CtxId) (f : RegF) (s : State) : Host.Outcome State Fault Refusal :=
  s.run (alu2 c (encode (.max f)) f (fun a b => if a.slt b then b else a))

/-- Unsigned minimum (R565). -/
def execMinu (c : CtxId) (f : RegF) (s : State) : Host.Outcome State Fault Refusal :=
  s.run (alu2 c (encode (.minu f)) f (fun a b => if a.ult b then a else b))

/-- Unsigned maximum (R565). -/
def execMaxu (c : CtxId) (f : RegF) (s : State) : Host.Outcome State Fault Refusal :=
  s.run (alu2 c (encode (.maxu f)) f (fun a b => if a.ult b then b else a))

/-- Sign-extends the low 8 bits of g[ra] (R565). -/
def execSxtb (c : CtxId) (f : RegF) (s : State) : Host.Outcome State Fault Refusal :=
  s.run (alu1 c (encode (.sxtb f)) f (sextLow 8))

/-- Sign-extends the low 16 bits of g[ra] (R565). -/
def execSxth (c : CtxId) (f : RegF) (s : State) : Host.Outcome State Fault Refusal :=
  s.run (alu1 c (encode (.sxth f)) f (sextLow 16))

/-- Sign-extends the low 32 bits of g[ra] (R565). -/
def execSxtw (c : CtxId) (f : RegF) (s : State) : Host.Outcome State Fault Refusal :=
  s.run (alu1 c (encode (.sxtw f)) f (sextLow 32))

/-- Leading zeros of g[ra] (R565). -/
def execClz (c : CtxId) (f : RegF) (s : State) : Host.Outcome State Fault Refusal :=
  s.run (alu1 c (encode (.clz f)) f clz64)

/-- Set bits of g[ra] (R565). -/
def execPopc (c : CtxId) (f : RegF) (s : State) : Host.Outcome State Fault Refusal :=
  s.run (alu1 c (encode (.popc f)) f popc64)

/-- g[rd] = p[FN[2:0]] ? g[ra] : g[rb] (R565). -/
def execSel (c : CtxId) (f : RegF) (p : BitVec 3) (s : State) : Host.Outcome State Fault Refusal :=
  s.run (issueCtx c (encode (.sel f p)) [f.rd.toNat, f.ra.toNat, f.rb.toNat]
    (fun x => x.setG f.rd.toNat (if x.pr p.toNat then x.gr f.ra.toNat else x.gr f.rb.toNat)))

/-- p[rd] = g[ra] eq g[rb] (R565). -/
def execCmpeq (c : CtxId) (f : RegF) (s : State) : Host.Outcome State Fault Refusal :=
  s.run (aluCmp c (encode (.cmpeq f)) f .eq)

/-- p[rd] = g[ra] ne g[rb] (R565). -/
def execCmpne (c : CtxId) (f : RegF) (s : State) : Host.Outcome State Fault Refusal :=
  s.run (aluCmp c (encode (.cmpne f)) f .ne)

/-- p[rd] = g[ra] lt g[rb] (R565). -/
def execCmplt (c : CtxId) (f : RegF) (s : State) : Host.Outcome State Fault Refusal :=
  s.run (aluCmp c (encode (.cmplt f)) f .lt)

/-- p[rd] = g[ra] ltu g[rb] (R565). -/
def execCmpltu (c : CtxId) (f : RegF) (s : State) : Host.Outcome State Fault Refusal :=
  s.run (aluCmp c (encode (.cmpltu f)) f .ltu)

/-- p[rd] = g[ra] le g[rb] (R565). -/
def execCmple (c : CtxId) (f : RegF) (s : State) : Host.Outcome State Fault Refusal :=
  s.run (aluCmp c (encode (.cmple f)) f .le)

/-- p[rd] = g[ra] leu g[rb] (R565). -/
def execCmpleu (c : CtxId) (f : RegF) (s : State) : Host.Outcome State Fault Refusal :=
  s.run (aluCmp c (encode (.cmpleu f)) f .leu)

/-- p[rd] = g[ra] gt g[rb] (R565). -/
def execCmpgt (c : CtxId) (f : RegF) (s : State) : Host.Outcome State Fault Refusal :=
  s.run (aluCmp c (encode (.cmpgt f)) f .gt)

/-- p[rd] = g[ra] gtu g[rb] (R565). -/
def execCmpgtu (c : CtxId) (f : RegF) (s : State) : Host.Outcome State Fault Refusal :=
  s.run (aluCmp c (encode (.cmpgtu f)) f .gtu)

/-- p[rd] = g[ra] ge g[rb] (R565). -/
def execCmpge (c : CtxId) (f : RegF) (s : State) : Host.Outcome State Fault Refusal :=
  s.run (aluCmp c (encode (.cmpge f)) f .ge)

/-- p[rd] = g[ra] geu g[rb] (R565). -/
def execCmpgeu (c : CtxId) (f : RegF) (s : State) : Host.Outcome State Fault Refusal :=
  s.run (aluCmp c (encode (.cmpgeu f)) f .geu)

/-- p[rd] = (g[ra] ≠ 0) (R565). -/
def execPmov (c : CtxId) (f : RegF) (s : State) : Host.Outcome State Fault Refusal :=
  s.run (issueCtx c (encode (.pmov f)) [f.ra.toNat] (fun x => x.setP f.rd.toNat (x.gr f.ra.toNat != 0)))

/-- g[rd] = p[ra] (R565). -/
def execPget (c : CtxId) (f : RegF) (s : State) : Host.Outcome State Fault Refusal :=
  s.run (issueCtx c (encode (.pget f)) [f.rd.toNat] (fun x => x.setG f.rd.toNat (if x.pr f.ra.toNat then 1 else 0)))

/-- p[rd] = p[ra] op p[rb] (R565). -/
def execPand (c : CtxId) (f : RegF) (s : State) : Host.Outcome State Fault Refusal :=
  s.run (aluPred c (encode (.pand f)) f (fun a b => a && b))

/-- p[rd] = p[ra] op p[rb] (R565). -/
def execPor (c : CtxId) (f : RegF) (s : State) : Host.Outcome State Fault Refusal :=
  s.run (aluPred c (encode (.por f)) f (fun a b => a || b))

/-- p[rd] = p[ra] op p[rb] (R565). -/
def execPxor (c : CtxId) (f : RegF) (s : State) : Host.Outcome State Fault Refusal :=
  s.run (aluPred c (encode (.pxor f)) f (fun a b => a != b))

/-- p[rd] = NOT p[ra] (R565). -/
def execPnot (c : CtxId) (f : RegF) (s : State) : Host.Outcome State Fault Refusal :=
  s.run (issueCtx c (encode (.pnot f)) [] (fun x => x.setP f.rd.toNat (!x.pr f.ra.toNat)))

/-- g[rd] = g[ra] + imm14, sign-extended (R564). -/
def execAddi (c : CtxId) (f : ImmF) (s : State) : Host.Outcome State Fault Refusal :=
  s.run (immOp c (encode (.addi f)) f (fun a => a + sext14 f.imm))

/-- g[rd] = g[ra] and imm14, zero-extended (R564). -/
def execAndi (c : CtxId) (f : ImmF) (s : State) : Host.Outcome State Fault Refusal :=
  s.run (immOp c (encode (.andi f)) f (fun a => a &&& zext14 f.imm))

/-- g[rd] = g[ra] or imm14, zero-extended (R564). -/
def execOri (c : CtxId) (f : ImmF) (s : State) : Host.Outcome State Fault Refusal :=
  s.run (immOp c (encode (.ori f)) f (fun a => a ||| zext14 f.imm))

/-- g[rd] = g[ra] xor imm14, zero-extended (R564). -/
def execXori (c : CtxId) (f : ImmF) (s : State) : Host.Outcome State Fault Refusal :=
  s.run (immOp c (encode (.xori f)) f (fun a => a ^^^ zext14 f.imm))

/-- Shift left by imm14[5:0] (R564). -/
def execShli (c : CtxId) (f : ImmF) (s : State) : Host.Outcome State Fault Refusal :=
  s.run (immOp c (encode (.shli f)) f (fun a => a <<< (f.imm.toNat % 64)))

/-- Logical shift right by imm14[5:0] (R564). -/
def execShri (c : CtxId) (f : ImmF) (s : State) : Host.Outcome State Fault Refusal :=
  s.run (immOp c (encode (.shri f)) f (fun a => a >>> (f.imm.toNat % 64)))

/-- Arithmetic shift right by imm14[5:0] (R564). -/
def execSrai (c : CtxId) (f : ImmF) (s : State) : Host.Outcome State Fault Refusal :=
  s.run (immOp c (encode (.srai f)) f (fun a => a.sshiftRight (f.imm.toNat % 64)))

/-- p[pd] = g[ra] CC imm14 (R564). -/
def execCmpi (c : CtxId) (f : CmpF) (s : State) : Host.Outcome State Fault Refusal :=
  s.run (issueCtx c (encode (.cmpi f)) [f.ra.toNat]
    (fun x => x.setP f.pd.toNat ((condOfCC f.cc).holds (x.gr f.ra.toNat) (cmpImm f.cc f.imm))))

/-- g[rd] = sext(imm20) (R564). -/
def execLi (c : CtxId) (f : LongF) (s : State) : Host.Outcome State Fault Refusal :=
  s.run (issueCtx c (encode (.li f)) [f.rd.toNat] (fun x => x.setG f.rd.toNat (sext20 f.imm)))

/-- g[rd] = (g[rd] << 20) | imm20, zero-extended (R564). -/
def execLis (c : CtxId) (f : LongF) (s : State) : Host.Outcome State Fault Refusal :=
  s.run (issueCtx c (encode (.lis f)) [f.rd.toNat]
    (fun x => x.setG f.rd.toNat ((x.gr f.rd.toNat <<< 20) ||| f.imm.zeroExtend 64)))

/-- pc += off20 (R564). -/
def execB (c : CtxId) (f : BrF) (s : State) : Host.Outcome State Fault Refusal :=
  s.run (branch c (encode (.b f)) f [] (fun _ => true))

/-- g[ra] = pc + 1; pc += off20 (R564). -/
def execBl (c : CtxId) (f : BrF) (s : State) : Host.Outcome State Fault Refusal :=
  s.run (issue c (encode (.bl f)) [f.ra.toNat]
    (fun d x => d.setCtx c { (x.setG f.ra.toNat (BitVec.ofNat 64 (x.pc + 1))).retire with pc := branchTo x.pc f.off }))

/-- Branches if g[ra] = 0 (R564). -/
def execBeqz (c : CtxId) (f : BrF) (s : State) : Host.Outcome State Fault Refusal :=
  s.run (branch c (encode (.beqz f)) f [f.ra.toNat] (fun x => x.gr f.ra.toNat == 0))

/-- Branches if g[ra] ≠ 0 (R564). -/
def execBnez (c : CtxId) (f : BrF) (s : State) : Host.Outcome State Fault Refusal :=
  s.run (branch c (encode (.bnez f)) f [f.ra.toNat] (fun x => x.gr f.ra.toNat != 0))

/-- Branches if p[ra] is 1 (R564). -/
def execBp (c : CtxId) (f : BrF) (s : State) : Host.Outcome State Fault Refusal :=
  s.run (branch c (encode (.bp f)) f [] (fun x => x.pr f.ra.toNat))

/-- Branches if p[ra] is 0 (R564). -/
def execBnp (c : CtxId) (f : BrF) (s : State) : Host.Outcome State Fault Refusal :=
  s.run (branch c (encode (.bnp f)) f [] (fun x => !x.pr f.ra.toNat))

/-- pc = g[ra] (R564). -/
def execJr (c : CtxId) (f : RegFnF) (s : State) : Host.Outcome State Fault Refusal :=
  s.run (issue c (encode (.jr f)) [f.ra.toNat] (fun d x => d.setCtx c { x.retire with pc := (x.gr f.ra.toNat).toNat }))

/-- Bits [POS + W - 1 : POS] of d[dd] = g[ra][W - 1:0] (R564). -/
def execDins (c : CtxId) (f : DinsF) (s : State) : Host.Outcome State Fault Refusal :=
  s.run (issueCtx c (encode (.dins f)) [f.ra.toNat]
    (fun x => x.setD f.dd.toNat (BitVec.ofNat 512 (setFld (x.dr f.dd.toNat).toNat f.pos.toNat (f.wm1.toNat + 1) (x.gr f.ra.toNat).toNat))))

/-- g[rd] = zext(d[ds][POS + W - 1 : POS]) (R564). -/
def execDext (c : CtxId) (f : DextF) (s : State) : Host.Outcome State Fault Refusal :=
  s.run (issueCtx c (encode (.dext f)) [f.rd.toNat]
    (fun x => x.setG f.rd.toNat (BitVec.ofNat 64 (dfld (x.dr f.ds.toNat) f.pos.toNat (f.wm1.toNat + 1)))))

/-- d[rd] = d[ra] (R564). -/
def execDmov (c : CtxId) (f : RegF) (s : State) : Host.Outcome State Fault Refusal :=
  s.run (issueCtx c (encode (.dmov f)) [] (fun x => x.setD f.rd.toNat (x.dr f.ra.toNat)))

/-- d[rd] = 0 (R564). -/
def execDclr (c : CtxId) (f : RegF) (s : State) : Host.Outcome State Fault Refusal :=
  s.run (issueCtx c (encode (.dclr f)) [] (fun x => x.setD f.rd.toNat 0))

/-- A word whose major opcode is reserved, or any word where the PC lies outside the code section, raises BAD_INSTR (R560). [DEDUCED: log 35] -/
def execUndefinedEncoding (c : CtxId) (w : BitVec 32) (s : State) : Host.Outcome State Fault Refusal :=
  s.run (fun d =>
    let x := d.ctx c
    if x.run = .running ∧ (d.issueSlot c).isSome then
      match d.wordAt x with
      | none => (d.slotted c).raise c .badInstr .ok x.pc w
      | some v => if v = w ∧ staticOk w = false then (d.slotted c).raise c .badInstr .ok x.pc w else d
    else d)

/-- trap: raises TRAP where p[p] is 1; imm16 reaches the fault record within the word (R564, R573). -/
def execTrap (c : CtxId) (f : ShortF) (s : State) : Host.Outcome State Fault Refusal :=
  s.run (issue c (encode (.trap f)) [] (fun d x =>
    if x.pr f.p.toNat then d.raise c .trap .ok x.pc (encode (.trap f)) else d.setCtx c x.retire))

/-- ldl.b: g[rd] = zext of 1 byte(s) of LOCAL (R70). -/
def execLdlB (c : CtxId) (f : ImmF) (s : State) : Host.Outcome State Fault Refusal :=
  s.run (loadLocal c (encode (.ldlB f)) f 1)

/-- stl.b: 1 low byte(s) of g[rd] to LOCAL (R70). -/
def execStlB (c : CtxId) (f : ImmF) (s : State) : Host.Outcome State Fault Refusal :=
  s.run (storeLocal c (encode (.stlB f)) f 1 [f.rd.toNat, f.ra.toNat] (fun x => leBytes 1 (x.gr f.rd.toNat).toNat))

/-- ldl.h: g[rd] = zext of 2 byte(s) of LOCAL (R70). -/
def execLdlH (c : CtxId) (f : ImmF) (s : State) : Host.Outcome State Fault Refusal :=
  s.run (loadLocal c (encode (.ldlH f)) f 2)

/-- stl.h: 2 low byte(s) of g[rd] to LOCAL (R70). -/
def execStlH (c : CtxId) (f : ImmF) (s : State) : Host.Outcome State Fault Refusal :=
  s.run (storeLocal c (encode (.stlH f)) f 2 [f.rd.toNat, f.ra.toNat] (fun x => leBytes 2 (x.gr f.rd.toNat).toNat))

/-- ldl.w: g[rd] = zext of 4 byte(s) of LOCAL (R70). -/
def execLdlW (c : CtxId) (f : ImmF) (s : State) : Host.Outcome State Fault Refusal :=
  s.run (loadLocal c (encode (.ldlW f)) f 4)

/-- stl.w: 4 low byte(s) of g[rd] to LOCAL (R70). -/
def execStlW (c : CtxId) (f : ImmF) (s : State) : Host.Outcome State Fault Refusal :=
  s.run (storeLocal c (encode (.stlW f)) f 4 [f.rd.toNat, f.ra.toNat] (fun x => leBytes 4 (x.gr f.rd.toNat).toNat))

/-- ldl.d: g[rd] = zext of 8 byte(s) of LOCAL (R70). -/
def execLdlD (c : CtxId) (f : ImmF) (s : State) : Host.Outcome State Fault Refusal :=
  s.run (loadLocal c (encode (.ldlD f)) f 8)

/-- stl.d: 8 low byte(s) of g[rd] to LOCAL (R70). -/
def execStlD (c : CtxId) (f : ImmF) (s : State) : Host.Outcome State Fault Refusal :=
  s.run (storeLocal c (encode (.stlD f)) f 8 [f.rd.toNat, f.ra.toNat] (fun x => leBytes 8 (x.gr f.rd.toNat).toNat))

/-- ldd: d[rd] = 64 B of LOCAL (R70). -/
def execLdd (c : CtxId) (f : ImmF) (s : State) : Host.Outcome State Fault Refusal :=
  s.run (issue c (encode (.ldd f)) [f.ra.toNat] (fun d x =>
    if badLocal (memAddr x f 64) 64 then d.raise c .badLocal .ok x.pc (encode (.ldd f))
    else d.setCtx c (x.setD f.rd.toNat (BitVec.ofNat 512 (leNat (x.local (memAddr x f 64).toNat 64)))).retire))

/-- std: 64 B of LOCAL = d[rd] (R70). -/
def execStd (c : CtxId) (f : ImmF) (s : State) : Host.Outcome State Fault Refusal :=
  s.run (storeLocal c (encode (.std f)) f 64 [f.ra.toNat] (fun x => descBytes (x.dr f.rd.toNat)))

end Sys2Proof.Machine
end

