-- ==== Sys2Proof/Machine/Fp.lean ====
section
/-! DEFINITION. Binary floating point by exact integers: a finite value is m × 2^e, operations are exact, and one function rounds to
a format (round to nearest, ties to even, subnormal values kept). -/

namespace Sys2Proof.Machine

/-- What the top exponent of a format holds: infinities and NaN, numbers and one NaN (E4M3), or numbers alone (FP6, FP4). -/
inductive FpTop where
  | ieee | oneNan | finite
deriving DecidableEq, Repr

/-- A format of eb exponent bits and mb fraction bits. -/
structure FpFmt where
  eb : Nat
  mb : Nat
  top : FpTop
deriving DecidableEq, Repr

def fp32 : FpFmt := { eb := 8, mb := 23, top := .ieee }
def fp16 : FpFmt := { eb := 5, mb := 10, top := .ieee }
def bf16 : FpFmt := { eb := 8, mb := 7, top := .ieee }
def e4m3 : FpFmt := { eb := 4, mb := 3, top := .oneNan }
def e5m2 : FpFmt := { eb := 5, mb := 2, top := .ieee }
def e2m3 : FpFmt := { eb := 2, mb := 3, top := .finite }
def e3m2 : FpFmt := { eb := 3, mb := 2, top := .finite }
def e2m1 : FpFmt := { eb := 2, mb := 1, top := .finite }

/-- A floating-point datum. The sign of a zero is kept. -/
inductive Fp where
  | nan
  | inf (neg : Bool)
  /-- (-1)^neg × m × 2^e -/
  | fin (neg : Bool) (m : Nat) (e : Int)
deriving DecidableEq, Repr

def FpFmt.bias (f : FpFmt) : Int := 2 ^ (f.eb - 1) - 1

/-- The datum of a bit pattern. -/
def fpDec (f : FpFmt) (v : Nat) : Fp :=
  let neg := bitAt v (f.eb + f.mb)
  let x := fld v f.mb f.eb
  let m := fld v 0 f.mb
  if f.top = .ieee ∧ x = 2 ^ f.eb - 1 then (if m = 0 then .inf neg else .nan)
  else if f.top = .oneNan ∧ x = 2 ^ f.eb - 1 ∧ m = 2 ^ f.mb - 1 then .nan
  else if x = 0 then .fin neg m (1 - f.bias - f.mb)
  else .fin neg (2 ^ f.mb + m) ((x : Int) - f.bias - f.mb)

/-- The first magnitude pattern that is not a finite value. -/
def FpFmt.lim (f : FpFmt) : Nat :=
  match f.top with
  | .ieee => (2 ^ f.eb - 1) * 2 ^ f.mb
  | .oneNan => 2 ^ (f.eb + f.mb) - 1
  | .finite => 2 ^ (f.eb + f.mb)

/-- The pattern of NaN: 0x7FC0_0000 in binary32, and its like; E4M3 has one, FP6 and FP4 none. -/
def fpNan (f : FpFmt) : Nat := if f.top = .ieee then f.lim + 2 ^ (f.mb - 1) else 2 ^ (f.eb + f.mb) - 1

def fpSign (f : FpFmt) (neg : Bool) : Nat := if neg then 2 ^ (f.eb + f.mb) else 0

/-- Greatest finite pattern. -/
def fpMax (f : FpFmt) (neg : Bool) : Nat := fpSign f neg + (f.lim - 1)

/-- Infinity; the greatest finite value where the format has none. -/
def fpInf (f : FpFmt) (neg : Bool) : Nat := if f.top = .ieee then fpSign f neg + f.lim else fpMax f neg

/-- m × 2^k rounded to an integer, to nearest with ties to even. -/
def shiftRne (m : Nat) (k : Int) : Nat := if 0 ≤ k then m * 2 ^ k.toNat else rneDiv m (2 ^ (-k).toNat)

/-- Rounds m × 2^e to a format: exponent field and fraction follow from the rounded significand; a value beyond the greatest finite
one is over. -/
def fpRoundMag (f : FpFmt) (m : Nat) (e : Int) : Nat × Bool :=
  if m = 0 then (0, false)
  else
    let emin : Int := 1 - f.bias - f.mb
    let top : Int := e + bitLen m - 1 - f.mb
    let q := if emin ≤ top then top else emin
    let r := shiftRne m (e - q)
    let carries := r = 2 ^ (f.mb + 1)
    let r' := if carries then 2 ^ f.mb else r
    let q' := if carries then q + 1 else q
    let bits : Nat := if r' < 2 ^ f.mb then r' else (q' - emin + 1).toNat * 2 ^ f.mb + (r' - 2 ^ f.mb)
    if f.lim ≤ bits then (0, true) else (bits, false)

/-- The pattern of a datum in a format; overflow gives infinity. -/
def fpEnc (f : FpFmt) : Fp → Nat
  | .nan => fpNan f
  | .inf neg => fpInf f neg
  | .fin neg m e =>
    let x := fpRoundMag f m e
    if x.2 then fpInf f neg else fpSign f neg + x.1

/-- A datum rounded to a format. -/
def fpRound (f : FpFmt) (x : Fp) : Fp := fpDec f (fpEnc f x)

def signed (neg : Bool) (m : Nat) : Int := if neg then -(m : Int) else m

/-- Exact sum. A zero sum is +0 unless both are -0. -/
def fpAdd : Fp → Fp → Fp
  | .nan, _ => .nan
  | _, .nan => .nan
  | .inf a, .inf b => if a = b then .inf a else .nan
  | .inf a, _ => .inf a
  | _, .inf b => .inf b
  | .fin na ma ea, .fin nb mb eb =>
    let e := min ea eb
    let s := signed na (ma * 2 ^ (ea - e).toNat) + signed nb (mb * 2 ^ (eb - e).toNat)
    if s = 0 then .fin (na && nb) 0 e else .fin (s < 0) s.natAbs e

/-- Exact product. -/
def fpMul : Fp → Fp → Fp
  | .nan, _ => .nan
  | _, .nan => .nan
  | .inf a, .inf b => .inf (a != b)
  | .inf a, .fin nb mb _ => if mb = 0 then .nan else .inf (a != nb)
  | .fin na ma _, .inf b => if ma = 0 then .nan else .inf (na != b)
  | .fin na ma ea, .fin nb mb eb => .fin (na != nb) (ma * mb) (ea + eb)

def fpNeg : Fp → Fp
  | .nan => .nan
  | .inf a => .inf (!a)
  | .fin n m e => .fin (!n) m e

/-- An integer as a datum. -/
def fpOfInt (x : Int) : Fp := .fin (x < 0) x.natAbs 0

/-- Order of two data that are not NaN: -0 and +0 are equal. -/
def fpLt : Fp → Fp → Bool
  | .nan, _ => false
  | _, .nan => false
  | .inf a, .inf b => a && !b
  | .inf a, _ => a
  | _, .inf b => !b
  | .fin na ma ea, .fin nb mb eb =>
    let e := min ea eb
    signed na (ma * 2 ^ (ea - e).toNat) < signed nb (mb * 2 ^ (eb - e).toNat)

/-- Binary32 sum of two patterns (R142): rounded to nearest even; any NaN result is 0x7FC0_0000. -/
def fadd32 (a b : Nat) : Nat := fpEnc fp32 (fpAdd (fpDec fp32 a) (fpDec fp32 b))

/-- Quotient of two finite data rounded to a format: exact to three bits beyond it with a sticky bit. -/
def fpDiv (f : FpFmt) : Fp → Fp → Fp
  | .nan, _ => .nan
  | _, .nan => .nan
  | .inf _, .inf _ => .nan
  | .inf a, .fin nb _ _ => .inf (a != nb)
  | .fin na _ _, .inf b => .fin (na != b) 0 0
  | .fin na ma ea, .fin nb mb eb =>
    if mb = 0 then (if ma = 0 then .nan else .inf (na != nb))
    else
      let k := f.mb + 4 + bitLen mb
      let q := ma * 2 ^ k / mb
      let s := b2n (ma * 2 ^ k % mb ≠ 0)
      fpRound f (.fin (na != nb) (2 * q + s) (ea - eb - k - 1))

end Sys2Proof.Machine
end

