-- ==== Sys2Proof/Machine/Mirror.lean ====
section
/-! DEFINITION. What a paired device sends to its partner: sequenced frames, mirrored writes and their acknowledgements (R415 to
R420). -/

namespace Sys2Proof.Machine

/-- PAIR links of PAIR_CFG.LINKS. -/
def Dev.pairLinks (d : Dev) : List Nat := (List.range 36).filter (fun k => bitAt (d.regFld PAIR_CFG 13 36) k && d.role k == 4)

/-- PAIR links that are up for mirror traffic (R421). -/
def Dev.pairUp (d : Dev) : List Nat := d.pairLinks.filter (fun k => d.isUp k && Tab.get false d.pair.linkUp k)

/-- Whether the device sends mirrored items (R422). -/
def Dev.mirrors (d : Dev) : Bool := d.pair.state == .source || d.pair.state == .paired || d.pair.state == .lost

/-- Whether completions wait for MACK (R420, R423). -/
def Dev.waitsMack (d : Dev) : Bool := d.pair.state == .paired || d.pair.state == .lost

/-- The stream of the control frames. -/
def ctrlStream : Nat := 12

/-- A frame with its fields. -/
def pairFrame (stream mseq word1 : Nat) (data : Bytes) : PairFrame :=
  { stream := BitVec.ofNat 4 stream, mseq := BitVec.ofNat 32 mseq, len := BitVec.ofNat 13 data.length, rtx := false,
    word1 := BitVec.ofNat 64 word1, data := data }

/-! ## Ordered flows (R221 to R224) -/

/-- A packet of a flow: a CUE_COUNT or a number of cues, the PAIR link, PTYPE and the frame. -/
abbrev FlowPkt := Nat × Nat × Nat × PairFrame

def Reseq.reset : Reseq := { sent := 0, exp := 0, flight := [], held := [], waits := [] }

/-- Context of the flow Mirror send of a stream on a PAIR link, at its attach tile (R222). [DEDUCED: log 173] -/
def sendKey (k stream : Nat) : Nat := 2048 + k * 16 + stream

/-- Context of the flow Mirror apply of a receiving link at a tile's NEAR (0) or stack (1) controller (R222). [DEDUCED: log 173] -/
def flowKey (k tile ctl : Nat) : Nat := (k * 16 + tile) * 2 + ctl

def Dev.flow (d : Dev) (i : Nat) : Reseq := Tab.get Reseq.reset d.sw.flows i
def Dev.setFlow (d : Dev) (i : Nat) (f : Reseq) : Dev := { d with sw := { d.sw with flows := Tab.set Reseq.reset d.sw.flows i f } }

/-- Cues that a packet takes on the mesh: tiles of one row or column are joined by one minimal path, and its packets arrive in order within
the cue; for others the path is chosen by edge load, and its length is free. [UNVERIFIED: log 82] -/
def Dev.sprayed (d : Dev) (a b : Nat) : Dev × Nat :=
  if a % 4 = b % 4 ∨ a / 4 = b / 4 then (d, 0)
  else
    let x := d.nextFree
    (x.1, (Config.sprayCues x.2).toNat)

/-- Releases the packets that follow in order (R223). The number bounds them. -/
def Reseq.release (f : Reseq) : Nat → Reseq × List FlowPkt
  | 0 => (f, [])
  | n + 1 =>
    match Tab.find? f.held f.exp with
    | none => (f, [])
    | some x =>
      let y := ({ f with exp := (f.exp + 1) % 65536, held := Tab.erase f.held f.exp } : Reseq).release n
      (y.1, x :: y.2)

/-- A packet arrives at its resequencer (R223): what is released, and whether it was dropped as late. -/
def Reseq.arrive (f : Reseq) (now seq : Nat) (p : FlowPkt) : Reseq × List FlowPkt × Nat :=
  if 4096 ≤ sub16 seq f.exp ∨ (Tab.find? f.held seq).isSome then (f, [], 1)
  else
    let y := ({ f with held := Tab.insert f.held seq (now, p.2) } : Reseq).release (f.held.length + 1)
    (y.1, y.2, 0)

/-- The packets that have come to the end of their paths arrive, and what the sender held back leaves while the window has room (R224). The
number bounds them. -/
def Reseq.run (f : Reseq) (now : Nat) : Nat → Reseq × List FlowPkt × Nat
  | 0 => (f, [], 0)
  | n + 1 =>
    match List.find? (fun (e : Nat × FlowPkt) => e.2.1 ≤ now) f.flight with
    | some e =>
      let x := ({ f with flight := Tab.erase f.flight e.1 } : Reseq).arrive now e.1 e.2
      let y := x.1.run now n
      (y.1, x.2.1 ++ y.2.1, x.2.2 + y.2.2)
    | none =>
      match f.waits with
      | p :: ps =>
        if sub16 f.sent f.exp < 4096 then
          ({ f with sent := (f.sent + 1) % 65536, flight := Tab.insert f.flight f.sent (now + p.1, p.2), waits := ps } : Reseq).run now n
        else (f, [], 0)
      | [] => (f, [], 0)

/-- A flow goes on: the packets that its resequencer releases. -/
def Dev.runFlow (d : Dev) (i : Nat) : Dev × List FlowPkt :=
  let f := d.flow i
  let y := f.run d.tb.cueCount (f.flight.length + 2 * f.waits.length + 1)
  ((d.setFlow i y.1).bumpBy SW_RESEQ_LATE y.2.2, y.2.1)

/-- A packet enters a flow at its sender's tile. -/
def Dev.enterFlow (d : Dev) (i a b k ptype : Nat) (f : PairFrame) : Dev :=
  let x := d.sprayed a b
  x.1.setFlow i { x.1.flow i with waits := (x.1.flow i).waits ++ [(x.2, k, ptype, f)] }

/-- Frames released at an attach tile leave on their link. -/
def Dev.releaseSend (d : Dev) (l : List FlowPkt) : Dev := l.foldl (fun (d : Dev) p => d.sendPair p.2.1 p.2.2.1 p.2.2.2) d

/-- A send of a sequenced frame, a resend included: a tile's stream goes by its ordered flow, the control stream by none (R222). -/
def Dev.pairOut (d : Dev) (k ptype : Nat) (f : PairFrame) : Dev :=
  let s := f.stream.toNat
  if 12 ≤ s then d.sendPair k ptype f
  else
    let x := (d.enterFlow (sendKey k s) s (attachTile k) k ptype f).runFlow (sendKey k s)
    x.1.releaseSend x.2

/-- Sends a sequenced frame; in LOST, or with no PAIR link up, it is held until it is resent (R418, R423). -/
def Dev.pairSend (d : Dev) (stream ptype word1 : Nat) (data : Bytes) : Dev :=
  let mseq := Tab.get 0 d.pair.txSeq stream
  let f := pairFrame stream mseq word1 data
  let k := if d.pair.state = .lost then none else d.pairUp.head?
  let u : Unacked := { stream := stream, mseq := mseq, ptype := ptype, frame := f, link := k.getD 36, tries := 0, lastSend := d.tb.cueCount }
  let d := { d with pair := { d.pair with txSeq := Tab.set 0 d.pair.txSeq stream ((mseq + 1) % 2 ^ 32), unacked := d.pair.unacked ++ [u] } }
  let d := if ptype = 1 ∨ ptype = 2 ∨ ptype = 3 then d.bump PAIR_MWR_CNT else d
  match k with
  | some k => d.pairOut k ptype f
  | none => d

/-- Sends an unsequenced frame on a link. -/
def Dev.pairPlain (d : Dev) (k ptype stream mseq word1 : Nat) : Dev := d.sendPair k ptype (pairFrame stream mseq word1 [])

/-- Whether a page of a frame still waits in the bulk load (R436). -/
def Dev.bulkPage (d : Dev) (a : Nat) : Bool :=
  d.pair.bulkQueue.any (fun b => match b with
    | .pages f t n => f == offOf a / 2 ^ 21 && t + 1 == spaceOf a && n ≤ offOf a % 2 ^ 21 / 4096
    | _ => false)

/-- Whether a record still waits in the bulk load. -/
def Dev.bulkRecord (d : Dev) (table index : Nat) : Bool := BulkItem.record table index ∈ d.pair.bulkQueue

/-- Whether writes to an address are sent to the partner. -/
def Dev.mirrorsAt (d : Dev) (a : Nat) : Bool := d.mirrors && d.isMirrored a && !d.bulkPage a

/-- Stores bytes that lie within one 4 KiB page, and mirrors them in the stream of their home tile (R419): one frame where every
granule was written, else one for each granule written. [DESIGN CHOICE: log 80] -/
def Dev.pageWrite (d : Dev) (a : Nat) (bs : Bytes) : Dev × Bool :=
  let x := d.memWrite a bs
  if d.mirrorsAt a then
    if x.2 then (x.1.pairSend (memTile a) 1 a bs, true)
    else
      let good := (pieces (bs.length / 64 + 2) a bs).filter (fun p => !Tab.get false x.1.mem.marks (p.1 / 64))
      (good.foldl (fun d p => d.pairSend (memTile a) 1 p.1 p.2) x.1, false)
  else x

/-- Cuts bytes at 4 KiB pages. The number bounds the pages. [DESIGN CHOICE: log 80] -/
def pages : Nat → Nat → Bytes → List (Nat × Bytes)
  | 0, _, _ => []
  | k + 1, a, bs =>
    if bs = [] then []
    else
      let n := 4096 - a % 4096
      (a, bs.take n) :: pages k (a + n) (bs.drop n)

/-- [DESIGN CHOICE: log 80] -/
def writePages (d : Dev) : List (Nat × Bytes) → Dev × Bool
  | [] => (d, true)
  | p :: ps =>
    let x := d.pageWrite p.1 p.2
    let y := writePages x.1 ps
    (y.1, x.2 && y.2)

/-- A write to NEAR or STRATUM by a party of the device: stored, the frames' dirty bits set, and mirrored. False says POISON. [DESIGN CHOICE: log 80] -/
def Dev.write (d : Dev) (a : Nat) (bs : Bytes) : Dev × Bool := writePages d (pages (bs.length / 4096 + 2) a bs)

/-- The frames that an operation sent and whose MACKs it waits for: those unacknowledged after it and not before (R420). -/
def newFrames (before after : Dev) : List (Nat × Nat) :=
  if after.waitsMack then
    ((after.pair.unacked.filter (fun u => !before.pair.unacked.any (fun v => v.stream == u.stream && v.mseq == u.mseq))).map
      (fun u => (u.stream, u.mseq)))
  else []

/-- Whether some of these frames is still unacknowledged. -/
def Dev.awaits (d : Dev) (l : List (Nat × Nat)) : Bool :=
  d.waitsMack && l.any (fun w => d.pair.unacked.any (fun u => u.stream == w.1 && u.mseq == w.2))

end Sys2Proof.Machine
end

