-- ==== Sys2Proof/Machine/Codec.lean ====
section
/-! DEFINITION. The tensor codec, the stored block and its seal (chapter 15, R439 to R456), and the tray check slots (R453). -/

namespace Sys2Proof.Machine

/-! ## Byte planes (R444) -/

/-- The transposed block: byte j moves to (j mod P) × (4,096 / P) + j div P. -/
def toPlanes (p : Nat) (bs : Bytes) : Bytes :=
  (List.range p).flatMap (fun k => (List.range (4096 / p)).map (fun i => bs.getD (i * p + k) 0))

/-- The block that a transposed one came from. -/
def fromPlanes (p : Nat) (bs : Bytes) : Bytes :=
  (List.range 4096).map (fun j => bs.getD (j % p * (4096 / p) + j / p) 0)

/-! ## Runs (R445) -/

/-- Base length and number of extra bits of run symbol j. -/
def runShape (j : Nat) : Nat × Nat :=
  if j ≤ 7 then (j + 2, 0)
  else match j with
    | 8 => (10, 2) | 9 => (14, 3) | 10 => (22, 4) | 11 => (38, 5) | 12 => (70, 6) | _ => (134, 7)

/-- The run symbol that gives length l, 2 to 256. -/
def runOf (l : Nat) : Nat :=
  if l ≤ 9 then l - 2 else if l ≤ 13 then 8 else if l ≤ 21 then 9 else if l ≤ 37 then 10 else if l ≤ 69 then 11
  else if l ≤ 133 then 12 else 13

/-- A coded symbol: its number, and extra bits with their count. -/
structure Sym where
  s : Nat
  extra : Nat
  n : Nat
deriving DecidableEq, Repr

def litSym (b : Byte) : Sym := { s := b.toNat, extra := 0, n := 0 }

def runSym (l : Nat) : Sym :=
  let j := runOf l
  { s := 256 + j, extra := l - (runShape j).1, n := (runShape j).2 }

/-- Bytes at the front that equal the previous output byte. -/
def runLen (prev : Byte) : Bytes → Nat
  | [] => 0
  | b :: bs => if b = prev then runLen prev bs + 1 else 0

/-- The greedy run coder (R448): the longest run wherever the next 2 or more bytes repeat. The number bounds the symbols. -/
def runCode : Nat → Byte → Bytes → List Sym
  | 0, _, _ => []
  | _ + 1, _, [] => []
  | k + 1, prev, b :: bs =>
    let l := min 256 (runLen prev (b :: bs))
    if 2 ≤ l then runSym l :: runCode k prev ((b :: bs).drop l) else litSym b :: runCode k b bs

/-! ## The canonical code (R446) -/

/-- Whether the lengths satisfy R446. -/
def lengthsOk (l : List Nat) : Bool :=
  l.length == 270 && l.all (· ≤ 15) &&
  ((l.map (fun n => if n = 0 then 0 else 2 ^ (15 - n))).sum == 2 ^ 15 || (l.filter (· ≠ 0)) == [1])

/-- Codes in order of assignment: (length, code, symbol). -/
def codesFrom (l : List Nat) : Nat → Nat → Nat → List (Nat × Nat × Nat)
  | 0, _, _ => []
  | k + 1, len, code =>
    let syms := (List.range 270).filter (fun s => l.getD s 0 == len)
    (List.range syms.length).map (fun i => (len, code + i, syms.getD i 0)) ++ codesFrom l k (len + 1) ((code + syms.length) * 2)

def codes (l : List Nat) : List (Nat × Nat × Nat) := codesFrom l 15 1 0

/-- n bits of a code, most significant first. -/
def msbBits (n v : Nat) : List Bool := (List.range n).map (fun i => bitAt v (n - 1 - i))

/-- n extra bits, least significant first. -/
def lsbBits (n v : Nat) : List Bool := (List.range n).map (fun i => bitAt v i)

def symBits (cs : List (Nat × Nat × Nat)) (y : Sym) : List Bool :=
  match cs.find? (fun c => c.2.2 == y.s) with
  | some c => msbBits c.1 c.2.1 ++ lsbBits y.n y.extra
  | none => []

/-- Packs bits from bit 0 of the first byte, 0 bits up to the byte boundary. The number bounds the bytes. -/
def packBits : Nat → List Bool → Bytes
  | 0, _ => []
  | k + 1, bits =>
    if bits = [] then []
    else BitVec.ofNat 8 (((List.range 8).map (fun i => if bits.getD i false then 2 ^ i else 0)).sum) :: packBits k (bits.drop 8)

def unpackBits (bs : Bytes) : List Bool := bs.flatMap (fun b => lsbBits 8 b.toNat)

/-! ## Code lengths (R448) -/

def symCounts (ys : List Sym) : List Nat := (List.range 270).map (fun s => ys.countP (fun y => y.s == s))

/-- Total code bits of a set of lengths. -/
def codeCost (counts l : List Nat) : Nat := (List.zipWith (· * ·) counts l).sum

/-- A package of the length-limited construction: weight and the symbols in it. -/
abbrev Pkg := Nat × List Nat

def mergePkgs : Nat → List Pkg → List Pkg → List Pkg
  | 0, a, b => a ++ b
  | _ + 1, [], b => b
  | _ + 1, a, [] => a
  | k + 1, x :: a, y :: b => if x.1 ≤ y.1 then x :: mergePkgs k a (y :: b) else y :: mergePkgs k (x :: a) b

def pairPkgs : Nat → List Pkg → List Pkg
  | k + 1, x :: y :: t => (x.1 + y.1, x.2 ++ y.2) :: pairPkgs k t
  | _, _ => []

def insPkg (x : Pkg) : List Pkg → List Pkg
  | [] => [x]
  | y :: t => if x.1 ≤ y.1 then x :: y :: t else y :: insPkg x t

/-- One least set of lengths limited to 15, by packages: what the encoder's own choice is measured against. [DESIGN CHOICE: log 78] -/
def leastLengths (counts : List Nat) : List Nat :=
  let used := (List.range 270).filter (fun s => counts.getD s 0 ≠ 0)
  if used.length = 1 then (List.range 270).map (fun s => b2n (s ∈ used))
  else
    let coins := used.foldl (fun l s => insPkg (counts.getD s 0, [s]) l) []
    let top := (List.range 14).foldl (fun (l : List Pkg) _ => mergePkgs 1000 coins (pairPkgs 600 l)) coins
    let chosen := (top.take (2 * used.length - 2)).flatMap (·.2)
    (List.range 270).map (fun s => chosen.countP (· == s))

/-- The encoder's lengths: a complete code over the symbols that occur, limited to 15 and of least total. Which of several least
sets it takes is left open. [DESIGN CHOICE: log 78] -/
def huffLengths (counts : List Nat) : List Nat :=
  let l := Config.huffLengths counts
  let best := leastLengths counts
  if lengthsOk l ∧ (List.zipWith (fun c n => (c == 0) == (n == 0)) counts l).all (· == true) ∧ codeCost counts l ≤ codeCost counts best
  then l else best

/-! ## The codec stream (R447, R449) -/

def nibbles (l : List Nat) : Bytes := (List.range 135).map (fun i => BitVec.ofNat 8 (l.getD (2 * i) 0 + 16 * l.getD (2 * i + 1) 0))

/-- The stream of a block for one P; pl codes it. -/
def codeBlock (pl : Nat) (block : Bytes) : Bytes :=
  let t := toPlanes (2 ^ pl) block
  let segs := (List.range 16).map (fun i => runCode 256 0 (slice t (256 * i) 256))
  let l := huffLengths (symCounts segs.flatten)
  let cs := codes l
  let subs := segs.map (fun ys => packBits 512 (ys.flatMap (symBits cs)))
  [BitVec.ofNat 8 pl] ++ nibbles l ++ subs.flatMap (fun s => leBytes 2 s.length) ++ subs.flatten

/-- The device's encoder (R448): the smallest C, and on a tie the smaller P. [DEDUCED: log 79] -/
def encodeBlock (block : Bytes) : Bytes :=
  let a := codeBlock 0 block
  let b := codeBlock 1 block
  let c := codeBlock 2 block
  let ab := if b.length < a.length then b else a
  if c.length < ab.length then c else ab

/-- Reads one symbol: its number and the bits that follow; none where no code matches. The number bounds the code's length. -/
def readSym (cs : List (Nat × Nat × Nat)) : Nat → Nat → Nat → List Bool → Option (Nat × List Bool)
  | 0, _, _, _ => none
  | _ + 1, _, _, [] => none
  | k + 1, len, code, b :: bs =>
    let code := 2 * code + b2n b
    match cs.find? (fun c => c.1 == len + 1 && c.2.1 == code) with
    | some c => some (c.2.2, bs)
    | none => readSym cs k (len + 1) code bs

/-- Decodes a segment: its bytes, newest first, and the bits left over. The number bounds the symbols. [DEDUCED: log 77] -/
def decodeSeg (cs : List (Nat × Nat × Nat)) : Nat → Byte → Bytes → List Bool → Option (Bytes × List Bool)
  | 0, _, acc, bits => if acc.length = 256 then some (acc, bits) else none
  | k + 1, prev, acc, bits =>
    if acc.length = 256 then some (acc, bits)
    else match readSym cs 15 0 0 bits with
      | none => none
      | some (s, rest) =>
        if s < 256 then decodeSeg cs k (BitVec.ofNat 8 s) (BitVec.ofNat 8 s :: acc) rest
        else
          let sh := runShape (s - 256)
          if rest.length < sh.2 then none
          else
            let extra := ((List.range sh.2).map (fun i => if rest.getD i false then 2 ^ i else 0)).sum
            let len := sh.1 + extra
            if 256 < acc.length + len ∨ 256 < len then none
            else decodeSeg cs k prev (List.replicate len prev ++ acc) (rest.drop sh.2)

/-- A sub-stream: none if it is invalid under R449. [DEDUCED: log 77] -/
def decodeSub (cs : List (Nat × Nat × Nat)) (bs : Bytes) : Option Bytes :=
  match decodeSeg cs 256 0 [] (unpackBits bs) with
  | some (acc, rest) => if rest.length < 8 then some acc.reverse else none
  | none => none

def decodeSubs (cs : List (Nat × Nat × Nat)) : List Nat → Bytes → Option Bytes
  | [], _ => some []
  | n :: ns, bs =>
    match decodeSub cs (bs.take n), decodeSubs cs ns (bs.drop n) with
    | some a, some b => some (a ++ b)
    | _, _ => none

/-- Decodes a codec stream of clen bytes; none where R449 calls it invalid. -/
def decodeBlock (s : Bytes) (clen : Nat) : Option Bytes :=
  let b0 := (s.getD 0 0).toNat
  let l := (List.range 270).map (fun i => fld (s.getD (1 + i / 2) 0).toNat (4 * (i % 2)) 4)
  let lens := (List.range 16).map (fun i => leAt s (136 + 2 * i) 2)
  if 3 ≤ b0 ∨ !lengthsOk l ∨ clen ≠ 168 + lens.sum ∨ 0 ∈ lens ∨ s.length < clen then none
  else (decodeSubs (codes l) lens (s.drop 168)).map (fromPlanes (2 ^ b0))

/-! ## The stored block (R442, R443, R450, R451, R455) -/

/-- The 40-bit region ID (R351). -/
def regionWord (r : RegionId) : Nat := r.index % 2 ^ 25 + r.gen % 2 ^ 15 * 2 ^ 25

def regionOf (n : Nat) : RegionId := { index := fld n 0 25, gen := fld n 25 15 }

/-- Tweak and IV of a block (R450, R451). -/
def tweakOf (region version block : Nat) : Bytes := leBytes 16 (region + version * 2 ^ 40 + block * 2 ^ 72)

/-- The 24 header bytes that the tag covers. -/
def headOf (ng clen keysel region version block : Nat) (raw : Bool) : Bytes :=
  [BitVec.ofNat 8 ng, BitVec.ofNat 8 (b2n raw)] ++ leBytes 2 clen ++ [BitVec.ofNat 8 keysel, 0, 0, 0] ++ leBytes 5 region ++
    leBytes 4 version ++ leBytes 4 block ++ [0, 0, 0]

/-- Seals a block of 4,096 bytes: the NG granules of its slot. -/
def sealBlock (k : KeySet) (keysel region version block : Nat) (content : Bytes) : Bytes :=
  let s := encodeBlock content
  let raw : Bool := 16 < ceilDiv (32 + s.length) 256
  let ng := if raw then 17 else ceilDiv (32 + s.length) 256
  let payload := slice (if raw then content else s) 0 (256 * ng - 32)
  let tw := tweakOf region version block
  let ct := xtsEnc k.k1 k.k2 tw payload
  let h := headOf ng (if raw then 0 else s.length) keysel region version block raw
  h ++ (gcmTag k.ka tw (h ++ ct) []).take 8 ++ ct

/-- Unseals a slot (R455): none is FAIL. -/
def unsealBlock (k : KeySet) (keysel region version block : Nat) (slot : Bytes) : Option Bytes :=
  let ng := leAt slot 0 1
  let flags := leAt slot 1 1
  let clen := leAt slot 2 2
  let raw := flags == 1
  if ng < 1 ∨ 17 < ng ∨ 1 < flags ∨ leAt slot 5 3 ≠ 0 ∨ leAt slot 21 3 ≠ 0 ∨ (raw ∧ (clen ≠ 0 ∨ ng ≠ 17)) ∨
     leAt slot 4 1 ≠ keysel ∨ leAt slot 8 5 ≠ region ∨ leAt slot 13 4 ≠ version ∨ leAt slot 17 4 ≠ block then none
  else
    let ct := slice slot 32 (256 * ng - 32)
    let tw := tweakOf region version block
    if (gcmTag k.ka tw (slice slot 0 24 ++ ct) []).take 8 ≠ slice slot 24 8 then none
    else
      let pt := xtsDec k.k1 k.k2 tw ct
      if raw then some (slice pt 0 4096) else decodeBlock pt clen

/-! ## Check slots (R453) -/

/-- Scales every byte in GF(2^8) with polynomial 0x011D. -/
def gfScale (c : Nat) (bs : Bytes) : Bytes := bs.map (fun b => BitVec.ofNat 8 (gfMul 0x11D c b.toNat))

/-- g^i with g = 2. -/
def gfGen (i : Nat) : Nat := gfPow 0x11D 2 i

/-- A data slot as the check slots see it: bytes beyond its granules are taken as 0, whatever the tray holds. -/
def fullSlot (s : Bytes) : Bytes := slice (s.take (256 * (s.getD 0 0).toNat)) 0 4352

def checkP (ds : List Bytes) : Bytes := ds.foldl (fun a s => xorBytes a (fullSlot s)) (zeros 4352)

def checkQ (ds : List Bytes) : Bytes :=
  (List.range ds.length).foldl (fun a i => xorBytes a (gfScale (gfGen i) (fullSlot (ds.getD i [])))) (zeros 4352)

/-- Recovers data slot i of a row of ten slots (data 0 to 7, check slots 8 and 9) from those present; none where more than two
are missing. -/
def recoverSlot (row : List (Option Bytes)) (i : Nat) : Option Bytes :=
  let miss := (List.range 10).filter (fun j => (row.getD j none).isNone)
  let at' := fun j => let s := (row.getD j none).getD []; if j < 8 then fullSlot s else slice s 0 4352
  let known := (List.range 8).filter (fun j => j ∉ miss)
  let sp := known.foldl (fun a j => xorBytes a (at' j)) (at' 8)
  let sq := known.foldl (fun a j => xorBytes a (gfScale (gfGen j) (at' j))) (at' 9)
  if 2 < miss.length then none
  else if i ∉ miss then some (at' i)
  else match miss.find? (fun j => j ≠ i) with
    | none => some sp
    | some 9 => some sp
    | some 8 => some (gfScale (gfInv 0x11D (gfGen i)) sq)
    | some j =>
      -- sp = d_i + d_j and sq = g^i d_i + g^j d_j
      some (gfScale (gfInv 0x11D (gfGen i ^^^ gfGen j)) (xorBytes sq (gfScale (gfGen j) sp)))

end Sys2Proof.Machine
end

