-- ==== Sys2Proof/Machine/Pool.lean ====
section
/-! DEFINITION. Block reads of POOL (R369, R373 to R375, R454 to R456): the RDs of slots to the trays, degraded reads, unsealing and its
failures. What is read is held for the party that reads until all of it has come. -/

namespace Sys2Proof.Machine

def Tray.reset : Tray := { state := .disabled, misses := 0, counts := [], used := [] }

def Dev.trayRec (d : Dev) (t : Nat) : Tray := Tab.get Tray.reset d.ver.trays t

def Dev.setTray (d : Dev) (t : Nat) (r : Tray) : Dev := { d with ver := { d.ver with trays := Tab.set Tray.reset d.ver.trays t r } }

/-- Whether a tray serves reads: not FAILED, and some TRAY link to it is up. -/
def Dev.trayServes (d : Dev) (t : Nat) : Bool :=
  ((d.trayRec t).state == .healthy || (d.trayRec t).state == .rebuilding) && (d.trayLink t).isSome

/-- Key of a slot of a tray: tray byte address / 4,352 counts slots. -/
def slotKey (tray slot : Nat) : Nat := tray * 2 ^ 40 + slot

/-- A sealed slot is kept until its write is answered OK. -/
def Dev.slotWrite (d : Dev) (tray slot : Nat) (bs : Bytes) : Dev :=
  { d with ver := { d.ver with outgoing := Tab.set [] d.ver.outgoing (slotKey tray slot) bs } }

/-- A request of the device to a tray (R168): it takes a tag of the tray's, and leaves on the TRAY link of the fewest queued bytes; false
where no tag is free. -/
def Dev.trayReq (d : Dev) (tray typ addr len : Nat) (data : Bytes) (purpose : Purpose) : Dev × Bool :=
  let x := d.newReq (reqKeyTray tray 0) 16 (d.trayLink tray) typ
    { blankTxn with addr := BitVec.ofNat 64 addr, len := BitVec.ofNat 13 len, data := data } purpose
  (x.1, x.2.isSome)

/-! ## Keys of a region (R441) -/

/-- Whether a region uses the shared key set: of a session, or MIRRORED. -/
def Region.shared (r : Region) : Bool := r.mirrored || r.session ≠ 0

def Dev.keySet (d : Dev) (p : Nat) (shared : Bool) : KeySet :=
  Tab.get { k1 := [], k2 := [], ka := [] } d.sec.keys (2 * p + b2n shared)

def keySel (p : Nat) (shared : Bool) : Nat := p + 16 * b2n shared

/-- The name of block b of an extent. -/
def Dev.blockName (d : Dev) (ext b : Nat) : Option BlockName :=
  match Tab.find? d.ver.extents ext with
  | none => none
  | some e =>
    match Tab.find? d.ver.regions e.region, Tab.find? d.ver.versions (e.region * 2 ^ 32 + e.version) with
    | some r, some v =>
      some { part := r.part, shared := r.shared, region := regionWord { index := e.region, gen := r.gen }, version := e.version,
             block := (ext - v.base) * 512 + b }
    | _, _ => none

def Dev.unsealNamed (d : Dev) (n : BlockName) (slot : Bytes) : Option Bytes :=
  unsealBlock (d.keySet n.part n.shared) (keySel n.part n.shared) n.region n.version n.block slot

def Dev.sealNamed (d : Dev) (n : BlockName) (content : Bytes) : Bytes :=
  sealBlock (d.keySet n.part n.shared) (keySel n.part n.shared) n.region n.version n.block content

/-- A slot ended in FAIL (R456). -/
def Dev.unsealFail (d : Dev) (n : BlockName) (tray : Nat) : Dev :=
  let d := (d.bump VER_UNSEAL_FAIL_CNT).event VER_CODEC_EVT 0 (d.regFld VER_CODEC_CFG 1 1 == 1)
  if d.regFld VER_CODEC_CFG 0 1 = 1 then
    d.report 0x23 1 (mkOrigin 5 15 tray 0 n.part) n.region (n.block + n.version * 2 ^ 32) tray
  else d

/-! ## Slot reads (R374, R454) -/

/-- Where block b of an extent lies at position i of its pieces: tray and slot. -/
def Extent.at (e : Extent) (i slot : Nat) : Nat × Nat := let p := e.pieces.getD i (0, 0); (p.1, p.2 + slot)

/-- The reads of a slot: the whole 4,352 B in two RDs, or for a bulk read granule 0 first. [DESIGN CHOICE: log 75] -/
def slotTodo (bulk : Bool) : List (Nat × Nat) := if bulk then [(0, 256)] else [(0, 4096), (4096, 256)]

/-- A slot is to be read from its tray. -/
def Dev.startSlot (d : Dev) (f : SlotFor) (tray slot : Nat) (bulk : Bool) : Dev :=
  { d with ver := { d.ver with
      nextJob := d.ver.nextJob + 1
      slots := Tab.insert d.ver.slots d.ver.nextJob { serves := f, tray := tray, slot := slot, bulk := bulk, todo := slotTodo bulk, left := 0, got := [] } } }

/-- What is read arrives at the block read or rebuild that asked; none: an erasure. -/
def Dev.slotTo (d : Dev) (f : SlotFor) (bs : Option Bytes) : Dev :=
  match f with
  | .block id pos =>
    (match Tab.find? d.ver.blks id with
     | some b => { d with ver := { d.ver with blks := Tab.insert d.ver.blks id { b with got := Tab.insert b.got pos bs } } }
     | none => d)
  | .rebuild tray piece pos =>
    { d with ver := { d.ver with rebuilds := d.ver.rebuilds.map (fun r =>
        if r.tray = tray ∧ r.piece = piece then { r with got := Tab.insert r.got pos bs } else r) } }

/-- A slot read ends. -/
def Dev.slotEnd (d : Dev) (id : Nat) (s : SlotRead) (bs : Option Bytes) : Dev :=
  ({ d with ver := { d.ver with slots := Tab.erase d.ver.slots id } } : Dev).slotTo s.serves bs

/-- What a bulk read fetches after granule 0: exactly the other granules of the slot (R454). [DESIGN CHOICE: log 75] -/
def bulkRest (got : Bytes) : List (Nat × Nat) :=
  let ng := (got.getD 0 0).toNat
  if 2 ≤ ng ∧ ng ≤ 17 then [(256, (ng - 1) * 256)] else []

/-- An RD of a slot read is answered: with its data, or with a failure, which makes the slot an erasure. -/
def Dev.slotData (d : Dev) (id first : Nat) (data : Option Bytes) : Dev :=
  match Tab.find? d.ver.slots id with
  | none => d
  | some s =>
    match data with
    | none => d.slotEnd id s none
    | some bs =>
      let got := overlay s.got first bs
      let s := { s with got := got, left := s.left - 1, todo := s.todo ++ (if s.bulk ∧ first = 0 then bulkRest got else []) }
      if s.todo = [] ∧ s.left = 0 then d.slotEnd id s (some (slice got 0 4352))
      else { d with ver := { d.ver with slots := Tab.insert d.ver.slots id s } }

/-- Sends the reads of a slot that wait, as far as tags go. -/
def sendSlotReads (d : Dev) (id : Nat) (s : SlotRead) : List (Nat × Nat) → Dev
  | [] => { d with ver := { d.ver with slots := Tab.insert d.ver.slots id { s with todo := [] } } }
  | p :: ps =>
    match d.trayReq s.tray 0 (s.slot * 4352 + p.1) p.2 [] (.slotRd id s.tray p.1) with
    | (d, true) => sendSlotReads d id { s with left := s.left + 1 } ps
    | (_, false) => { d with ver := { d.ver with slots := Tab.insert d.ver.slots id { s with todo := p :: ps } } }

/-- Sends what slot reads wait to send. -/
def Dev.pumpSlots (d : Dev) : Dev :=
  (d.ver.slots.filter (fun e => !e.2.todo.isEmpty)).foldl (fun d e => sendSlotReads d e.1 e.2 e.2.todo) d

/-- Reads in flight to a tray that is declared FAILED end as erasures, so that their blocks are read anew at once (R375). -/
def Dev.dropTrayReads (d : Dev) (tray : Nat) : Dev :=
  (d.ver.slots.filter (fun e => e.2.tray == tray)).foldl (fun d e => d.slotEnd e.1 e.2 none) d

/-! ## Block reads (R373, R374, R456) -/

/-- Recovers data slot i of a row from the others, and verifies it: first from all that are present, then with one more of them
taken as an erasure. [DEDUCED: log 76] -/
def Dev.recoverBlock (d : Dev) (n : BlockName) (row : List (Option Bytes)) (i : Nat) : Option Bytes :=
  let row := row.set i none
  (row :: (List.range 10).map (fun j => row.set j none)).findSome? (fun r => (recoverSlot r i).bind (d.unsealNamed n))

/-- Key of a block read for a party. -/
def blkKey (party blk : Nat) : Nat := party * 2 ^ 38 + blk

def Dev.holdBlock (d : Dev) (party blk : Nat) (bs : Bytes) : Dev :=
  { d with ver := { d.ver with held := Tab.insert d.ver.held (blkKey party blk) bs } }

/-- A block read ends with the block, or with POISON. -/
def Dev.blkEnd (d : Dev) (id : Nat) (b : BlkRead) (bs : Option Bytes) : Dev :=
  let d := if bs.isSome then d else d.bump VER_LOST_CNT
  ({ d with ver := { d.ver with blks := Tab.erase d.ver.blks id, slots := d.ver.slots.filter (fun e => match e.2.serves with
      | .block i _ => i != id
      | .rebuild _ _ _ => true) } } : Dev).holdBlock b.party b.blk (bs.getD [])

def Dev.setBlk (d : Dev) (id : Nat) (b : BlkRead) : Dev := { d with ver := { d.ver with blks := Tab.insert d.ver.blks id b } }

/-- A block read asks for the slot at a position; on a tray that does not serve it is an erasure. -/
def Dev.askSlot (d : Dev) (id pos : Nat) : Dev :=
  match Tab.find? d.ver.blks id with
  | none => d
  | some b =>
    let x := b.at'.getD pos (0, 0)
    let d := d.setBlk id { b with asked := b.asked ++ [pos] }
    if d.trayServes x.1 then d.startSlot (.block id pos) x.1 x.2 (b.bulk && b.asked.isEmpty) else d.slotTo (.block id pos) none

/-- The slot at a position ended in FAIL: from now on it is an erasure (R456). -/
def Dev.blkFail (d : Dev) (id pos : Nat) (b : BlkRead) : Dev :=
  (d.unsealFail b.name (b.at'.getD pos (0, 0)).1).setBlk id { b with got := Tab.insert b.got pos none, failed := true }

/-- A recovered block: as degraded, and as recovered where a slot ended in FAIL. -/
def Dev.blkRecovered (d : Dev) (id : Nat) (b : BlkRead) (bs : Bytes) : Dev :=
  let d := if b.failed then d.bump VER_RECOVER_CNT else d
  (d.bump VER_DEGRADED_CNT).blkEnd id b (some bs)

/-- The slots of a row as they have come, by position. -/
def gotRow (got : Tab (Option Bytes)) (n : Nat) : List (Option Bytes) := (List.range n).map (fun i => (Tab.find? got i).getD none)

/-- A block under RS(10,8) whose data slot is an erasure: the rest of the row is read, and the block recovered as soon as 8 slots are
present (R374). [DEDUCED: log 76] -/
def Dev.rowStep (d : Dev) (id i : Nat) (b : BlkRead) : Dev :=
  let others := (List.range 10).filter (fun j => j ≠ i ∧ j ∉ b.asked)
  if others ≠ [] then others.foldl (fun d j => d.askSlot id j) d
  else
    let row := gotRow b.got 10
    match (if 8 ≤ (row.filter Option.isSome).length then d.recoverBlock b.name row i else none) with
    | some bs => d.blkRecovered id b bs
    | none =>
      if b.got.length = 10 then (if b.failed then d else d.bump VER_DEGRADED_CNT).blkEnd id b none else d

/-- The copies of a mirrored block still to be tried, of trays that serve, in the order in which they are read: fewest queued bytes first,
the lower copy on a tie. [DEDUCED: log 76] -/
def Dev.copyOrder (d : Dev) (b : BlkRead) : List Nat :=
  let cost := fun i => match d.trayLink (b.at'.getD i (0, 0)).1 with
    | some k => d.queuedBytes k
    | none => 0
  let live := (List.range b.at'.length).filter (fun i => i ∉ b.asked && d.trayServes (b.at'.getD i (0, 0)).1)
  live.foldl (fun l i => l.filter (fun j => cost j ≤ cost i) ++ i :: l.filter (fun j => cost i < cost j)) []

/-- A mirrored block goes on to its next copy once every copy asked has failed. -/
def Dev.nextCopy (d : Dev) (id : Nat) (b : BlkRead) : Dev :=
  match d.copyOrder b with
  | [] => d.blkEnd id b none
  | i :: _ => d.askSlot id i

/-- What a block read does now: it takes the slot that has come, or asks for more. While d is 0 no pipe unseals (R553). -/
def Dev.blkStep (d : Dev) (id : Nat) : Dev :=
  match Tab.find? d.ver.blks id with
  | none => d
  | some b =>
    if d.pwr.duty = 0 ∧ b.got ≠ [] then d
    else if b.policy = 0 then
      let i := b.blk % 8
      match Tab.find? b.got i with
      | none => if i ∈ b.asked then d else d.askSlot id i
      | some (some slot) =>
        (match d.unsealNamed b.name slot with
         | some bs => d.blkEnd id b (some bs)
         | none => d.blkFail id i b)
      | some none => d.rowStep id i b
    else
      match List.find? (fun e => e.2.isSome) b.got with
      | some (i, some slot) =>
        (match d.unsealNamed b.name slot with
         | some bs => if b.failed then d.blkRecovered id b bs else d.blkEnd id b (some bs)
         | none => d.blkFail id i b)
      | _ => if b.got.length < b.asked.length then d else d.nextCopy id b

/-- Every block read goes on as far as it can; each needs a few turns at most (ask, take, ask the row, recover). -/
def Dev.stepBlks (d : Dev) : Dev :=
  (List.range 4).foldl (fun (d : Dev) _ => (d.ver.blks.map (·.1)).foldl Dev.blkStep d) d

/-- Whether a block is being read for a party. -/
def Dev.blkBusy (d : Dev) (party blk : Nat) : Bool := d.ver.blks.any (fun e => e.2.party == party && e.2.blk == blk)

/-- Starts the read of a block for a party. -/
def Dev.startBlk (d : Dev) (party blk : Nat) (bulk : Bool) : Dev :=
  let b := blk % 512
  match Tab.find? d.ver.extents (blk / 512), d.blockName (blk / 512) b with
  | some e, some n =>
    let where' := if e.policy = 0 then (List.range 10).map (fun i => e.at i (b / 8)) else (List.range e.pieces.length).map (fun i => e.at i b)
    let id := d.ver.nextJob
    ({ d with ver := { d.ver with nextJob := id + 1 } } : Dev).setBlk id
      { party := party, blk := blk, name := n, policy := e.policy, at' := where', bulk := bulk, asked := [], got := [], failed := false }
  | _, _ => (d.bump VER_LOST_CNT).holdBlock party blk []

/-- The blocks of 4 KiB that n bytes of POOL from an offset touch (R369). -/
def blocksOf (off n : Nat) : List Nat := if n = 0 then [] else (List.range ((off + n - 1) / 4096 + 1 - off / 4096)).map (· + off / 4096)

/-- Blocks of a party that a bulk read may have in flight (R454). -/
def bulkSlots : Nat := 64

/-- Asks for the blocks that n bytes of POOL touch, for a party, and tells whether all have come: a bulk read fetches 64 slots at a time. -/
def Dev.wantPool (d : Dev) (party off n : Nat) (bulk : Bool) : Dev × Bool :=
  let miss := (blocksOf off n).filter (fun k => (Tab.find? d.ver.held (blkKey party k)).isNone)
  let new := miss.filter (fun k => !d.blkBusy party k)
  let room := if bulk then bulkSlots - (miss.length - new.length) else new.length
  let d := (((new.take room).foldl (fun d k => d.startBlk party k bulk) d).stepBlks).pumpSlots
  (d, miss.all (fun k => (Tab.find? d.ver.held (blkKey party k)).isSome))

/-- A block read for a party: none is POISON. [DESIGN CHOICE: log 75] -/
def Dev.heldBlock (d : Dev) (party blk : Nat) : Option Bytes := (Tab.find? d.ver.held (blkKey party blk)).filter (· ≠ [])

/-- n bytes of POOL from an offset, of blocks read for a party. The number bounds the blocks. -/
def heldPieces (d : Dev) (party : Nat) : Nat → Nat → Nat → Option Bytes
  | 0, _, _ => some []
  | fuel + 1, off, n =>
    if n = 0 then some []
    else
      let k := min n (4096 - off % 4096)
      match d.heldBlock party (off / 4096), heldPieces d party fuel (off + k) (n - k) with
      | some a, some b => some (slice a (off % 4096) k ++ b)
      | _, _ => none

/-- n bytes of POOL that were read for a party: none is POISON. -/
def Dev.heldPool (d : Dev) (party off n : Nat) : Option Bytes := heldPieces d party (n / 4096 + 2) off n

/-- What was read for a party is used up, and what is still being read for it serves nobody. -/
def Dev.dropPool (d : Dev) (party : Nat) : Dev :=
  { d with ver := { d.ver with
      held := d.ver.held.filter (fun e => e.1 / 2 ^ 38 ≠ party)
      blks := d.ver.blks.filter (fun e => e.2.party ≠ party)
      slots := d.ver.slots.filter (fun e => match e.2.serves with
        | .block i _ => !d.ver.blks.any (fun b => b.1 == i && b.2.party == party)
        | .rebuild _ _ _ => true) } }

/-- An agent or a context reads POOL (R369): each of its blocks is a read of its own. [DEDUCED: log 70] -/
def Dev.poolRead (d : Dev) (f : HostFor) (off n : Nat) : Dev :=
  let p := 8 * d.ver.nextJob
  let r : PoolRead := { party := p, serves := f, off := off, n := n }
  let d := { d with ver := { d.ver with nextJob := d.ver.nextJob + 1, reads := d.ver.reads ++ [r] } }
  (d.wantPool p off n false).1

/-- The reads whose blocks have all come. -/
def Dev.poolDone (d : Dev) : List PoolRead :=
  d.ver.reads.filter (fun r => (blocksOf r.off r.n).all (fun k => (Tab.find? d.ver.held (blkKey r.party k)).isSome))

end Sys2Proof.Machine
end

