-- ==== Sys2Proof/Machine/Home.lean ====
section
/-! DEFINITION. The home of NEAR lines (chapter 6) and accesses at it (R118 to R122, R155 to R159, R189, R190): the snoop filter,
line transactions, grants, failed agents, and the accesses of agents, contexts and the host. -/

namespace Sys2Proof.Machine

/-! ## Caching agents and the filter (R170 to R176) -/

def Dev.caCfg (d : Dev) (n : Nat) : Nat := d.reg (GL_CA_CFG + 8 * n)
def Dev.caPart (d : Dev) (n : Nat) : Nat := fld (d.caCfg n) 1 4
def Dev.caWays (d : Dev) (n : Nat) : Nat := fld (d.caCfg n) 5 4 + 1
def Dev.caSets (d : Dev) (n : Nat) : Nat := 2 ^ min 13 (fld (d.caCfg n) 9 4)
def Dev.caLinks (d : Dev) (n : Nat) : List Nat := bitsSet 36 (fld (d.caCfg n) 13 36)
def Dev.caState (d : Dev) (n : Nat) : CaState := Tab.get .disabled d.coh.state n
def Dev.setCaState (d : Dev) (n : Nat) (s : CaState) : Dev := { d with coh := { d.coh with state := Tab.set .disabled d.coh.state n s } }
def Dev.caErr (d : Dev) (n : Nat) : Dev := d.bump (GL_CA_ERR + 8 * n)

/-- NEAR offset of a line. -/
def lineOff (line : Nat) : Nat := line * 128
def lineAddr (line : Nat) : Nat := nearAddr (lineOff line)
def lineHome (line : Nat) : Nat := homeTile (lineOff line)

/-- Key of the filter entry (home, agent, set, way). -/
def fKey (home ca set way : Nat) : Nat := ((home * 16 + ca) * 8192 + set) * 16 + way

/-- Key of the entry that agent ca names for a line with a way. -/
def Dev.wayKey (d : Dev) (ca line way : Nat) : Nat := fKey (lineHome line) ca (line % d.caSets ca) way

/-- The valid entry of an agent for a line: its key and state. -/
def Dev.entryOf (d : Dev) (ca line : Nat) : Option (Nat × FState) :=
  (List.range 16).findSome? (fun w =>
    match Tab.find? d.coh.filter (d.wayKey ca line w) with
    | some e => if e.line = line then some (d.wayKey ca line w, e.st) else none
    | none => none)

/-- Agents with a valid entry for a line. -/
def Dev.holders (d : Dev) (line : Nat) : List (Nat × FState) :=
  (List.range 16).filterMap (fun ca => (d.entryOf ca line).map (fun e => (ca, e.2)))

def Dev.setFilter (d : Dev) (f : Tab FEntry) : Dev := { d with coh := { d.coh with filter := f } }

/-- Clears an agent's entry for a line. -/
def Dev.clearEntry (d : Dev) (ca line : Nat) : Dev :=
  match d.entryOf ca line with
  | some e => d.setFilter (Tab.erase d.coh.filter e.1)
  | none => d

/-- Writes an agent's entry for a line in a way. -/
def Dev.setEntry (d : Dev) (ca line way : Nat) (st : FState) : Dev :=
  let d := d.clearEntry ca line
  d.setFilter (Tab.insert d.coh.filter (d.wayKey ca line way) { line := line, st := st })

/-- Changes the state of an agent's entry. -/
def Dev.setEntrySt (d : Dev) (ca line : Nat) (st : FState) : Dev :=
  match d.entryOf ca line with
  | some e => d.setFilter (Tab.insert d.coh.filter e.1 { line := line, st := st })
  | none => d

/-! ## Lines -/

def HLine.reset : HLine := { phase := .idle, txn := none, queue := [] }
def Dev.hline (d : Dev) (line : Nat) : HLine := Tab.get HLine.reset d.coh.lines line
def Dev.setLine (d : Dev) (line : Nat) (h : HLine) : Dev := { d with coh := { d.coh with lines := Tab.set HLine.reset d.coh.lines line h } }

/-- Sends a coherence message on a link: a snoop on SNP, an answer on GNT (R179). [DESIGN CHOICE: log 84] -/
def Dev.sendCoh (d : Dev) (k cmsg : Nat) (m : CohMsg) : Dev := (d.emit (.coh k cmsg m)).carry k (if cmsg < 0x10 then 2 else 4) (cohImage cmsg m)

/-- A message of the GNT channel that answers a request (R180, R181). -/
def gntMsg (m : CohMsg) (st : Status) (data : Bytes) : CohMsg :=
  { id := m.id, rseq := m.rseq, ca := m.ca, way := 0, htile := 0, newst := 0, d := data ≠ [], rtx := false,
    status := BitVec.ofNat 8 (statusCode st), rsv := false, addr := m.addr, data := data }

/-- Keeps a completed request for replay; entries older than 32 cues go (R187). -/
def Dev.keepDone (d : Dev) (line : Nat) (m : CohMsg) (ans : Option (Nat × CohMsg)) : Dev :=
  let old := d.coh.done.filter (fun e => d.tb.cueCount ≤ e.cue + 32)
  { d with coh := { d.coh with done := old ++ [{ ca := m.ca.toNat, rseq := m.rseq, line := line, answer := ans, cue := d.tb.cueCount }] } }

/-- Answers a request with CMP (0x1C) or CNAK (0x1D). -/
def Dev.cohAnswer (d : Dev) (k line cmsg : Nat) (m : CohMsg) (st : Status) : Dev :=
  let a := gntMsg m st []
  (d.keepDone line m (some (cmsg, a))).sendCoh k cmsg a

/-- [DEDUCED: log 83] -/
def Dev.cnak (d : Dev) (k line : Nat) (m : CohMsg) (st : Status) : Dev := d.cohAnswer k line 0x1D m st

/-- Marks both granules of a line poisoned and reports it (R188, R194, R464). -/
def Dev.poisonLine (d : Dev) (ca line : Nat) : Dev :=
  let d := (d.mark (lineAddr line / 64)).mark (lineAddr line / 64 + 1)
  d.report 0x22 1 (mkOrigin 6 (lineHome line) ca 0 (d.caPart ca)) (lineAddr line) ca 0

/-- A snoop goes out on any link of the agent's set that is up (R181): the lowest. [DESIGN CHOICE: log 84] -/
def Dev.snoop (d : Dev) (ca line txid : Nat) (k : SnpKind) (rtx : Bool) : Dev :=
  let cmsg := match k with | .sns => 0x08 | .sni => 0x09 | .snc => 0x0A
  match (d.caLinks ca).find? d.isUp with
  | some l => d.sendCoh l cmsg
      { id := BitVec.ofNat 13 txid, rseq := 0, ca := BitVec.ofNat 4 ca, way := 0, htile := BitVec.ofNat 4 (lineHome line), newst := 0,
        d := false, rtx := rtx, status := 0, rsv := false, addr := BitVec.ofNat 64 (lineAddr line), data := [] }
  | none => d

/-! ## Accesses: their pieces (R118 to R120, R158, R189, R190, R466) -/

/-- Width in bytes of an atomic, and the new value of R141. -/
def atomNew (op w old a b : Nat) : Nat :=
  let so := sextInt (8 * w) old
  let sa := sextInt (8 * w) a
  let m := 2 ^ (8 * w)
  match op with
  | 0 => (old + a) % m
  | 1 => if so ≤ sa then old else a
  | 2 => min old a
  | 3 => if sa ≤ so then old else a
  | 4 => max old a
  | 5 => old &&& a
  | 6 => old ||| a
  | 7 => old ^^^ a
  | 8 => a
  | 9 => if old = a then b else old
  | _ => fadd32 old a

/-- Whether an operation combines (R141). [DESIGN CHOICE: log 85] -/
def combinable (op : Nat) : Bool := op ≤ 7 || op == 0xA

/-- Whether an OPX operation is defined for its width (R141, R142). -/
def atomDefined (op w : Nat) : Bool := op ≤ 9 || (op == 0xA && w == 4)

/-- Port and tag of an initiator, then the number of its access: the order of R158. -/
def originKey : Origin → Nat
  | .agent r _ => r.link * 2 ^ 60 + r.tag.toNat * 2 ^ 32
  | .host x => 36 * 2 ^ 60 + x
  | .ctx c key => 37 * 2 ^ 60 + ctxKey c * 2 ^ 32 + key
  | .flag k _ r => k * 2 ^ 60 + r
  | .sync p => 38 * 2 ^ 60 + p

/-- Members of an atomic group in the serial order of R158. -/
def sortMembers (l : List (Origin × Bytes)) : List (Origin × Bytes) :=
  l.foldl (fun acc x =>
    acc.filter (fun y => originKey y.1 ≤ originKey x.1) ++ x :: acc.filter (fun y => originKey x.1 < originKey y.1)) []

/-- Runs the members of an atomic group on a value: the values returned and the value written. -/
def runAtoms (op w : Nat) : Nat → List (Origin × Bytes) → List (Origin × Nat) × Nat
  | v, [] => ([], v)
  | v, m :: ms =>
    let x := runAtoms op w (atomNew op w v (leNat (m.2.take w)) (leNat (m.2.drop w))) ms
    ((m.1, v) :: x.1, x.2)

def Dev.access (d : Dev) (id : Nat) : Option Access := Tab.find? d.coh.accs id
def Dev.setAccess (d : Dev) (a : Access) : Dev := { d with coh := { d.coh with accs := Tab.insert d.coh.accs a.id a } }
def Dev.dropAccess (d : Dev) (id : Nat) : Dev :=
  { d with coh := { d.coh with accs := Tab.erase d.coh.accs id, groups := d.coh.groups.filter (· ≠ id) } }

/-- The first failing status of an access stays. -/
def joinStatus (a b : Status) : Status := if a = .ok then b else a

/-- The part of an access that lies in a line: address and number of bytes. [DEDUCED: log 86] -/
def Access.piece (a : Access) (line : Nat) : Nat × Nat :=
  let lo := max a.addr (lineAddr line)
  (lo, min (a.addr + a.n) (lineAddr line + 128) - lo)

/-- Reads a piece; data from a snoop answer stands in for the bank (R189). -/
def Dev.readPiece (d : Dev) (addr n line : Nat) (sr : Option Bytes) : Dev × Option Bytes :=
  match sr with
  | some bs => (d, some (slice bs (addr - lineAddr line) n))
  | none => d.memRead addr n

/-- Writes a piece; merged into the line where a snoop answer gave its data (R190). -/
def Dev.writePiece (d : Dev) (addr : Nat) (bs : Bytes) (line : Nat) (sr : Option Bytes) : Dev × Status :=
  let x := match sr with
    | some l => d.write (lineAddr line) (overlay l (addr - lineAddr line) bs)
    | none => d.write addr bs
  (x.1, if x.2 then .ok else .poison)

/-- An atomic access: its members' old values, and the status. -/
def Dev.atomPiece (d : Dev) (a : Access) (line : Nat) (sr : Option Bytes) : Dev × Status × List (Origin × Nat) :=
  let x := d.readPiece a.addr a.n line sr
  match x.2 with
  | none => (x.1, .poison, [])
  | some bs =>
    let r := runAtoms a.aop a.n (leNat bs) (sortMembers a.members)
    let y := (x.1.fresh (a.addr / 64)).writePiece a.addr (leBytes a.n r.2) line sr
    (y.1, y.2, r.1)

/-- Whether an access fetches or takes a line for a party of the device, and for which. -/
def Origin.party? : Origin → Option Nat
  | .sync p => some p
  | _ => none

def Access.isSync (a : Access) : Bool := a.origin.party?.isSome

/-- Performs the part of an access that lies in one line, or all of an access outside NEAR (line none). [DEDUCED: log 86] -/
def Dev.doPiece (d : Dev) (a : Access) (line : Nat) (addr n : Nat) (sr : Option Bytes) : Dev × Access :=
  match a.kind with
  | .load =>
    let x := d.readPiece addr n line sr
    match x.2 with
    | some bs => (x.1, { a with lineData := Tab.insert a.lineData addr (if a.isSync ∧ sr = none then [] else bs) })
    | none => (x.1, { a with status := joinStatus a.status .poison })
  | .store =>
    if a.isSync then
      match sr with
      | some l =>
        let x := d.write (lineAddr line) l
        (x.1, a)
      | none => (d, a)
    else
      let x := d.writePiece addr (slice a.data (addr - a.addr) n) line sr
      (x.1, { a with status := joinStatus a.status x.2, waitMack := a.waitMack ++ newFrames d x.1 })
  | .atomic =>
    let x := d.atomPiece a line sr
    (x.1, { a with status := joinStatus a.status x.2.1, waitMack := a.waitMack ++ newFrames d x.1,
                   lineData := x.2.2.foldl (fun t e => Tab.insert t (originKey e.1) (leBytes 8 e.2)) a.lineData })

/-! ## The end of an access -/

/-- The flag of a WRF is written, or failed: the WRF is resolved and completes (R129 to R131). -/
def Dev.flagDone (d : Dev) (k : Nat) (stream : BitVec 8) (rseq : Nat) (st : Status) : Dev :=
  let s : WrfSrc := d.src k stream
  match s.held.find? (fun h => h.rseq == rseq) with
  | none => d
  | some h => ((d.setSrc k stream (wrfResolve s rseq)).finishTag h.id .wrf st 0 []).settleSrc k stream

/-- A space access of a context completes (R89, R566, R567). [DEDUCED: log 93] -/
def Dev.ctxAccess (d : Dev) (c : CtxId) (id : Nat) (st : Status) (v : Word) : Dev :=
  let x := d.ctx c
  match x.outst.find? (fun a => a.acc == some id) with
  | none => d
  | some a =>
    let x := { x with outst := x.outst.filter (fun b => b.acc ≠ some id) }
    let d := d.setCtx c x
    if !x.active then d
    else if st = .poison ∧ a.kind ≠ .store then
      (d.setCtx c (x.setG (if a.st then a.rd + 1 else a.rd) 0)).raise c .poisonUse st a.pc a.instr
    else if a.st then
      let x := x.setG a.rd (BitVec.ofNat 64 (statusCode st))
      d.setCtx c (if a.kind = .store then x else x.setG (a.rd + 1) (if st = .ok then v else 0))
    else if st = .ok then d.setCtx c (if a.kind = .store then x else x.setG a.rd v)
    else if a.kind = .store then
      (d.setCtx c { x with pendErr := match x.pendErr with | none => some (st, a.pc, a.instr) | some e => some e }).boundary c
    else d.raise c .spaceError st a.pc a.instr

/-- The context a MSG names. -/
def routeCtx (t : Txn) : CtxId := { tile := t.route.dstTile.toNat, core := t.route.dstCore.toNat, ctx := t.route.dstCtx.toNat }

/-- An answer to a MSG: the route with its ends exchanged (R136, R160). -/
def msgAnswer (r : ReqId) (t : Txn) (compl : Bool) (st : Status) (aux : Nat := 0) : Answer :=
  { tag := r.tag, stream := r.stream, rseq := r.rseq, tc := r.tc, cong := r.cong, compl := compl, status := BitVec.ofNat 8 (statusCode st),
    aux := BitVec.ofNat 32 aux, route := some { t.route with dstDev := t.route.srcDev, srcDev := t.route.dstDev }, data := [] }

/-- Sends an answer to a MSG toward its source, on the link with the fewest queued bytes (R161). -/
def Dev.sendMsgAnswer (d : Dev) (r : ReqId) (t : Txn) (compl : Bool) (st : Status) (aux : Nat := 0) : Dev :=
  let a := msgAnswer r t compl st aux
  let d := d.unreserve r.link r.rsv
  match d.leastQueued (d.fwdLinks t.route.srcDev.toNat) with
  | some k => d.ansOut k a (st ≠ .ok)
  | none => { d with txn := { d.txn with fwdDropped := d.txn.fwdDropped + 1 } }

def msgKey (src : Nat) (tag : BitVec 13) : Nat := src * 8192 + tag.toNat

/-- A MSG completes: its record takes the status, and the answer is sent (R164). -/
def Dev.msgFinish (d : Dev) (r : ReqId) (t : Txn) (st : Status) (aux : Nat := 0) : Dev :=
  let key := msgKey t.route.srcDev.toNat t.tag
  let d : Dev := match Tab.find? d.txn.msgTags key with
    | some m =>
      { d with txn := { d.txn with
          msgTags := Tab.insert d.txn.msgTags key { m with done := true, status := st, aux := aux, doneCue := d.tb.cueCount, stored := none } } }
    | none => d
  d.sendMsgAnswer r t true st aux

/-- A MSG to a context completes: its entry is queued and event bit 0 set where it was written (R162). -/
def Dev.msgDone (d : Dev) (r : ReqId) (t : Txn) (st : Status) : Dev :=
  let c := routeCtx t
  let d := if st = .ok then
      let x := d.ctx c
      (d.setCtx c { x with msgq := x.msgq ++ [{ srcDev := t.route.srcDev.toNat, len := t.len.toNat, addr := t.addr, notify := t.route.notify }] }).setEvent c 0
    else d
  d.msgFinish r t st

/-- NOTIFY[63:60] of a MSG: 0xA reduction notices, 0xB session notices (R252, R404). [DEDUCED: log 49] -/
def noticeKind (t : Txn) : Nat := fld t.route.notify.toNat 60 4

def isNotice (t : Txn) : Bool := noticeKind t == 0xA || noticeKind t == 0xB

/-- The payload of a MSG has been written, or failed; that of a notice goes to its engine next. -/
def Dev.msgStored (d : Dev) (r : ReqId) (st : Status) : Dev :=
  match List.find? (fun (e : Nat × MsgRec) => e.2.id.uid == r.uid) d.txn.msgTags with
  | some m =>
    if m.2.done then d
    else if isNotice m.2.txn then { d with txn := { d.txn with msgTags := Tab.insert d.txn.msgTags m.1 { m.2 with stored := some st } } }
    else d.msgDone r m.2.txn st
  | none => d

/-- What the members of an access receive. -/
def Access.value (a : Access) (o : Origin) : Bytes :=
  match a.kind with
  | .load => a.result
  | .store => []
  | .atomic => (Tab.get [] a.lineData (originKey o)).take a.n

/-- Counts the NEAR payload of an OK completion to RD (R533). [DESIGN CHOICE: log 151] -/
def Dev.countNear (d : Dev) (a : Access) (r : ReqId) (k : TxKind) : Dev :=
  if k = .rd ∧ a.status = .ok ∧ spaceOf a.addr = 1 then d.setLink r.link { d.link r.link with bNear := (d.link r.link).bNear + a.n } else d

/-- Delivers the end of an access to one initiator. -/
def Dev.deliver (d : Dev) (a : Access) (o : Origin) : Dev :=
  match o with
  | .agent r k => if k = .wrf then d.storeDone r .wrf a.status else if k = .msg then d.msgStored r a.status else (d.countNear a r k).complete r k a.status 0 (a.value o)
  | .ctx c key => d.ctxAccess c key a.status (BitVec.ofNat 64 (leNat (a.value o)))
  | .host x => d.emit (if a.kind = .load then .cxlData x (a.status != .ok) (if a.status = .ok then a.value o else zeros a.n) else .cxlCmp x)
  | .flag k s r => d.flagDone k s r a.status
  | .sync _ => d

/-- An access whose pieces are all done, and whose mirror frames are acknowledged, completes (R114, R420). -/
def Dev.tryFinish (d : Dev) (id : Nat) : Dev :=
  match d.access id with
  | none => d
  | some a =>
    if a.left = [] ∧ a.performed ∧ !d.awaits a.waitMack then
      if a.isSync then (if a.origin = .sync 0 then d.dropAccess id else d)
      else
        let a : Access := { a with result := if a.kind = .load then a.lineData.flatMap (·.2) else [] }
        let d := d.dropAccess id
        a.members.foldl (fun d m => d.deliver a m.1) d
    else d

/-- A line of an access is done. -/
def Dev.linePart (d : Dev) (id line : Nat) (sr : Option Bytes) : Dev :=
  match d.access id with
  | none => d
  | some a =>
    let p := a.piece line
    let x := d.doPiece a line p.1 p.2 sr
    let a := { x.2 with left := x.2.left.filter (· ≠ line) }
    (x.1.setAccess { a with performed := a.left = [] }).tryFinish id

/-! ## Line transactions (R178, R185, R186) -/

/-- Puts a line into WAIT_SNP with snoops to agents. -/
def Dev.startSnoops (d : Dev) (line : Nat) (f : HomeFor) (k : SnpKind) (cas : List Nat) : Dev :=
  let txid := d.coh.nextTxid
  let t : HomeTxn := { txid := txid, serves := f, snp := k, waiting := cas.map (fun c => (c, 0)), resp := [], data := none, resends := 0,
                       lastSend := d.tb.cueCount, grant := none }
  let d := { d with coh := { d.coh with nextTxid := (txid + 1) % 8192 } }
  let d := cas.foldl (fun d ca => d.snoop ca line txid k false) d
  d.setLine line { d.hline line with phase := .waitSnp, txn := some t }

/-- Sends a grant, writes the agent's entry and goes to WAIT_ACK. -/
def Dev.grant (d : Dev) (k line cmsg : Nat) (m : CohMsg) (data : Bytes) (st : FState) (f : HomeFor) : Dev :=
  let g := gntMsg m .ok data
  let d := d.setEntry m.ca.toNat line m.way.toNat st
  let t : HomeTxn := { txid := 0, serves := f, snp := .snc, waiting := [], resp := [], data := none, resends := 0,
                       lastSend := d.tb.cueCount, grant := some (cmsg, g) }
  (d.setLine line { d.hline line with phase := .waitAck, txn := some t }).sendCoh k cmsg g

/-- Grants a read or ownership request with the line's data, or refuses it with POISON (R185, R186, R466). -/
def Dev.grantData (d : Dev) (k line cmsg : Nat) (m : CohMsg) (sr : Option Bytes) (st : FState) (f : HomeFor) : Dev :=
  match sr with
  | some bs => d.grant k line cmsg m bs st f
  | none =>
    let x := d.memRead (lineAddr line) 128
    match x.2 with
    | some bs => x.1.grant k line cmsg m bs st f
    | none => (x.1.setLine line { d.hline line with phase := .idle, txn := none }).cnak k line m .poison

/-- Agents other than ca that hold a line. -/
def Dev.others (d : Dev) (ca line : Nat) : List (Nat × FState) := (d.holders line).filter (fun h => h.1 ≠ ca)

/-- Whether some granule of a line is marked. -/
def Dev.lineMarked (d : Dev) (line : Nat) : Bool :=
  Tab.get false d.mem.marks (lineAddr line / 64) || Tab.get false d.mem.marks (lineAddr line / 64 + 1)

/-- RDX, or UPG of an agent whose copy is gone: ownership (R185). -/
def Dev.startOwn (d : Dev) (k line : Nat) (m : CohMsg) (f : HomeFor) : Dev :=
  if d.lineMarked line then (d.bump FLT_POISON_CNT).cnak k line m .poison
  else
    let o := (d.others m.ca.toNat line).map (·.1)
    if o = [] then d.grantData k line 0x1A m none .em f else d.startSnoops line f .sni o

/-- Whether the entry that a request names holds another line (R175). -/
def Dev.wayTaken (d : Dev) (line : Nat) (m : CohMsg) : Bool :=
  match Tab.find? d.coh.filter (d.wayKey m.ca.toNat line m.way.toNat) with
  | some e => e.line != line
  | none => false

/-- A request waits for its way (R175). -/
def Dev.waitWay (d : Dev) (k cmsg : Nat) (m : CohMsg) : Dev :=
  { d with coh := { d.coh with wayWait := d.coh.wayWait ++ [(k, cmsg, m)] } }

/-- A request starts on its idle line (the IDLE table of R185). [DEDUCED: log 194] -/
def Dev.startCoh (d : Dev) (k line cmsg : Nat) (m : CohMsg) : Dev :=
  let ca := m.ca.toNat
  let e := (d.entryOf ca line).map (·.2)
  let f := HomeFor.coh k cmsg m
  let o := d.others ca line
  if cmsg ≤ 3 ∧ d.caState ca ≠ .active then d.cnak k line m .access
  else if cmsg ≤ 3 ∧ d.wayTaken line m then d.waitWay k cmsg m
  else match cmsg with
  | 0x01 =>
    if e ≠ none then d.cnak k line m .badRequest
    else if d.lineMarked line then (d.bump FLT_POISON_CNT).cnak k line m .poison
    else if o = [] then d.grantData k line 0x19 m none .em f
    else match o.find? (fun h => h.2 != .s) with
      | none => d.grantData k line 0x18 m none .s f
      | some h => d.startSnoops line f .sns [h.1]
  | 0x02 => if e ≠ none then d.cnak k line m .badRequest else d.startOwn k line m f
  | 0x03 =>
    match e with
    | none => d.startOwn k line m f
    | some .em => d.cnak k line m .badRequest
    | some _ => if o = [] then d.grant k line 0x1B m [] .em f else d.startSnoops line f .sni (o.map (·.1))
  | 0x04 =>
    match e with
    | none => d.cohAnswer k line 0x1C m .ok
    | some .o => (((d.clearEntry ca line).poisonLine ca line).cohAnswer k line 0x1C m .ok).caErr ca
    | some _ => (d.clearEntry ca line).cohAnswer k line 0x1C m .ok
  | _ =>
    match e with
    | none => d.cohAnswer k line 0x1C m .ok
    | some .s => ((d.clearEntry ca line).cohAnswer k line 0x1C m .ok).caErr ca
    | some _ =>
      let x := d.write (lineAddr line) (slice m.data 0 128)
      let w := newFrames d x.1
      let d := x.1.clearEntry ca line
      if w = [] then d.cohAnswer k line 0x1C m .ok
      else { d with pair := { d.pair with waits := d.pair.waits ++ [(w, .cmp k 0x1C m)] } }

/-- An access, or the drain of an agent, starts on its idle line (R189, R195). -/
def Dev.startHome (d : Dev) (line : Nat) (f : HomeFor) : Dev :=
  match f with
  | .coh k cmsg m => d.startCoh k line cmsg m
  | .drain ca => match d.entryOf ca line with
    | some _ => d.startSnoops line f .sni [ca]
    | none => d
  | .lost => d
  | .access id =>
    match d.access id with
    | none => d
    | some a =>
      if a.kind = .load then
        match (d.holders line).find? (fun h => h.2 != .s) with
        | some h => d.startSnoops line f .snc [h.1]
        | none => d.linePart id line none
      else
        let o := (d.holders line).map (·.1)
        if o = [] then d.linePart id line none else d.startSnoops line f .sni o

/-- Starts the entries that wait for an idle line, one after another. The number bounds them. -/
def Dev.pump (d : Dev) (line : Nat) : Nat → Dev
  | 0 => d
  | n + 1 =>
    let h := d.hline line
    match h.phase, h.queue with
    | .idle, f :: rest => ((d.setLine line { h with queue := rest }).startHome line f).pump line n
    | _, _ => d

def Dev.pumpLine (d : Dev) (line : Nat) : Dev := d.pump line ((d.hline line).queue.length + 1)

/-- Adds an entry to a line's queue and starts it if the line is idle. -/
def Dev.enqLine (d : Dev) (line : Nat) (f : HomeFor) : Dev :=
  let h := d.hline line
  (d.setLine line { h with queue := h.queue ++ [f] }).pumpLine line

/-- The state an SR's NEWST records (R186): none is I. -/
def stOfNewst (n : Nat) : Option FState := match n with | 1 => some .s | 2 => some .em | 4 => some .em | 3 => some .o | _ => none

/-- Sets the entries of the snooped agents (R186). -/
def applyResp (d : Dev) (line : Nat) : List (Nat × Nat) → Dev
  | [] => d
  | r :: rs =>
    let d := match stOfNewst r.2 with
      | some st => d.setEntrySt r.1 line st
      | none => d.clearEntry r.1 line
    applyResp d line rs

/-- Whether no agent is left in O or EM. -/
def Dev.noOwner (d : Dev) (line : Nat) : Bool := (d.holders line).all (fun h => h.2 == .s)

/-- The last answer of a transaction has come: R186, and the finish of an access or a drain. -/
def Dev.finishSnoops (d : Dev) (line : Nat) (t : HomeTxn) : Dev :=
  let d : Dev := applyResp (d.setLine line { d.hline line with phase := .idle, txn := none }) line t.resp
  let back := fun (d : Dev) => match t.data with
    | some bs => if d.noOwner line then (d.write (lineAddr line) bs).1 else d
    | none => d
  let d : Dev := match t.serves with
    | .coh k cmsg m =>
      let ca := m.ca.toNat
      if d.caState ca ≠ .active then (back d).cnak k line m .access
      else if d.wayTaken line m then (back d).waitWay k cmsg m
      else if cmsg = 0x01 then
        let d := back d
        if d.others ca line = [] then d.grantData k line 0x19 m t.data .em t.serves else d.grantData k line 0x18 m t.data .s t.serves
      else match d.entryOf ca line with
        | some (_, .em) => d.grantData k line 0x1A m t.data .em t.serves
        | some _ => d.grant k line 0x1B m [] .em t.serves
        | none => d.grantData k line 0x1A m t.data .em t.serves
    | .access id =>
      let load := (d.access id).any (fun a => a.kind == .load)
      (if load then back d else d).linePart id line t.data
    | .drain _ | .lost => back d
  d.pumpLine line

/-- The active transaction of a line ends its wait if no snoop is outstanding. -/
def Dev.checkSnoops (d : Dev) (line : Nat) : Dev :=
  match (d.hline line).txn with
  | some t => if (d.hline line).phase = .waitSnp ∧ t.waiting = [] then d.finishSnoops line t else d
  | none => d

/-- Requests that wait for their way start once it is free (R175). The number bounds them. -/
def Dev.wakeWays (d : Dev) : Nat → Dev
  | 0 => d
  | n + 1 =>
    let lineOf := fun (m : CohMsg) => offOf m.addr.toNat / 128
    match d.coh.wayWait.find? (fun w => !d.wayTaken (lineOf w.2.2) w.2.2) with
    | none => d
    | some w =>
      (({ d with coh := { d.coh with wayWait := d.coh.wayWait.erase w } } : Dev).enqLine (lineOf w.2.2) (.coh w.1 w.2.1 w.2.2)).wakeWays n

def Dev.homeEnd (d : Dev) : Dev := d.wakeWays (d.coh.wayWait.length + 1)

/-! ## Accesses that start (R157, R158) -/

/-- Lines of NEAR that n bytes touch. -/
def nearLines (a n : Nat) : List Nat :=
  if spaceOf a = 1 ∧ n ≠ 0 then (List.range ((offOf a + n - 1) / 128 + 1 - offOf a / 128)).map (· + offOf a / 128) else []

/-- Whether two ranges share a byte. -/
def overlap (a n b m : Nat) : Bool := a < b + m && b < a + n

/-- Starts an access: at once outside NEAR, through its lines in NEAR. Under a duty of 0 no slot of a stack is usable, and an access to STRATUM
waits (R553). -/
def Dev.startAccess (d : Dev) (id : Nat) : Dev :=
  match d.access id with
  | none => d
  | some a =>
    let d := { d with coh := { d.coh with groups := d.coh.groups.filter (· ≠ id) } }
    let ls := nearLines a.addr a.n
    if spaceOf a.addr = 2 ∧ d.pwr.duty = 0 then d
    else if ls = [] then
      let x := d.doPiece a 0 a.addr a.n none
      (x.1.setAccess { x.2 with performed := true }).tryFinish id
    else ls.foldl (fun d l => d.enqLine l (.access id)) (d.setAccess { a with left := ls })

/-- Issues every pending atomic group that shares a byte with a range (R157, R158). [DESIGN CHOICE: log 85] -/
def Dev.issueGroups (d : Dev) (a n : Nat) : Dev :=
  (d.coh.groups.filter (fun id => (d.access id).any (fun x => overlap x.addr x.n a n))).foldl Dev.startAccess d

/-- A request takes its place in a line's queue, behind the atomic groups of the line that came before it (R158, R178). -/
def Dev.takeTurn (d : Dev) (line : Nat) (f : HomeFor) : Dev := (d.issueGroups (lineAddr line) 128).enqLine line f

/-! ## Messages at the home (R169, R171, R175, R180, R181, R187) -/

/-- Whether a message is malformed (R180): D, a reserved field or value, or a field that its CMSG does not use. [DEDUCED: log 83] -/
def cohMalformed (cmsg : Nat) (m : CohMsg) : Bool :=
  m.rsv || m.status ≠ 0 || (cmsg != 0x10 && (m.newst ≠ 0 || m.htile ≠ 0)) || 4 < m.newst.toNat || (0x10 ≤ cmsg && m.way ≠ 0) ||
  (cmsg == 0x10 && m.rseq ≠ 0) || (0x10 ≤ cmsg && m.addr.toNat % 128 ≠ 0) || (if cmsg == 0x05 then !m.d else if cmsg == 0x10 then false else m.d)

/-- Whether the home takes a message of an agent on a link (R181, R194). -/
def Dev.cohTaken (d : Dev) (k : Nat) (m : CohMsg) : Bool :=
  (d.caState m.ca.toNat == .active || d.caState m.ca.toNat == .draining) && k ∈ d.caLinks m.ca.toNat

def sameReq (m : CohMsg) : HomeFor → Bool
  | .coh _ _ x => x.ca == m.ca && x.rseq == m.rseq
  | _ => false

/-- The CMP of this eviction waits for the understudy's acknowledgement (R185). -/
def waitsCmp (m : CohMsg) (w : List (Nat × Nat) × PairWait) : Bool :=
  match w.2 with
  | .cmp _ _ x => x.ca == m.ca && x.rseq == m.rseq
  | _ => false

/-- What a repeated request finds (R187): none, if the request is new. -/
def Dev.cohRepeat (d : Dev) (k line : Nat) (m : CohMsg) : Option Dev :=
  let h := d.hline line
  if h.queue.any (sameReq m) || d.coh.wayWait.any (fun w => w.2.2.ca == m.ca && w.2.2.rseq == m.rseq) || d.pair.waits.any (waitsCmp m) then some d
  else if h.txn.any (fun t => sameReq m t.serves) then
    if h.phase = .waitAck then
      match h.txn.bind (·.grant) with
      | some g =>
        let d := (d.bump (GL_CA_RTX + 8 * m.ca.toNat)).sendCoh k g.1 { g.2 with rtx := true }
        some (d.setLine line { h with txn := h.txn.map (fun t => { t with lastSend := d.tb.cueCount }) })
      | none => some d
    else some d
  else match d.coh.done.find? (fun e => e.ca == m.ca.toNat && e.rseq == m.rseq && e.line == line && d.tb.cueCount ≤ e.cue + 32) with
    | some e => match e.answer with
      | some a => some (d.sendCoh k a.1 a.2)
      | none => some d
    | none => none

/-- A request of the REQ channel arrives. [DEDUCED: log 83] -/
def Dev.cohRequest (d : Dev) (k cmsg : Nat) (m : CohMsg) : Dev :=
  let ca := m.ca.toNat
  let a := m.addr.toNat
  let line := offOf a / 128
  if cohMalformed cmsg m ∨ !d.cohTaken k m then d.caErr ca
  else if d.flt.fatal then d.cnak k line m .poison
  else match (if spaceOf a = 1 then d.cohRepeat k line m else none) with
  | some d => d
  | none =>
    if spaceOf a ≠ 1 ∨ nearSize ≤ offOf a ∨ a % 128 ≠ 0 then d.cnak k line m .badRequest
    else if cmsg ≤ 3 then
      if d.caState ca = .draining then d.cnak k line m .access
      else if !d.owns (d.caPart ca) a 128 ∨ inPromptBook a 128 then d.cnak k line m .access
      else if d.caWays ca ≤ m.way.toNat then (d.cnak k line m .badRequest).caErr ca
      else if d.wayTaken line m then d.waitWay k cmsg m
      else (d.takeTurn line (.coh k cmsg m)).homeEnd
    else if d.caWays ca ≤ m.way.toNat then d.caErr ca
    else (d.takeTurn line (.coh k cmsg m)).homeEnd

/-- Whether NEWST is allowed for a snoop (R188). -/
def newstOk (k : SnpKind) (rec? : Option FState) (n : Nat) : Bool :=
  match k with
  | .sns => n == 0 || n == 1 || n == 3
  | .sni => n == 0
  | .snc => n == 0 || (match rec? with | some .s => n == 1 | some .em => n == 2 || n == 4 | some .o => n == 3 | none => false)

/-- A snoop response arrives (R186 to R188). -/
def Dev.cohSr (d : Dev) (k : Nat) (m : CohMsg) : Dev :=
  let ca := m.ca.toNat
  let line := offOf m.addr.toNat / 128
  if cohMalformed 0x10 m ∨ !d.cohTaken k m then d.caErr ca
  else match (d.hline line).txn with
  | some t =>
    if (d.hline line).phase = .waitSnp ∧ t.txid = m.id.toNat ∧ m.htile.toNat = lineHome line ∧ spaceOf m.addr.toNat = 1 ∧ t.waiting.any (fun w => w.1 == ca) then
      let rec' := (d.entryOf ca line).map (·.2)
      let bad := !newstOk t.snp rec' m.newst.toNat
      let d := if bad then d.caErr ca else d
      let d := if bad ∧ !m.d ∧ (rec' = some .em ∨ rec' = some .o) then d.poisonLine ca line else d
      let t := { t with waiting := t.waiting.filter (fun w => w.1 ≠ ca), resp := t.resp ++ [(ca, if bad then 0 else m.newst.toNat)],
                        data := if m.d then some (slice m.data 0 128) else t.data }
      ((d.setLine line { d.hline line with txn := some t }).checkSnoops line).homeEnd
    else d.caErr ca
  | none => d.caErr ca

/-- A GACK arrives (R187). -/
def Dev.cohGack (d : Dev) (k : Nat) (m : CohMsg) : Dev :=
  let ca := m.ca.toNat
  let line := offOf m.addr.toNat / 128
  if cohMalformed 0x11 m ∨ !d.cohTaken k m then d.caErr ca
  else match (d.hline line).phase, (d.hline line).txn with
  | .waitAck, some t =>
    if sameReq m t.serves ∧ spaceOf m.addr.toNat = 1 then
      (((d.keepDone line m none).setLine line { d.hline line with phase := .idle, txn := none }).pumpLine line).homeEnd
    else d.caErr ca
  | _, _ => d.caErr ca

/-! ## Failed and draining agents (R191, R194, R195) -/

/-- Lines that an agent holds: line and state. -/
def Dev.linesOf (d : Dev) (ca : Nat) : List (Nat × FState) :=
  (d.coh.filter.filter (fun e => e.1 / (16 * 8192) % 16 == ca)).map (fun e => (e.2.line, e.2.st))

/-- Resolves the snoops to an agent as SR I on one line. -/
def Dev.resolveLine (d : Dev) (ca line : Nat) : Dev :=
  match (d.hline line).phase, (d.hline line).txn with
  | .waitSnp, some t =>
    if t.waiting.any (fun w => w.1 == ca) then
      let t := { t with waiting := t.waiting.filter (fun w => w.1 ≠ ca), resp := t.resp ++ [(ca, 0)] }
      (d.setLine line { d.hline line with txn := some t }).checkSnoops line
    else d
  | .waitAck, some t =>
    match t.serves with
    | .coh _ _ m => if m.ca.toNat = ca then (d.setLine line { d.hline line with phase := .idle, txn := none }).pumpLine line else d
    | _ => d
  | _, _ => d

/-- The transactions of an agent declared failed go on without it (R194 step 5). -/
def loseRequester (ca : Nat) (h : HLine) : HLine :=
  { h with txn := h.txn.map (fun t =>
      match t.serves with
      | .coh _ _ m => if m.ca.toNat = ca ∧ h.phase = .waitSnp then { t with serves := .lost } else t
      | _ => t) }

/-- Discards an agent's requests that wait at the home. -/
def Dev.dropWaiting (d : Dev) (ca : Nat) : Dev :=
  let keep := fun (f : HomeFor) => match f with | .coh _ _ m => m.ca.toNat != ca | _ => true
  { d with coh := { d.coh with
      lines := d.coh.lines.map (fun e => (e.1, loseRequester ca { e.2 with queue := e.2.queue.filter keep }))
      wayWait := d.coh.wayWait.filter (fun w => w.2.2.ca.toNat ≠ ca) } }

/-- Agent ca is declared failed (R194). -/
def Dev.caFail (d : Dev) (ca : Nat) : Dev :=
  if d.caState ca = .active ∨ d.caState ca = .draining then
    let held := d.linesOf ca
    let dirty := held.filter (fun h => h.2 ≠ .s)
    let d := if d.caState ca = .draining then d.event GL_CA_EVT (16 + ca) false else d
    let d := (d.setCaState ca .failed).event GL_CA_EVT ca false
    let d := d.report 0x30 1 (mkOrigin 6 15 ca 0 (d.caPart ca)) ca dirty.length 0
    let d := d.setFilter (d.coh.filter.filter (fun e => e.1 / (16 * 8192) % 16 ≠ ca))
    let d := dirty.foldl (fun d h => d.poisonLine ca h.1) d
    let d := d.dropWaiting ca
    ((d.coh.lines.map (·.1)).foldl (fun d l => d.resolveLine ca l) d).homeEnd
  else d

/-- T_SNP of a line expires (R187, R191). -/
def Dev.snpExpiry (d : Dev) (line : Nat) : Dev :=
  match (d.hline line).phase, (d.hline line).txn with
  | .waitSnp, some t =>
    if d.tb.cueCount < t.lastSend + 2 then d
    else if t.resends < 3 then
      let d := t.waiting.foldl (fun d w => (d.bump (GL_CA_RTX + 8 * w.1)).snoop w.1 line t.txid t.snp true) d
      d.setLine line { d.hline line with txn := some { t with resends := t.resends + 1, lastSend := d.tb.cueCount } }
    else t.waiting.foldl (fun d w => d.caFail w.1) d
  | _, _ => d

/-- T_GACK of a line expires. -/
def Dev.gackExpiry (d : Dev) (line : Nat) : Dev :=
  match (d.hline line).phase, (d.hline line).txn with
  | .waitAck, some t =>
    if d.tb.cueCount < t.lastSend + 8 then d
    else match t.serves, t.grant with
      | .coh k _ m, some g =>
        if t.resends < 3 then
          let d := (d.bump (GL_CA_RTX + 8 * m.ca.toNat)).sendCoh k g.1 { g.2 with rtx := true }
          d.setLine line { d.hline line with txn := some { t with resends := t.resends + 1, lastSend := d.tb.cueCount } }
        else
          let d := d.caFail m.ca.toNat
          if (d.hline line).phase = .waitAck ∧ (d.hline line).txn = some t then
            ((d.setLine line { d.hline line with phase := .idle, txn := none }).pumpLine line).homeEnd
          else d
      | _, _ => d
  | _, _ => d

/-- Writes of GL_CA_CFG_n (R195, R196). -/
def Dev.writeCa (d : Dev) (n v : Nat) : Dev :=
  let off := GL_CA_CFG + 8 * n
  let v := v % 2 ^ 49
  match d.caState n with
  | .draining => d
  | .active =>
    if fld v 0 1 = 1 then d
    else
      let d := (d.setCaState n .draining).putReg off (setFld (d.reg off) 0 1 0)
      let mine := d.coh.wayWait.filter (fun w => w.2.2.ca.toNat = n)
      let d := mine.foldl (fun (d : Dev) w => d.cnak w.1 (offOf w.2.2.addr.toNat / 128) w.2.2 .access)
        { d with coh := { d.coh with wayWait := d.coh.wayWait.filter (fun w => w.2.2.ca.toNat ≠ n) } }
      ((d.linesOf n).foldl (fun d h => d.takeTurn h.1 (.drain n)) d).homeEnd
  | .failed =>
    if fld v 0 1 = 1 then d.putReg off (setFld v 0 1 (d.regFld off 0 1))
    else (d.setCaState n .disabled).putReg off v
  | .disabled =>
    if fld v 0 1 = 0 then d.putReg off v
    else
      let links := bitsSet 36 (fld v 13 36)
      let taken := (List.range 16).any (fun m => m ≠ n && d.regFld (GL_CA_CFG + 8 * m) 0 1 == 1 && links.any (fun k => k ∈ d.caLinks m))
      if 13 < fld v 9 4 ∨ links.any (fun k => d.role k ≠ 1) ∨ taken then
        d.setRegBit (GL_CA_STAT + 8 * n) 20
      else
        let d := (d.setCaState n .active).putReg off v
        { d with coh := { d.coh with everUp := Tab.set false d.coh.everUp n (links.any d.isUp) } }

/-- What a home transaction does for agent n: one of its requests, or its drain. -/
def HomeFor.isOf (n : Nat) : HomeFor → Bool
  | .coh _ _ m => m.ca.toNat == n
  | .drain ca => ca == n
  | _ => false

/-- A draining agent that holds no line any more, and none of whose requests is left at the home, is DISABLED (R195). -/
def Dev.drainDone (d : Dev) (n : Nat) : Dev :=
  if d.caState n = .draining ∧ d.linesOf n = [] ∧
     !d.coh.lines.any (fun e => e.2.txn.any (fun t => t.serves.isOf n) || e.2.queue.any (HomeFor.isOf n)) then
    (d.setCaState n .disabled).event GL_CA_EVT (16 + n) false
  else d

/-! ## Accesses arrive (R155 to R157, R189) -/

/-- Issues every pending atomic group: the end of the cue. [DESIGN CHOICE: log 85] -/
def Dev.issueAllGroups (d : Dev) : Dev := d.coh.groups.foldl Dev.startAccess d

/-- A store or atomic closes read groups of its bytes (R157). -/
def Dev.closeReads (d : Dev) (a n : Nat) : Dev :=
  { d with coh := { d.coh with accs := d.coh.accs.map (fun e =>
      if e.2.kind == .load && overlap e.2.addr e.2.n a n then (e.1, { e.2 with closed := true }) else e) } }

/-- The group that a read joins (R155). [DEDUCED: log 86] -/
def Dev.readGroup (d : Dev) (a n part : Nat) : Option Access :=
  (List.find? (fun (e : Nat × Access) => e.2.kind == .load && e.2.addr == a && e.2.n == n && e.2.part == part && e.2.cue == d.tb.cueCount &&
    !e.2.closed && !e.2.isSync && e.2.left == nearLines a n && !e.2.performed) d.coh.accs).map (·.2)

/-- The group that an atomic joins (R156). -/
def Dev.atomGroup (d : Dev) (a n part op : Nat) : Option Access :=
  (d.coh.groups.filterMap d.access).find? (fun x => x.addr == a && x.n == n && x.part == part && x.aop == op && x.cue == d.tb.cueCount)

/-- A new access of a party arrives at the homes; answers its record's number. Partition 16 is the host. One that comes alone joins no
group, and none joins it (R145). -/
def Dev.newAccess (d : Dev) (kind : AccKind) (a n : Nat) (data : Bytes) (op part : Nat) (o : Origin) (alone : Bool := false) : Dev × Nat :=
  let id := d.coh.nextAcc
  let fresh : Access := { id := id, kind := kind, addr := a, n := n, data := data, aop := op, part := part, cue := d.tb.cueCount, origin := o,
                          members := [(o, data)], closed := alone, left := [], status := .ok, lineData := [], waitMack := [],
                          performed := false, result := [] }
  let add := fun (d : Dev) => ({ d with coh := { d.coh with nextAcc := id + 1 } } : Dev).setAccess fresh
  match kind with
  | .load =>
    match (if o.party?.isSome ∨ alone then none else d.readGroup a n part) with
    | some g => (({ d with coh := { d.coh with nextAcc := id + 1 } } : Dev).setAccess { g with members := g.members ++ [(o, [])] }, g.id)
    | none => (add (d.issueGroups a n), id)
  | .store => (add ((d.issueGroups a n).closeReads a n), id)
  | .atomic =>
    match (if combinable op then d.atomGroup a n part op else none) with
    | some g => (({ d with coh := { d.coh with nextAcc := id + 1 } } : Dev).setAccess { g with members := g.members ++ [(o, data)] }, g.id)
    | none =>
      let d := add ((d.issueGroups a n).closeReads a n)
      (if combinable op then { d with coh := { d.coh with groups := d.coh.groups ++ [id] } } else d, id)

/-- Starts a new access unless it joined a group or waits as one. -/
def Dev.runAccess (d : Dev) (id : Nat) : Dev :=
  if id ∈ d.coh.groups ∨ (d.access id).any (fun a => a.left ≠ [] || a.performed) then d else (d.startAccess id).homeEnd

/-- The accesses to STRATUM that waited for a usable slot of their stack start (R553). -/
def Dev.startHeld (d : Dev) : Dev :=
  if d.pwr.duty = 0 then d
  else ((d.coh.accs.filter (fun (e : Nat × Access) => spaceOf e.2.addr == 2 && !e.2.performed && !d.coh.groups.contains e.1)).map (·.1)).foldl
    Dev.startAccess d

/-- An access of an agent or the host. -/
def Dev.homeAccess (d : Dev) (kind : AccKind) (a n : Nat) (data : Bytes) (op part : Nat) (o : Origin) : Dev :=
  let x := d.newAccess kind a n data op part o
  x.1.runAccess x.2

/-- A repeated read of an agent: an access of its own (R145). -/
def Dev.homeReread (d : Dev) (a n part : Nat) (o : Origin) : Dev :=
  let x := d.newAccess .load a n [] 0 part o true
  x.1.runAccess x.2

/-! ## COPYs, engines and the device's own accesses -/

/-- The work of a party of the device: what it fetches is its own. -/
def Dev.asParty (p : Nat) (body : Dev → Dev) (d : Dev) : Dev :=
  let x := body { d with coh := { d.coh with party := p } }
  { x with coh := { x.coh with party := d.coh.party } }

/-- Whether an access is a line fetched for the present party. -/
def Dev.fetchedFor (d : Dev) (line : Nat) (a : Access) : Bool := a.fetched && a.origin == .sync d.coh.party && a.addr == lineAddr line

/-- The newest data of a line that an agent keeps dirty, fetched for the present party. -/
def Dev.syncData (d : Dev) (line : Nat) : Option Bytes :=
  d.coh.accs.findSome? (fun e => if d.fetchedFor line e.2 then
    (match Tab.get [] e.2.lineData (lineAddr line) with | [] => none | bs => some bs) else none)

/-- Whether a line's holders were asked for the present party. -/
def Dev.syncSeen (d : Dev) (line : Nat) : Bool := d.coh.accs.any (fun e => d.fetchedFor line e.2)

def Dev.lineIdle (d : Dev) (line : Nat) : Bool := (d.hline line).phase == .idle && (d.hline line).queue == []

/-- Lines of ranges that must be snooped first: for a read, those an agent may hold newer; for a write, those any agent holds. -/
def Dev.readConflicts (d : Dev) (l : List (Nat × Nat)) : List Nat :=
  (l.flatMap (fun r => nearLines r.1 r.2)).filter (fun x => (!d.lineIdle x || !d.noOwner x) && !d.syncSeen x)

def Dev.writeConflicts (d : Dev) (l : List (Nat × Nat)) : List Nat :=
  (l.flatMap (fun r => nearLines r.1 r.2)).filter (fun x => !d.lineIdle x || d.holders x ≠ [])

/-- Starts the snoops of a line for a COPY or an engine, once. [DESIGN CHOICE: log 87] -/
def Dev.syncLine (d : Dev) (kind : AccKind) (line : Nat) : Dev :=
  if d.coh.accs.any (fun e => e.2.origin == .sync d.coh.party && e.2.kind == kind && e.2.addr == lineAddr line && !e.2.performed) then d
  else d.homeAccess kind (lineAddr line) 128 [] 0 17 (.sync d.coh.party)

/-- Whether a COPY or an engine may read and write ranges now; where a line is held or busy, its snoops are started (R189).
[DESIGN CHOICE: log 14, 87] -/
def Dev.ready (d : Dev) (reads writes : List (Nat × Nat)) : Dev × Bool :=
  let d := (reads ++ writes).foldl (fun d r => d.issueGroups r.1 r.2) d
  let rc := d.readConflicts reads
  let wc := d.writeConflicts writes
  if rc = [] ∧ wc = [] then (d, true)
  else (wc.foldl (fun d l => d.syncLine .store l) (rc.foldl (fun d l => d.syncLine .load l) d), false)

/-- Forgets what was fetched for a party; the snoops that still run for it end by themselves. -/
def Dev.dropSyncOf (d : Dev) (p : Nat) : Dev :=
  let d := d.dropPool p
  let accs := (d.coh.accs.filter (fun (e : Nat × Access) => !(e.2.origin == .sync p && e.2.performed))).map (fun (e : Nat × Access) =>
    if e.2.origin = .sync p then (e.1, { e.2 with origin := .sync 0 }) else e)
  { d with coh := { d.coh with accs := accs }, cxl := { d.cxl with held := d.cxl.held.filter (fun e => e.1 / 2 ^ 46 != p) } }

/-- Forgets what was fetched for the present party. -/
def Dev.dropSync (d : Dev) : Dev := d.dropSyncOf d.coh.party

/-- Runs a body that reads and writes memory once its ranges are ready. [DESIGN CHOICE: log 87] -/
def Dev.whenReady (d : Dev) (reads writes : List (Nat × Nat)) (body : Dev → Dev) : Dev :=
  let x := d.ready reads writes
  if x.2 then (body x.1).dropSync else x.1

/-- A read by a COPY or an engine: bytes, and the granules that were bad; fetched line data stands in for the bank. -/
def Dev.read (d : Dev) (a n : Nat) : Dev × Bytes × List Nat :=
  let x := d.memReadZ a n
  let held := (nearLines a n).filterMap (fun l => (d.syncData l).map (fun bs => (l, bs)))
  (x.1, held.foldl (fun b e =>
      let lo := max a (lineAddr e.1)
      let hi := min (a + n) (lineAddr e.1 + 128)
      overlay b (lo - a) (slice e.2 (lo - lineAddr e.1) (hi - lo))) x.2.1,
    x.2.2.filter (fun g => !held.any (fun e => lineAddr e.1 / 64 == g || lineAddr e.1 / 64 + 1 == g)))

end Sys2Proof.Machine
end

