-- ==== Sys2Proof/Machine/Txn.lean ====
section
/-! DEFINITION. Reception of Galter requests (chapter 5): acceptance, the checks of R137 in their order, tag records and duplicates,
and the execution of RD, WR, WRF, ATOM, MSG; timers of held flags, receipts and records. -/

namespace Sys2Proof.Machine

/-! ## HOST reads (R538) -/

/-- 64 B lines of host memory that n bytes touch. -/
def hostLineCount (a n : Nat) : Nat := if n = 0 then 0 else (offOf a + n - 1) / 64 + 1 - offOf a / 64

/-- Starts a HOST read: one RdCurr for each line; line i of read j has the number j × 2^24 + i. -/
def Dev.hostRead (d : Dev) (f : HostFor) (a n : Nat) : Dev :=
  let j := d.cxl.nextRead
  let lines := List.range (hostLineCount a n)
  let d := { d with cxl := { d.cxl with nextRead := j + 1, reads := Tab.insert d.cxl.reads j { serves := f, addr := a, n := n, left := lines, got := [], bad := false } } }
  lines.foldl (fun d i => d.emit (.rdCurr (j * 2 ^ 24 + i) ((offOf a / 64 + i) * 64))) d

/-! ## The checks of R137 -/

/-- TYPE of a transaction on a link role (R134): what an agent or peer may send the device. -/
def typeAllowed (role typ : Nat) : Bool :=
  match role with
  | 1 => typ ≤ 4
  | 3 => typ == 4 || typ == 5
  | _ => false

/-- Tag allowance in force on a link. -/
def Dev.tagLimit (d : Dev) (k : Nat) : Nat := (d.link k).tags

/-- OPX of an ATOM: operation and width in bytes. -/
def opxOp (t : Txn) : Nat := t.opx.toNat % 16
def opxWidth (t : Txn) : Nat := if bitAt t.opx.toNat 4 then 8 else 4

/-- Check 1: a reserved TYPE, reserved field or reserved OPX. -/
def check1 (typ : Nat) (t : Txn) : Bool := 6 ≤ typ || t.rsv || (if typ = 3 then 0xA < opxOp t else t.opx ≠ 0)

/-- Check 4: LEN and NOPS in range, and the operation defined for its width. -/
def check4 (typ : Nat) (t : Txn) : Bool :=
  let n := t.len.toNat
  match typ with
  | 0 => n < 1 || 4096 < n
  | 1 => n < 1 || 4096 < n
  | 2 => n < 1 || 4096 < n
  | 3 => n ≠ (if opxOp t = 9 then 2 * opxWidth t else opxWidth t) || !atomDefined (opxOp t) (opxWidth t)
  | 4 => 192 < n || 4 < t.nops.toNat
  | _ => 4096 < n

/-- The address check of a flag (R126). -/
def Dev.checkFlag (d : Dev) (p a : Nat) : Status :=
  if a % 8 ≠ 0 ∨ !inMem a 8 then .badRequest else d.checkAccess p a 8 true

/-- Check 5: addresses, rights and alignment. [DESIGN CHOICE: log 189] -/
def Dev.check5 (d : Dev) (p typ : Nat) (t : Txn) : Status :=
  let a := t.addr.toNat
  let n := t.len.toNat
  match typ with
  | 0 => d.checkAccess p a n false
  | 1 => d.checkAccess p a n true
  | 2 => joinStatus (d.checkAccess p a n true) (d.checkFlag p t.flagAddr.toNat)
  | 3 =>
    let w := opxWidth t
    let st := d.checkAccess p a w true
    if st = .ok ∧ a % w ≠ 0 then .badRequest else st
  | _ => .ok

/-- Checks 1 to 5: the first that refuses decides. -/
def Dev.checkRequest (d : Dev) (k typ : Nat) (t : Txn) : Status :=
  if check1 typ t then .badRequest
  else if d.tagLimit k ≤ t.tag.toNat then .badRequest
  else if !typeAllowed (d.role k) typ then .access
  else match d.streamPart k t.stream.toNat with
  | none => .access
  | some p =>
    if 6 ≤ t.tc.toNat ∧ !bitAt (d.regFld POL_PRIV 0 16) p then .access
    else if check4 typ t then .badRequest
    else d.check5 p typ t

/-! ## Acceptance (R138, R143 to R146, R203, R212) -/

def kindOf (typ : Nat) : TxKind :=
  match typ with
  | 0 => .rd | 1 => .wr | 2 => .wrf | 3 => .atom | 4 => .opreq | _ => .msg

/-- The identity that the answers of a request carry; a request of a source moves its RSEQ on (R128). -/
def Dev.reqId (d : Dev) (k typ : Nat) (t : Txn) : Dev × ReqId :=
  let d' := if typ = 5 then d else d.noteRseq k t.stream t.rseq
  ({ d' with txn := { d'.txn with nextUid := d.txn.nextUid + 1 } },
    { link := k, tag := t.tag, stream := t.stream, rseq := t.rseq, tc := t.tc, cong := t.cong, uid := d.txn.nextUid, opcode := t.opcode.toNat,
      rsv := answerCells typ t })

/-- Refuses a request: a NAK, which for WR and ATOM counts, and which resolves a WRF (R127, R128, R130). -/
def Dev.refuse (d : Dev) (typ : Nat) (r : ReqId) (st : Status) : Dev :=
  let d := d.sendCompletion r st 0 []
  if typ = 1 ∨ typ = 3 then (d.countStore r.link r.stream r.rseq (some st)).settleSrc r.link r.stream
  else if typ = 2 ∧ !(d.src r.link r.stream).held.any (fun h => h.rseq == r.rseq.toNat) then
    (d.setSrc r.link r.stream (wrfResolve (d.src r.link r.stream) r.rseq.toNat)).settleSrc r.link r.stream
  else d

/-- Sends the receipt of a request and frees the cells reserved for its answer: a duplicate's own. -/
def Dev.dupReceipt (d : Dev) (r : ReqId) : Dev := (d.unreserve r.link r.rsv).ansOut r.link (receiptOf r) false

/-- Replays a completed request (R145, R146). -/
def Dev.replay (d : Dev) (rec' : TagRec) (r : ReqId) : Dev :=
  if rec'.dropped then d.sendCompletion r .timeout 0 [] else d.sendCompletion r rec'.status rec'.aux rec'.ret

/-- Whether some extent of a POOL range is sealed under a shared set while no seed is held (R502). -/
def Dev.keyless (d : Dev) (a n : Nat) : Bool :=
  d.sec.seed.isNone && (framesOf (offOf a) n).any (fun i => match Tab.find? d.ver.extents i with
    | some e => (Tab.find? d.ver.regions e.region).any Region.shared
    | none => false)

/-- Executes a read of NEAR, STRATUM, POOL or HOST for an agent; a repeat joins no combined access (R145). -/
def Dev.runRead (d : Dev) (p : Nat) (r : ReqId) (t : Txn) (again : Bool := false) : Dev :=
  let a := t.addr.toNat
  let n := t.len.toNat
  match spaceOf a with
  | 3 =>
    if d.keyless a n then d.complete r .rd .busy 0 []
    else if d.poolLive a n then d.poolRead (.agent r) (offOf a) n
    else d.complete r .rd .revoked 0 []
  | 4 => d.hostRead (.agent r) a n
  | _ => if again then d.homeReread a n p (.agent r .rd) else d.homeAccess .load a n [] 0 p (.agent r .rd)

/-- Acceptance numbers of a source's stores that still run (R129). -/
def runningStores (s : WrfSrc) : List Nat :=
  (s.counted.filter (fun c => c.done.isNone)).map (·.seq) ++ (s.held.filter (fun h => h.dataDone.isNone)).map (·.seq) ++ s.loose.map (·.seq)

/-- A WRF is accepted: its record is kept and its data written (R126 to R129). -/
def Dev.runWrf (d : Dev) (p : Nat) (r : ReqId) (t : Txn) : Dev :=
  let s : WrfSrc := d.src r.link r.stream
  let h : HeldWrf := { txn := t, id := r, rseq := t.rseq.toNat, pos := s.posOf t.rseq.toNat, accepted := d.tb.cueCount, seq := s.seq, dataDone := none,
                       waitFor := runningStores s, failing := false }
  let d := d.setSrc r.link r.stream { s with held := s.held ++ [h], seq := s.seq + 1 }
  d.homeAccess .store t.addr.toNat t.len.toNat (slice t.data 0 t.len.toNat) 0 p (.agent r .wrf)

/-- Executes an accepted request; oper runs an OPREQ. [DEDUCED: log 48, 158] -/
def Dev.runRequest (oper : Dev → Nat → ReqId → Txn → Dev) (d : Dev) (p typ : Nat) (r : ReqId) (t : Txn) : Dev :=
  match typ with
  | 0 => d.runRead p r t
  | 1 =>
    (d.countStore r.link r.stream r.rseq none).homeAccess .store t.addr.toNat t.len.toNat (slice t.data 0 t.len.toNat) 0 p (.agent r .wr)
  | 2 => d.runWrf p r t
  | 3 =>
    (d.countStore r.link r.stream r.rseq none).homeAccess .atomic t.addr.toNat (opxWidth t) (slice t.data 0 t.len.toNat) (opxOp t) p
      (.agent r .atom)
  | _ => oper d p r t

/-- A request is accepted for the first time: a SNOOP_PORT on its link folds its payload (R286). -/
def Dev.noteAccepted (d : Dev) (typ : Nat) (r : ReqId) (t : Txn) : Dev :=
  d.portFold r.link 0 r.stream.toNat (if typ = 0 then [] else slice t.data 0 t.len.toNat)

/-- The record of a request that is accepted for the first time (R145). -/
def freshTag (r : ReqId) (typ : Nat) : TagRec :=
  { id := r, kind := kindOf typ, done := false, status := .ok, aux := 0, ret := [], dropped := false, receipted := false, again := [], doneCue := 0 }

/-- The tile that takes a request's packet from the mesh: the home or stack tile of its address (R24, R26); none for one that its attach
tile serves itself. -/
def reqTile (typ : Nat) (t : Txn) : Option Nat := if typ ≤ 3 ∧ inMem t.addr.toNat 1 then some (memTile t.addr.toNat) else none

/-- A tile accepts a request's packet from the mesh; what was accepted 16 cues ago or longer is forgotten (R147). -/
def Dev.noteMesh (d : Dev) (typ : Nat) (t : Txn) (k : Nat) : Dev :=
  match reqTile typ t with
  | none => d
  | some dst => { d with txn := { d.txn with
      mesh := d.txn.mesh.filter (fun m => d.tb.cueCount < m.cue + 16) ++
        [{ link := k, tag := t.tag, rseq := t.rseq, src := attachTile k, dst := dst, cue := d.tb.cueCount }] } }

/-- Check 6 and execution (R145). [DEDUCED: log 158] -/
def Dev.acceptChecked (oper : Dev → Nat → ReqId → Txn → Dev) (d : Dev) (p typ : Nat) (r : ReqId) (t : Txn) : Dev :=
  match d.tagRec r.link t.tag with
  | some rec' =>
    if rec'.id.rseq = t.rseq then
      if !rec'.done then d.dupReceipt r
      else if typ = 0 then (d.setTagRec r.link t.tag { rec' with again := rec'.again ++ [r.uid] }).runRead p r t true
      else d.replay rec' r
    else if !rec'.done then d.refuse typ r .busy
    else ((((d.dropReplay r.link t.tag).setTagRec r.link t.tag (freshTag r typ)).noteAccepted typ r t).noteMesh typ t r.link).runRequest oper p typ r t
  | none => (((d.setTagRec r.link t.tag (freshTag r typ)).noteAccepted typ r t).noteMesh typ t r.link).runRequest oper p typ r t

/-! ## MSG (R160 to R164) -/

/-- A session notice: its word 1 is no address, and its slice takes the payload (R404). -/
def isSesNotice (t : Txn) : Bool := noticeKind t == 0xB

/-- The checks of R162: those of R137, the arriving link's partitions, the destination and the context. [DESIGN CHOICE: log 190] -/
def Dev.checkMsg (d : Dev) (k : Nat) (t : Txn) : Status :=
  let p := t.route.dstPart.toNat
  let c := routeCtx t
  if check1 5 t then .badRequest
  else if d.tagLimit k ≤ t.tag.toNat then .badRequest
  else if !typeAllowed (d.role k) 5 then .access
  else match d.streamPart k t.stream.toNat with
  | none => .access
  | some q =>
    if 6 ≤ t.tc.toNat ∧ !bitAt (d.regFld POL_PRIV 0 16) q then .access
    else if check4 5 t then .badRequest
    else if 12 ≤ c.tile ∨ c.ctx = 15 then .badRequest
    else if !d.peerCarries k p then .access
    else if isSesNotice t then .ok
    else
      let st := if t.len = 0 then .ok else d.checkAccess p t.addr.toNat t.len.toNat true
      if st ≠ .ok then st else if d.ctxPart c ≠ some p then .access else .ok

/-- Entries of a context's message queue in use or reserved; a notice takes none (R252, R404). -/
def Dev.msgSlots (d : Dev) (c : CtxId) : Nat :=
  (d.ctx c).msgq.length + (d.txn.msgTags.filter (fun e => !e.2.done && !isNotice e.2.txn && routeCtx e.2.txn == c)).length

/-- The payload of a notice has been written, or failed: its engine runs it, or it completes with the failure (R252, R404). -/
def Dev.runStored (notice : Dev → ReqId → Txn → Dev) (d : Dev) (key : Nat) : Dev :=
  match Tab.find? d.txn.msgTags key with
  | some m =>
    match m.stored with
    | some st =>
      let d := { d with txn := { d.txn with msgTags := Tab.insert d.txn.msgTags key { m with stored := none } } }
      if st = .ok then notice d m.id m.txn else d.msgFinish m.id m.txn st
    | none => d
  | none => d

/-- Runs every notice whose payload has been written since. -/
def Dev.runAllStored (notice : Dev → ReqId → Txn → Dev) (d : Dev) : Dev := (d.txn.msgTags.map (·.1)).foldl (fun d k => d.runStored notice k) d

/-- A MSG that is not a duplicate: steps 2 to 5 of R162; a notice takes no queue entry (R252, R404). -/
def Dev.freshMsg (notice : Dev → ReqId → Txn → Dev) (d : Dev) (r : ReqId) (t : Txn) : Dev :=
  let key := msgKey t.route.srcDev.toNat t.tag
  let fresh : MsgRec := { id := r, txn := t, rseq := t.rseq, done := false, status := .ok, aux := 0, receipted := false, doneCue := 0, stored := none }
  let full := !isNotice t && 16 ≤ d.msgSlots (routeCtx t)
  let d := { d with txn := { d.txn with msgTags := Tab.insert d.txn.msgTags key fresh } }
  let d := d.noteAccepted 5 r t
  if full then d.msgFinish r t .busy
  else if t.len = 0 ∨ isSesNotice t then (if isNotice t then notice d r t else d.msgDone r t .ok)
  else (d.homeAccess .store t.addr.toNat t.len.toNat (slice t.data 0 t.len.toNat) 0 t.route.dstPart.toNat (.agent r .msg)).runStored notice key

/-- Checks, duplicates and the run of a MSG for this device (R162, R164). -/
def Dev.acceptMsg (notice : Dev → ReqId → Txn → Dev) (d : Dev) (k : Nat) (r : ReqId) (t : Txn) : Dev :=
  let st := d.checkMsg k t
  if st ≠ .ok then d.sendMsgAnswer r t true st
  else match Tab.find? d.txn.msgTags (msgKey t.route.srcDev.toNat t.tag) with
  | some m =>
    if m.rseq = t.rseq then
      if !m.done then d.sendMsgAnswer r t false .ok else d.sendMsgAnswer r t true m.status m.aux
    else if !m.done then d.sendMsgAnswer r t true .busy
    else d.freshMsg notice r t
  | none => d.freshMsg notice r t

/-- A MSG for another device is forwarded, or dropped and counted (R161). [DESIGN CHOICE: log 90] -/
def Dev.forwardMsg (d : Dev) (t : Txn) (color : Color) : Dev :=
  let drop := { d with txn := { d.txn with fwdDropped := d.txn.fwdDropped + 1 } }
  if t.route.hops.toNat ≤ 1 then drop
  else match d.msgLink t.route.dstPart.toNat t.route.dstDev.toNat with
    | none => drop
    | some k => d.toClass k t.tc.toNat (.request 5 { t with route := { t.route with hops := t.route.hops - 1 } }) color

/-! ## A request arrives -/

/-- What the late chapters supply: the run of an OPREQ, and the notices of the device's own engines that a MSG may carry. -/
structure Handlers where
  oper : Dev → Nat → ReqId → Txn → Dev
  notice : Dev → ReqId → Txn → Dev

/-- An accepted request whose answer cells are reserved is checked and executed. -/
def Dev.process (h : Handlers) (d : Dev) (k typ : Nat) (t : Txn) : Dev :=
  let x := d.reqId k typ t
  let r := x.2
  let d := x.1.reserve k r.rsv
  if d.flt.fatal then
    if typ = 5 then d.sendMsgAnswer r t true .poison else d.sendCompletion r .poison 0 []
  else if typ = 5 ∧ typeAllowed (d.role k) 5 then d.acceptMsg h.notice k r t
  else
    let st := d.checkRequest k typ t
    if st ≠ .ok then d.refuse typ r st
    else match d.streamPart k t.stream.toNat with
      | some p => d.acceptChecked h.oper p typ r t
      | none => d.refuse typ r .access

/-- Whether a MSG on a link is for another device. -/
def Dev.msgPasses (d : Dev) (k typ : Nat) (t : Txn) : Bool := typ == 5 && d.role k == 3 && t.route.dstDev.toNat != d.devId

/-- A request whose receipt was sent while it waited has had its receipt. -/
def Dev.noteReceipt (d : Dev) (k typ : Nat) (t : Txn) : Dev :=
  if typ = 5 then
    { d with txn := { d.txn with msgTags := d.txn.msgTags.map (fun e =>
        if e.1 = msgKey t.route.srcDev.toNat t.tag then (e.1, { e.2 with receipted := true }) else e) } }
  else match d.tagRec k t.tag with
    | some r => if r.id.rseq = t.rseq then d.setTagRec k t.tag { r with receipted := true } else d
    | none => d

/-- The consumer takes an ingress packet: a MSG for another device is forwarded, and a request whose answer cells can be reserved is checked
and executed. None: it waits (R161, R203). -/
def Dev.takeIngress (h : Handlers) (d : Dev) (k tc : Nat) (p : QPkt) : Option Dev :=
  match p.wire with
  | .request typ t =>
    let left := (d.leaveQ (ingressQ k tc) p).progress (ingressQ k tc)
    if d.msgPasses k typ t then some (left.forwardMsg t p.color)
    else if d.rsvFits k (answerCells typ t) then
      let d := left.process h k typ t
      some (if p.receipted then d.noteReceipt k typ t else d)
    else none
  | _ => none

/-- Packets of an ingress queue are taken in order (R200, R203). The number bounds them. [DESIGN CHOICE: log 91] -/
def Dev.resumeIngress (h : Handlers) (d : Dev) (k tc : Nat) : Nat → Dev
  | 0 => d
  | n + 1 =>
    match d.swQ (ingressQ k tc) with
    | p :: _ =>
      (match d.takeIngress h k tc p with
       | some d => d.resumeIngress h k tc n
       | none => d)
    | [] => d

/-- Every ingress queue that holds packets goes on where cells have become free (R203). -/
def Dev.resumeAll (h : Handlers) (d : Dev) : Dev :=
  (d.sw.queues.filter (fun e => e.1 < 288)).foldl (fun (d : Dev) e => d.resumeIngress h (e.1 / 8) (e.1 % 8) e.2.length) d

/-- A transaction passes its marker, and its CONG is counted in its ingress queue (R212, R218). [DEDUCED: log 174] -/
def Dev.admitWire (d : Dev) (k typ : Nat) (t : Txn) : Dev × Color :=
  let x := d.police k t.tc.toNat (txnBytes typ t)
  (if x.2 = .red then x.1 else x.1.noteCong k t.tc.toNat t.cong, x.2)

/-- Whether a transaction can arrive on a link: the link is up, what its flits brought first spells it, and ingress cells are free, for which
alone credit is granted (R202). -/
def Dev.mayArrive (d : Dev) (k typ : Nat) (t : Txn) : Bool := d.isUp k && d.spellsTxn k typ t && d.inFits k (cellsOf (txnBytes typ t))

/-- A transaction that has passed its marker is written into cells of its ingress queue, which hold the credit of its flits (R199, R202). -/
def Dev.joinIngress (d : Dev) (k typ : Nat) (t : Txn) (color : Color) (flits : Nat) : Dev :=
  d.joinQ (ingressQ k t.tc.toNat) (.request typ t) color 0 flits

/-- Policing, the ingress queue, the answer reserve, and then the request itself (R138, R161, R199, R203, R212). [DESIGN CHOICE: log 91] -/
def Dev.receive (h : Handlers) (d : Dev) (k typ : Nat) (t : Txn) : Dev :=
  if !d.mayArrive k typ t then d
  else
    let f := d.holdRx k 0
    let x := f.1.admitWire k typ t
    if x.2 = .red then x.1.throughCells.freeFlits k 0 f.2
    else
      let d := x.1.joinIngress k typ t x.2 f.2
      d.resumeIngress h k t.tc.toNat (d.swQ (ingressQ k t.tc.toNat)).length

/-! ## Receipts, held flags and records -/

/-- The receipt of a request that waits in its ingress cells: the oldest of its tag that has had none (R139). -/
def Dev.waitingFor (d : Dev) (k : Nat) (tag : BitVec 13) : Option (Nat × QPkt × Nat × Txn) :=
  (List.range 8).findSome? (fun tc => (d.swQ (ingressQ k tc)).findSome? (fun p => match p.wire with
    | .request typ t => if t.tag = tag ∧ !p.receipted ∧ !d.msgPasses k typ t then some (ingressQ k tc, p, typ, t) else none
    | _ => none))

/-- The receipt of a transaction as it arrived. -/
def txnReceipt (t : Txn) : Answer :=
  { tag := t.tag, stream := t.stream, rseq := t.rseq, tc := t.tc, cong := t.cong, compl := false, status := 0, aux := 0, route := none, data := [] }

/-- Sends a receipt toward its requester: on the link, or for a MSG toward its source. -/
def Dev.sendReceipt (d : Dev) (k typ : Nat) (t : Txn) : Dev :=
  if typ = 5 then
    match d.leastQueued (d.fwdLinks t.route.srcDev.toNat) with
    | some j => d.ansOut j { txnReceipt t with route := some { t.route with dstDev := t.route.srcDev, srcDev := t.route.dstDev } } false
    | none => d
  else d.ansOut k (txnReceipt t) false

/-- The MSG in progress that came with a tag on a link and has had no receipt. -/
def Dev.msgPending (d : Dev) (k : Nat) (tag : BitVec 13) : Option (Nat × MsgRec) :=
  List.find? (fun (e : Nat × MsgRec) => e.2.id.link == k && e.2.id.tag == tag && !e.2.done && !e.2.receipted) d.txn.msgTags

/-- The receipt of an accepted request whose completion has not left (R139): of one in progress, of a MSG, or of one that waits in its
ingress cells. It takes a cell of the link's answer reserve, and is not sent while that has none. -/
def Dev.receipt (d : Dev) (k : Nat) (tag : BitVec 13) : Dev :=
  if !d.rsvFits k 1 then d
  else match (d.tagRec k tag).filter (fun r => !r.done && !r.receipted) with
  | some r => (d.setTagRec k tag { r with receipted := true }).ansOut k (receiptOf r.id) false
  | none => match d.msgPending k tag with
    | some m => ({ d with txn := { d.txn with msgTags := Tab.insert d.txn.msgTags m.1 { m.2 with receipted := true } } } : Dev).sendReceipt k 5 m.2.txn
    | none => match d.waitingFor k tag with
      | some (q, p, typ, t) =>
        (d.setSwQ q ((d.swQ q).map (fun x => if x.handle = p.handle then { x with receipted := true } else x))).sendReceipt k typ t
      | none => d

/-- A held WRF whose conditions are met: its flag is written as one 8 B store (R129). -/
def Dev.writeFlag (d : Dev) (k : Nat) (stream : BitVec 8) (rseq : BitVec 16) : Dev :=
  let s : WrfSrc := d.src k stream
  match s.held.find? (fun h => h.rseq == rseq.toNat) with
  | some h =>
    if flagReady s h ∧ !h.failing then
      let d := d.setSrc k stream { s with held := s.held.map (fun x => if x.rseq = h.rseq then { x with failing := true } else x) }
      d.homeAccess .store h.txn.flagAddr.toNat 8 (leBytes 8 h.txn.flagVal.toNat) 0 ((d.streamPart k stream.toNat).getD 16) (.flag k stream h.rseq)
    else d
  | none => d

/-- 40 cues after acceptance the count or chain of a WRF is not reached: TIMEOUT (R130). -/
def Dev.wrfExpire (d : Dev) (k : Nat) (stream : BitVec 8) (rseq : BitVec 16) : Dev :=
  let s : WrfSrc := d.src k stream
  match s.held.find? (fun h => h.rseq == rseq.toNat) with
  | some h =>
    if h.accepted + 40 ≤ d.tb.cueCount ∧ !countReached s h ∧ !wrfFailed s h then
      ((d.setSrc k stream (wrfResolve s h.rseq)).finishTag h.id .wrf .timeout 0 []).settleSrc k stream
    else d
  | none => d

/-- Held result data is released 48 cues after its completion (R146). -/
def Dev.replayExpire (d : Dev) (k : Nat) (tag : BitVec 13) : Dev :=
  match d.tagRec k tag with
  | some r =>
    if r.done ∧ r.kind = .opreq ∧ r.ret ≠ [] ∧ r.doneCue + 48 ≤ d.tb.cueCount then
      { d with txn := { d.txn with tags := dropResult d.txn.tags (tagKey k tag),
                                   replay := d.txn.replay.filter (fun e => !(e.1 == k && e.2.1 == tag.toNat)) } }
    else d
  | none => d

/-- A MSG record is discarded 128 cues after its completion (R164). -/
def Dev.msgRecExpire (d : Dev) (src : BitVec 12) (tag : BitVec 13) : Dev :=
  match Tab.find? d.txn.msgTags (msgKey src.toNat tag) with
  | some m =>
    if m.done ∧ m.doneCue + 128 ≤ d.tb.cueCount then { d with txn := { d.txn with msgTags := Tab.erase d.txn.msgTags (msgKey src.toNat tag) } }
    else d
  | none => d

end Sys2Proof.Machine
end

