-- ==== Sys2Proof/Machine/Space.lean ====
section
/-! DEFINITION. Space accesses of contexts (R566, R567) and COPYs (R103 to R106, R465, R568). -/

namespace Sys2Proof.Machine

/-! ## Loads, stores and atomics -/

/-- Bytes of an SPC access: 1 << SZ. -/
def spcBytes (f : SpcF) : Nat := 2 ^ f.sz.toNat

/-- Whether a partition context may perform an access in a defined space (R101, R486, R509). Bytes beyond the space break no right: the
access completes with BAD_REQUEST (R23, R27, R100). [DESIGN CHOICE: log 188] -/
def Dev.ctxRights (d : Dev) (p a n : Nat) (k : AccKind) : Bool :=
  match spaceOf a with
  | 1 => !inMem a n || (d.owns p a n && !inPromptBook a n)
  | 2 => !inMem a n || d.owns p a n
  | 3 => k == .load
  | 4 => k == .load
  | _ => true

/-- The issue of a space access: its rights, its place among the 32 outstanding ones, and its alignment, which completes it at
once (R566, R567). [DEDUCED: log 34] -/
def spaceIssue (c : CtxId) (w : BitVec 32) (f : SpcF) (k : AccKind) (regs : List Nat) (v : Ctx → Word × Word) : Dev → Dev :=
  issueUnlessHeld c w regs (fun d x =>
    let a := (x.gr f.ra.toNat).toNat
    let n := spcBytes f
    if spaceOf a = 0 ∨ spaceOf a = 8 ∨ !d.ctxRights x.part a n k then some (d.raise c .accessViolation .ok x.pc w)
    else if 32 ≤ x.outst.length then none
    else
      let acc : SpaceAcc := { kind := k, addr := x.gr f.ra.toNat, n := n, rd := f.rd.toNat, st := f.st == 1, aop := f.aop.toNat,
                              v1 := (v x).1, v2 := (v x).2, pc := x.pc, instr := w, acc := none }
      some (d.setCtx c { x.retire with outst := x.outst ++ [acc] }))

/-- Registers that an SPC instruction names: both destinations of a status form among them. -/
def spcRegs (f : SpcF) : List Nat :=
  [f.ra.toNat, f.rb.toNat, f.rd.toNat] ++ (if f.st = 1 then [f.rd.toNat + 1] else [])

/-- Marks the i-th outstanding access as started under a number. -/
def Dev.markStarted (d : Dev) (c : CtxId) (i key : Nat) : Dev :=
  let x := d.ctx c
  d.setCtx c { x with outst := x.outst.zipIdx.map (fun e => if e.2 = i then { e.1 with acc := some key } else e.1) }

/-- Whether an earlier outstanding access shares bytes with this one: a context sees its own effects in program order (R107, R125). -/
def mustWait (l : List SpaceAcc) (i : Nat) : Bool :=
  match l[i]? with
  | some a => (l.take i).any (fun b => overlap a.addr.toNat a.n b.addr.toNat b.n)
  | none => true

/-- An outstanding space access of a context is performed (R566, R567). -/
def Dev.performAccess (d : Dev) (c : CtxId) (i : Nat) : Dev :=
  let x := d.ctx c
  match x.outst[i]? with
  | none => d
  | some s =>
    if s.acc.isSome ∨ mustWait x.outst i ∨ (spaceOf s.addr.toNat = 3 ∧ d.pwr.duty = 0) then d
    else
      let a := s.addr.toNat
      let key := d.coh.nextAcc
      let d := ({ d with coh := { d.coh with nextAcc := key + 1 } } : Dev).markStarted c i key
      if a % s.n ≠ 0 then d.ctxAccess c key .badRequest 0
      else match spaceOf a with
        | 3 =>
          if !d.poolHeld x.part a s.n then d.ctxAccess c key .badRequest 0
          else if !d.poolLive a s.n then d.ctxAccess c key .revoked 0
          else d.poolRead (.ctx c key) (offOf a) s.n
        | 4 => if !d.hostGranted x.part a s.n then d.ctxAccess c key .badRequest 0 else d.hostRead (.ctx c key) a s.n
        | 1 | 2 =>
          if !inMem a s.n then d.ctxAccess c key .badRequest 0
          else
            let data := match s.kind with
              | .load => []
              | .store => leBytes s.n s.v1.toNat
              | .atomic => leBytes s.n s.v1.toNat ++ leBytes s.n s.v2.toNat
            d.homeAccess s.kind a s.n data s.aop x.part (.ctx c key)
        | _ => d.ctxAccess c key .badRequest 0

/-! ## COPY (R104, R105, R465, R568) -/

/-- Whether a range breaks the LOCAL layout (R69). -/
def localBad (a n : Nat) : Bool := spaceOf a == 0 && localSize < a + n

/-- The checks of R104 in order, then the rights of R101 and R509. [DEDUCED: log 92] -/
def Dev.checkCopy (d : Dev) (p dst src n : Nat) : Status :=
  if n = 0 ∨ 2 ^ 26 < n then .badRequest
  else if spaceOf dst = spaceOf src ∧ overlap dst n src n then .badRequest
  else if spaceOf dst = 3 ∨ spaceOf dst = 4 ∨ spaceOf dst = 8 then .access
  else if spaceOf src = 8 then .access
  else
    let s1 := if spaceOf src = 0 then .ok else d.checkAccess p src n false
    let s2 := if spaceOf dst = 0 then .ok else d.checkAccess p dst n true
    joinStatus s1 s2

def copyJob (c : CtxId) (slot gen part : Nat) (dst src : Word) (len : Nat) (failed : Option Status) : CopyJob :=
  { ctx := c, slot := slot, gen := gen, part := part, dst := dst, src := src, len := len, failed := failed, host := [], moved := false,
    result := .ok, waitMack := [] }

/-- The bytes of host lines in order; a line that came with a failure reads as zeros (R14). -/
def hostBytes (t : Tab Bytes) : Bytes := t.flatMap (fun (e : Nat × Bytes) => if e.2 = [] then zeros 64 else e.2)

/-- Source bytes of a COPY that were read: bytes, and positions that are bad (POISON). -/
structure CopyData where
  bytes : Bytes
  bad : List Nat
  st : Status

/-- A COPY as a party of the device. -/
def copyParty (j : CopyJob) : Nat := 8 * ((ctxKey j.ctx * 64 + j.slot) * 1024 + j.gen) + 2

/-- Blocks of POOL that were read for a party, in order: bad blocks read as zeros. The number bounds the blocks. [DEDUCED: log 92] -/
def poolCopy (d : Dev) (party : Nat) : Nat → Nat → Nat → Nat → Bytes × List Nat
  | 0, _, _, _ => ([], [])
  | fuel + 1, pos, off, n =>
    if n = 0 then ([], [])
    else
      let k := min n (4096 - off % 4096)
      let x := d.heldBlock party (off / 4096)
      let y := poolCopy d party fuel (pos + k) (off + k) (n - k)
      ((match x with | some b => slice b (off % 4096) k | none => zeros k) ++ y.1,
        (if x.isNone then (List.range k).map (· + pos) else []) ++ y.2)

/-- Reads the source of a COPY. -/
def Dev.copySource (d : Dev) (j : CopyJob) : Dev × CopyData :=
  let src := j.src.toNat
  match spaceOf src with
  | 0 => (d, { bytes := (d.ctx j.ctx).local src j.len, bad := [], st := .ok })
  | 3 =>
    let x := poolCopy d (copyParty j) (j.len / 4096 + 2) 0 (offOf src) j.len
    (d, { bytes := x.1, bad := x.2, st := if x.2 = [] then .ok else .poison })
  | 4 =>
    let bad := (List.range j.len).filter (fun i => Tab.get [] j.host ((offOf src % 64 + i) / 64) == [])
    (d, { bytes := slice (hostBytes j.host) (offOf src % 64) j.len, bad := bad, st := if bad = [] then .ok else .poison })
  | _ =>
    let x := d.read src j.len
    let bad := (List.range j.len).filter (fun i => (src + i) / 64 ∈ x.2.2)
    (x.1, { bytes := x.2.1, bad := bad, st := if bad = [] then .ok else .poison })

/-- Writes the destination piece by piece: a granule with a bad source byte is marked and not written (R465). -/
def copyPieces (d : Dev) (dst : Nat) (bad : List Nat) : List (Nat × Bytes) → Dev
  | [] => d
  | p :: ps =>
    let d := if bad.any (fun i => p.1 ≤ dst + i && dst + i < p.1 + p.2.length) then d.mark (p.1 / 64) else (d.write p.1 p.2).1
    copyPieces d dst bad ps

/-- Moves the bytes of a COPY: the device afterwards and its status. A LOCAL buffer holds zeros where the source was bad (R14). -/
def Dev.moveCopy (d : Dev) (j : CopyJob) : Dev × Status :=
  let x := d.copySource j
  let dst := j.dst.toNat
  if spaceOf dst = 0 then
    let c := x.1.ctx j.ctx
    (x.1.setCtx j.ctx (c.setLocal dst (x.2.bytes.zipIdx.map (fun e => if e.2 ∈ x.2.bad then 0 else e.1))), x.2.st)
  else if x.2.bad = [] then
    let y := x.1.write dst x.2.bytes
    (y.1, if y.2 then .ok else .poison)
  else (copyPieces x.1 dst x.2.bad (pieces (j.len / 64 + 2) dst x.2.bytes), .poison)

def Dev.putCopy (d : Dev) (j : CopyJob) : Dev :=
  { d with thr := { d.thr with copies := d.thr.copies.map (fun i => if i.ctx == j.ctx && i.slot == j.slot && i.gen == j.gen then j else i) } }

def Dev.dropCopy (d : Dev) (j : CopyJob) : Dev :=
  { d with thr := { d.thr with copies := d.thr.copies.filter (fun i => !(i.ctx == j.ctx && i.slot == j.slot && i.gen == j.gen)) } }

/-- Whether every block that a party reads from a range of POOL is read or under way, so that a drain no longer touches it (R371). -/
def Dev.poolUnderWay (d : Dev) (party off n : Nat) : Bool :=
  (blocksOf off n).all (fun k => (Tab.find? d.ver.held (blkKey party k)).isSome || d.blkBusy party k)

/-- The next step of a COPY: a failed check completes it, host lines are fetched first, then the bytes move, and the ticket
completes once its mirror frames are acknowledged (R105, R106, R420). [DEDUCED: log 92] -/
def Dev.copyStep (d : Dev) (j : CopyJob) : Dev :=
  let finish := fun (d : Dev) (st : Status) => (d.dropCopy j).ticketDone j.ctx j.slot j.gen st
  match j.failed with
  | some st => finish d st
  | none =>
    if j.moved then (if d.awaits j.waitMack then d else finish d j.result)
    else
      let src := j.src.toNat
      let dst := j.dst.toNat
      if spaceOf src = 4 ∧ j.host.length < hostLineCount src j.len then
        if d.cxl.reads.any (fun r => r.2.serves == .copy j.ctx j.slot j.gen) then d
        else d.hostRead (.copy j.ctx j.slot j.gen) src j.len
      else if spaceOf src = 3 ∧ !d.poolUnderWay (copyParty j) (offOf src) j.len ∧ !d.poolLive src j.len then finish d .revoked
      else
        let x := if spaceOf src = 3 then d.wantPool (copyParty j) (offOf src) j.len false else (d, true)
        let d := x.1
        if !x.2 then d
        else if d.pwr.duty = 0 ∧ (spaceOf src = 2 ∨ spaceOf src = 3 ∨ spaceOf dst = 2) then d
        else d.asParty (copyParty j) (fun d =>
          d.whenReady (if spaceOf src = 1 then [(src, j.len)] else []) (if spaceOf dst = 1 then [(dst, j.len)] else []) (fun d =>
            let x := d.moveCopy j
            let w := newFrames d x.1
            if w = [] then (x.1.dropCopy j).ticketDone j.ctx j.slot j.gen x.2
            else x.1.putCopy { j with moved := true, result := x.2, waitMack := w }))

/-! ## POOL reads that are complete (R369) -/

/-- A read of POOL whose blocks have come is answered. -/
def Dev.deliverRead (d : Dev) (r : PoolRead) : Dev :=
  let data := d.heldPool r.party r.off r.n
  let d := ({ d with ver := { d.ver with reads := d.ver.reads.filter (fun x => x.party ≠ r.party) } } : Dev).dropPool r.party
  let st : Status := if data.isSome then .ok else .poison
  match r.serves with
  | .agent q => d.complete q .rd st 0 (data.getD [])
  | .ctx c key => d.ctxAccess c key st (BitVec.ofNat 64 (leNat (data.getD [])))
  | _ => d

/-- Block reads go on, and the reads whose blocks have all come are answered. -/
def Dev.runPool (d : Dev) : Dev :=
  let d := d.stepBlks.pumpSlots
  d.poolDone.foldl Dev.deliverRead d

/-! ## RdCurr data (R538) -/

/-- All lines of a HOST read have come: its bytes. -/
def HostRead.bytes (r : HostRead) : Bytes := slice (hostBytes r.got) (offOf r.addr % 64) r.n

/-- Data of one line returns from the host; a failure, or poisoned data, gives POISON. -/
def Dev.hostData (d : Dev) (id : Nat) (ok : Bool) (data : Bytes) : Dev :=
  let j := id / 2 ^ 24
  match Tab.find? d.cxl.reads j with
  | none => d
  | some r =>
    if id % 2 ^ 24 ∈ r.left then
      let r := { r with left := r.left.filter (· ≠ id % 2 ^ 24), got := Tab.insert r.got (id % 2 ^ 24) (if ok then slice data 0 64 else []), bad := r.bad || !ok }
      if r.left ≠ [] then { d with cxl := { d.cxl with reads := Tab.insert d.cxl.reads j r } }
      else
        let d := { d with cxl := { d.cxl with reads := Tab.erase d.cxl.reads j } }
        match r.serves with
        | .agent q => d.complete q .rd (if r.bad then .poison else .ok) 0 (if r.bad then [] else r.bytes)
        | .ctx c key => d.ctxAccess c key (if r.bad then .poison else .ok) (BitVec.ofNat 64 (leNat r.bytes))
        | .copy c slot gen =>
          { d with thr := { d.thr with copies := d.thr.copies.map (fun x =>
              if x.ctx == c && x.slot == slot && x.gen == gen then { x with host := r.got } else x) } }
        | .party p =>
          { d with cxl := { d.cxl with held := r.got.foldl (fun t e => Tab.insert t (p * 2 ^ 46 + (offOf r.addr / 64 + e.1)) e.2) d.cxl.held } }
    else d

/-! ## Meanings -/

/-- Space load (R566). -/
def execLd (c : CtxId) (f : SpcF) (s : State) : Host.Outcome State Fault Refusal :=
  s.run (spaceIssue c (encode (.ld f)) f .load ([f.ra.toNat, f.rd.toNat] ++ (if f.st = 1 then [f.rd.toNat + 1] else [])) (fun _ => (0, 0)))

/-- Space store of g[rb] (R566). -/
def execSt (c : CtxId) (f : SpcF) (s : State) : Host.Outcome State Fault Refusal :=
  s.run (spaceIssue c (encode (.st f)) f .store ([f.ra.toNat, f.rb.toNat] ++ (if f.st = 1 then [f.rd.toNat] else []))
    (fun x => (x.gr f.rb.toNat, 0)))

/-- Space atomic (R141, R562, R566): CAS takes its new value from g[rb + 1]. -/
def execAtomInstr (c : CtxId) (f : SpcF) (s : State) : Host.Outcome State Fault Refusal :=
  s.run (spaceIssue c (encode (.atomInstr f)) f .atomic (spcRegs f ++ (if f.aop = 9 then [f.rb.toNat + 1] else []))
    (fun x => (x.gr f.rb.toNat, if f.aop = 9 then x.gr (f.rb.toNat + 1) else 0)))

/-- An outstanding space access is performed at its home (R567). -/
def execSpaceAccessComplete (c : CtxId) (i : Nat) (s : State) : Host.Outcome State Fault Refusal := s.run (·.performAccess c i)

/-- COPY: checks in the order of R568, then a ticket. -/
def execCopy (c : CtxId) (f : CpyF) (s : State) : Host.Outcome State Fault Refusal :=
  s.run (issue c (encode (.copy f)) [f.rd.toNat, f.ra.toNat, f.rb.toNat, f.rc.toNat] (fun d x =>
    let dst := x.gr f.ra.toNat
    let src := x.gr f.rb.toNat
    let n := (x.gr f.rc.toNat).toNat
    let w := encode (.copy f)
    if x.exhausted then d.raise c .ticketExhausted .ok x.pc w
    else if localBad dst.toNat n ∨ localBad src.toNat n then d.raise c .badLocal .ok x.pc w
    else if spaceOf dst.toNat = 0 ∧ n ≠ 0 ∧ 0x30000 < dst.toNat + n then d.raise c .accessViolation .ok x.pc w
    else
      let t := x.issueTicket .copy
      let st := d.checkCopy x.part dst.toNat src.toNat n
      let j := copyJob c t.2.1 t.2.2 x.part dst src n (if st = .ok then none else some st)
      let d := d.setCtx c ((t.1.setG f.rd.toNat (BitVec.ofNat 64 (ticketVal t.2.1 t.2.2))).retire)
      { d with thr := { d.thr with copies := d.thr.copies ++ [j] } }))

/-- Data for a RdCurr returns from the host (R538). -/
def execRdcurrData (id : Nat) (ok : Bool) (data : Bytes) (s : State) : Host.Outcome State Fault Refusal :=
  s.run (·.hostData id ok data)

end Sys2Proof.Machine
end

