-- ==== Sys2Proof/Machine/Control.lean ====
section
/-! DEFINITION. Waiting, release and acquire, messages, events, time and the end of a script (R74, R91, R109, R110, R153, R165,
R570, R572, R573), and the deadlines and watchdogs of contexts. -/

namespace Sys2Proof.Machine

/-! ## Time (R34, R35, R514, R572) -/

/-- The cue number within the second (R35). -/
def Dev.inSec (d : Dev) : Nat := d.tb.tbase % 1000000000 / 250

/-- CUE_NOW: IN_SEC and the low 42 bits of CUE_COUNT. -/
def Dev.cueNow (d : Dev) : Nat := d.inSec + d.tb.cueCount % 2 ^ 42 * 2 ^ 22

/-- TB_NOW as partition p reads it. [DESIGN CHOICE: log 4] -/
def Dev.tbNow (d : Dev) (p : Nat) : Dev × Nat :=
  let x := d.stampNow
  (x.1, x.1.seenTime p x.2)

/-! ## MSG (R165, R570) -/

/-- The MSG that a descriptor register spells. -/
def msgOfDesc (d : Dev) (v : Desc) (data : Bytes) : Txn :=
  { blankTxn with
    tc := BitVec.ofNat 3 (dfld v 223 3), len := BitVec.ofNat 13 (dfld v 210 13), addr := BitVec.ofNat 64 (dfld v 128 64), data := data
    route := { dstDev := BitVec.ofNat 12 (dfld v 0 12), srcDev := BitVec.ofNat 12 d.devId, dstPart := BitVec.ofNat 4 (dfld v 24 4),
               dstTile := BitVec.ofNat 4 (dfld v 28 4), dstCore := BitVec.ofNat 4 (dfld v 32 4), dstCtx := BitVec.ofNat 4 (dfld v 36 4),
               hops := BitVec.ofNat 3 (dfld v 40 3), notify := BitVec.ofNat 64 (dfld v 64 64) } }

/-- The completions of a MSG that is not sent (R570). [DEDUCED: log 94] -/
def Dev.checkSend (d : Dev) (p : Nat) (v : Desc) : Status :=
  if dfld v 12 12 ≠ 0 ∨ dfld v 43 21 ≠ 0 ∨ dfld v 226 286 ≠ 0 ∨ 12 ≤ dfld v 28 4 ∨ dfld v 36 4 = 15 ∨ dfld v 40 3 = 0 ∨
     4096 < dfld v 210 13 ∨ dfld v 0 12 = d.devId then .badRequest
  else if 6 ≤ dfld v 223 3 ∧ !bitAt (d.regFld POL_PRIV 0 16) p then .access
  else .ok

/-- MSG tickets not yet waited on, oldest issue first by request number. -/
def Ctx.msgTickets (x : Ctx) : List (Nat × Ticket) := x.tickets.filter (fun t => t.2.kind == .msg)

/-- Frees the MSG tickets. -/
def Ctx.dropMsgTickets (x : Ctx) : Ctx := { x with tickets := x.tickets.filter (fun t => t.2.kind != .msg) }

/-- The result of R153 over completed MSG tickets in issue order: status and lost count. [DEDUCED: log 88] -/
def fenceResult (l : List Ticket) : Status × Nat :=
  let lost := l.countP (·.lost)
  if lost ≠ 0 then (.fenceIncomplete, lost)
  else match l.find? (fun t => t.done.any (· ≠ .ok)) with
    | some t => (t.done.getD .ok, 0)
    | none => (.ok, 0)

/-- MSG tickets in the order in which they were sent. -/
def Ctx.sentOrder (x : Ctx) : List Ticket :=
  (x.msgTickets.map (·.2)).foldl (fun l t => l.filter (fun u => u.seq < t.seq) ++ t :: l.filter (fun u => t.seq < u.seq)) []

/-! ## Meanings: waiting -/

/-- wait.t: the status of a completed ticket, or the wait for it (R73, R74). -/
def execWaitT (c : CtxId) (f : RegFnF) (s : State) : Host.Outcome State Fault Refusal :=
  s.run (issue c (encode (.waitT f)) [f.rd.toNat, f.ra.toNat] (fun d x =>
    match x.ticketOf (x.gr f.ra.toNat) with
    | none => d.raise c .badTicket .ok x.pc (encode (.waitT f))
    | some (slot, t) =>
      match t.done with
      | some st => d.setCtx c ((x.freeTicket slot).setG f.rd.toNat (BitVec.ofNat 64 (statusCode st))).retire
      | none => d.setCtx c { x with run := .waitT slot f.rd.toNat }))

/-- wait.e: masked event bits already set, or the wait for one (R91). -/
def execWaitE (c : CtxId) (f : RegFnF) (s : State) : Host.Outcome State Fault Refusal :=
  s.run (issue c (encode (.waitE f)) [f.rd.toNat, f.ra.toNat, f.rb.toNat] (fun d x =>
    let mask := (x.gr f.ra.toNat).truncate 32
    let n := (x.gr f.rb.toNat).toNat % 65536
    if x.events &&& mask = 0 then
      d.setCtx c { x with run := .waitE mask (if n = 0 then none else some (d.tb.cueCount + n)) f.rd.toNat }
    else d.setCtx c (({ x with events := x.events &&& ~~~mask } : Ctx).setG f.rd.toNat ((x.events &&& mask).zeroExtend 64)).retire))

/-- The limit of wait.e has passed: the context resumes with 0 (R91). -/
def execWaitETimeout (c : CtxId) (s : State) : Host.Outcome State Fault Refusal :=
  s.run (fun d =>
    let x := d.ctx c
    match x.run with
    | .waitE _ (some n) rd => if n ≤ d.tb.cueCount then (d.setCtx c (x.setG rd 0).resume).boundary c else d
    | _ => d)

/-- wait.c: waits for the n-th cue boundary (R91). -/
def execWaitC (c : CtxId) (f : ShortF) (s : State) : Host.Outcome State Fault Refusal :=
  s.run (issue c (encode (.waitC f)) [] (fun d x => d.setCtx c { x with run := .waitC (d.tb.cueCount + f.imm.toNat) }))

/-- The n-th cue boundary after wait.c has passed (R91). -/
def execWaitCExpiry (c : CtxId) (s : State) : Host.Outcome State Fault Refusal :=
  s.run (fun d =>
    let x := d.ctx c
    match x.run with
    | .waitC n => if n ≤ d.tb.cueCount then (d.setCtx c x.resume).boundary c else d
    | _ => d)

/-- rel: retires once every earlier space access of the context has completed (R109, R567). -/
def execRel (c : CtxId) (f : ShortF) (s : State) : Host.Outcome State Fault Refusal :=
  s.run (issueUnlessHeld c (encode (.rel f)) [] (fun d x => if x.outst = [] then some (d.setCtx c x.retire) else none))

/-- acq: retires once every earlier load of the context has completed (R110). -/
def execAcq (c : CtxId) (f : ShortF) (s : State) : Host.Outcome State Fault Refusal :=
  s.run (issueUnlessHeld c (encode (.acq f)) [] (fun d x =>
    if x.outst.all (fun a => a.kind == .store) then some (d.setCtx c x.retire) else none))

/-- fence.m: R153 over the context's unwaited MSG tickets, which it consumes (R165). -/
def execFenceM (c : CtxId) (f : RegFnF) (s : State) : Host.Outcome State Fault Refusal :=
  s.run (issueUnlessHeld c (encode (.fenceM f)) [f.rd.toNat, f.rd.toNat + 1] (fun d x =>
    if x.msgTickets.all (fun t => t.2.done.isSome) then
      let r := fenceResult x.sentOrder
      some (d.setCtx c ((x.dropMsgTickets.setG f.rd.toNat (BitVec.ofNat 64 (statusCode r.1))).setG (f.rd.toNat + 1) (BitVec.ofNat 64 r.2)).retire)
    else none))

/-! ## Meanings: messages -/

/-- msg.send (R570). -/
def execMsgSend (c : CtxId) (f : RegFnF) (s : State) : Host.Outcome State Fault Refusal :=
  s.run (issueUnlessHeld c (encode (.msgSend f)) [f.rd.toNat] (fun d x =>
    let v := x.dr f.ra.toNat
    let off := dfld v 192 18
    let n := dfld v 210 13
    let w := encode (.msgSend f)
    if x.exhausted then some (d.raise c .ticketExhausted .ok x.pc w)
    else if localSize < off + n then some (d.raise c .badLocal .ok x.pc w)
    else if dfld v 124 4 = 0xA ∨ dfld v 124 4 = 0xB then some (d.raise c .accessViolation .ok x.pc w)
    else
      let t := x.issueTicket .msg
      let st := d.checkSend x.part v
      let x' := (t.1.setG f.rd.toNat (BitVec.ofNat 64 (ticketVal t.2.1 t.2.2))).retire
      if st ≠ .ok then some ((d.setCtx c x').ticketDone c t.2.1 t.2.2 st)
      else
        let y := d.sendMsg x.part (msgOfDesc d v (x.local off n)) (.ctxMsg c t.2.1 t.2.2)
        if y.2.isSome then some (y.1.setCtx c x') else none))

/-- msg.recv (R163, R570). -/
def execMsgRecv (c : CtxId) (f : RegFnF) (s : State) : Host.Outcome State Fault Refusal :=
  s.run (issueUnlessHeld c (encode (.msgRecv f)) [] (fun d x =>
    match x.msgq with
    | [] => some (d.setCtx c (x.setD f.rd.toNat 0).retire)
    | m :: rest =>
      if x.outst.all (fun a => a.kind == .store) then
        some (d.setCtx c (({ x with msgq := rest } : Ctx).setD f.rd.toNat
          (BitVec.ofNat 512 (m.srcDev % 4096 + m.len % 8192 * 2 ^ 12 + 2 ^ 25 + m.addr.toNat * 2 ^ 64 + m.notify.toNat * 2 ^ 128))).retire)
      else none))

/-! ## Meanings: time, events, the end -/

/-- rdtb: TB_NOW (R572). -/
def execRdtb (c : CtxId) (f : RegFnF) (s : State) : Host.Outcome State Fault Refusal :=
  s.run (issue c (encode (.rdtb f)) [f.rd.toNat] (fun d x =>
    let t := d.tbNow x.part
    t.1.setCtx c (x.setG f.rd.toNat (BitVec.ofNat 64 t.2)).retire))

/-- rdcue: CUE_NOW (R572). -/
def execRdcue (c : CtxId) (f : RegFnF) (s : State) : Host.Outcome State Fault Refusal :=
  s.run (issue c (encode (.rdcue f)) [f.rd.toNat] (fun d x => d.setCtx c (x.setG f.rd.toNat (BitVec.ofNat 64 d.cueNow)).retire))

/-- The context that an evt operand names (R573). [DEDUCED: log 89] -/
def evtTarget (c : CtxId) (v : Nat) : CtxId := { tile := if fld v 0 4 = 15 then c.tile else fld v 0 4, core := fld v 4 4, ctx := fld v 8 4 }

/-- evt: an event bit of a context of the same partition, or a HOST_EVT entry (R92, R573). -/
def execEvt (c : CtxId) (f : RegFnF) (s : State) : Host.Outcome State Fault Refusal :=
  s.run (issue c (encode (.evt f)) [f.ra.toNat, f.rb.toNat] (fun d x =>
    let v := (x.gr f.ra.toNat).toNat
    let w := encode (.evt f)
    if bitAt v 15 then (d.setCtx c x.retire).report 0x0003 0 (ctxOrigin c x.part) ((x.gr f.rb.toNat).toNat % 2 ^ 32) 0 0
    else if fld v 16 48 ≠ 0 ∨ (12 ≤ fld v 0 4 ∧ fld v 0 4 ≠ 15) then d.raise c .badInstr .ok x.pc w
    else
      let t := evtTarget c v
      if t.ctx = 15 ∨ d.ctxPart t ≠ some x.part then d.raise c .accessViolation .ok x.pc w
      else (d.setCtx c x.retire).setEvent t (8 + fld v 12 3)))

/-- end: checks its operands, waits for every space access, and sends the completion (R87, R567, R573). -/
def execEndScript (c : CtxId) (f : RegFnF) (s : State) : Host.Outcome State Fault Refusal :=
  s.run (issueUnlessHeld c (encode (.endScript f)) [f.ra.toNat, f.rb.toNat] (fun d x =>
    let code := (x.gr f.ra.toNat).toNat
    let n := (x.gr f.rb.toNat).toNat
    match statusOf code with
    | none => some (d.raise c .badInstr .ok x.pc (encode (.endScript f)))
    | some st =>
      if 4096 < n then some (d.raise c .badInstr .ok x.pc (encode (.endScript f)))
      else if x.outst = [] then some ((d.setCtx c x.retire).endScript c st (leNat (x.local 0x1000 4)) (x.local 0x1000 n))
      else none))

/-! ## Meanings: contexts and dispatch queues -/

/-- A context that has ended is free again and takes the oldest queued request (R75, R83). -/
def execContextFree (c : CtxId) (s : State) : Host.Outcome State Fault Refusal := s.run (·.freeContext c)

/-- Queued requests that have waited ADMIT cues complete with BUSY (R83). -/
def execAdmitTimeout (tile part : Nat) (s : State) : Host.Outcome State Fault Refusal := s.run (·.admitTimeout tile part)

/-- The cue budget of a script is reached (R85). -/
def execBudgetTimeout (c : CtxId) (s : State) : Host.Outcome State Fault Refusal := s.run (·.budgetTimeout c)

end Sys2Proof.Machine
end

