-- ==== Sys2Proof/Machine/Engines.lean ====
section
/-! DEFINITION. Engine queues and descriptors (R76 to R80, R569, R575 to R581): the checks at ENQ, the descriptor at work, what an engine
may read and write, attached snoops, and the end of a descriptor. -/

namespace Sys2Proof.Machine

/-! ## Descriptors (R78, R576 to R581) -/

def DescEntry.op (x : DescEntry) : Nat := dfld x.word 12 8

/-- A field of a descriptor at work. -/
def DescEntry.fl (x : DescEntry) (lo w : Nat) : Nat := dfld x.word lo w

/-- The fields of the common header. -/
def headFields : List (Nat × Nat) := [(0, 21), (32, 16)]

/-- The fields that an operation of a class uses; none for a reserved operation. -/
def opFields (cls op : Nat) : Option (List (Nat × Nat)) :=
  match cls, op with
  | 0, 1 | 0, 2 =>
    some [(64, 24), (88, 8), (96, 8), (104, 7), (111, 5), (116, 22), (138, 22), (160, 23), (183, 2), (185, 23), (208, 2), (210, 12),
          (256, 32), (320, 64), (384, 64), (448, 64)]
  | 0, 3 => some [(64, 5), (69, 7), (76, 9), (85, 2), (128, 64), (192, 64), (256, 64)]
  | 1, 1 => some [(64, 103), (192, 64), (256, 64), (320, 64)]
  | 1, 2 => some [(64, 48)]
  | 1, 3 => some [(64, 32)]
  | 2, 1 | 2, 2 => some [(64, 192), (256, 50), (320, 64), (384, 64)]
  | 3, 1 => some [(64, 256), (320, 64), (384, 42), (448, 64)]
  | 3, 2 => some [(64, 256), (320, 29), (384, 42), (448, 32)]
  | 4, 1 | 4, 2 => some [(64, 192), (256, 27), (320, 27)]
  | 5, 1 => some [(64, 384), (448, 39)]
  | 5, 2 => some [(64, 384), (448, 48)]
  | 5, 3 => some [(64, 320), (384, 31), (475, 12)]
  | _, _ => none

/-- Whether every bit set in a descriptor lies in one of the fields. [DEDUCED: log 54] -/
def onlyFields (v : Desc) (l : List (Nat × Nat)) : Bool :=
  (l.foldl (fun n f => setFld n f.1 f.2 0) v.toNat) == 0

/-- What R79 rejects: a reserved CLASS, TILE or OP, a nonzero reserved field, or INST outside its range. [DEDUCED: log 41] -/
def descRejected (v : Desc) : Bool :=
  let cls := dfld v 0 4
  let tile := dfld v 8 4
  (12 ≤ tile && tile ≤ 14) || engInstances cls ≤ dfld v 4 4 ||
    (match opFields cls (dfld v 12 8) with
     | some l => !onlyFields v (headFields ++ l)
     | none => true)

/-- The engine that a descriptor names; TILE 0xF is the context's own. -/
def descEng (c : CtxId) (v : Desc) : EngId :=
  { tile := if dfld v 8 4 = 15 then c.tile else dfld v 8 4, cls := dfld v 0 4, inst := dfld v 4 4 }

/-! ## Queues -/

def Dev.engQ (d : Dev) (e : EngId) (p : Nat) : List DescEntry := Tab.get [] d.eng.queue (engQKey e p)

def Dev.setEngQ (d : Dev) (e : EngId) (p : Nat) (l : List DescEntry) : Dev :=
  { d with eng := { d.eng with queue := Tab.set [] d.eng.queue (engQKey e p) l } }

/-- Changes descriptors in every queue. -/
def Dev.mapDescs (d : Dev) (f : DescEntry → DescEntry) : Dev :=
  { d with eng := { d.eng with queue := d.eng.queue.map (fun q => (q.1, q.2.map f)) } }

/-- Every queued descriptor with the key of its queue. -/
def Dev.allDescs (d : Dev) : List (Nat × DescEntry) := d.eng.queue.flatMap (fun q => q.2.map (fun x => (q.1, x)))

def Dev.findDesc (d : Dev) (id : Nat) : Option (Nat × DescEntry) := d.allDescs.find? (fun e => e.2.id == id)

/-- Writes a descriptor back under its number. -/
def Dev.putDesc (d : Dev) (x : DescEntry) : Dev := d.mapDescs (fun y => if y.id = x.id then x else y)

/-- Takes a descriptor off its queue. -/
def Dev.dropDesc (d : Dev) (id : Nat) : Dev :=
  { d with eng := { d.eng with queue := (d.eng.queue.map (fun q => (q.1, q.2.filter (fun x => x.id ≠ id)))).filter (fun q => q.2 ≠ []) } }

/-- An attention job that has kept nothing yet. -/
def AttJob.reset : AttJob :=
  { len := 0, pinned := false, arrays := [], nArr := 0, topk := none, scored := 0, sel := [], ck := 255, tau := 255, cut := 255,
    fallback := false, trunc := false, withdrawn := false, arrMask := 0, blk := 0, eligible := false, shadowed := false, journal := none, w := [], shift := 0, hist := [],
    resumed := false }

def newDesc (id : Nat) (c : CtxId) (slot gen part : Nat) (v : Desc) (ext : Bytes) : DescEntry :=
  { id := id, ctx := c, slot := slot, gen := gen, part := part, word := v, ext := ext, started := false, firstCue := 0, work := 0,
    status := none, phase := .fresh, att := AttJob.reset, topk := none, snoops := [], folded := [], nFolded := 0, nTrans := 0, target := none,
    targetDone := none, waitMack := [] }

/-- Whether a queued SNOOP_ENGINE of context c on a tile is armed for the engine e and not yet attached (R284). -/
def armedFor (c : CtxId) (e : EngId) (key : Nat) (x : DescEntry) : Bool :=
  key / 16 / 128 == e.tile && x.ctx == c && x.status.isNone && x.fl 0 4 == 5 && x.op == 2 && x.target.isNone && x.fl 487 4 == e.cls &&
    x.fl 491 4 == e.inst

/-- Pushes a descriptor to its queue, and attaches the armed snoops of its context (R284, R569). [DEDUCED: log 41] -/
def Dev.pushDesc (d : Dev) (e : EngId) (x : DescEntry) : Dev :=
  let armed := (d.allDescs.filter (fun y => armedFor x.ctx e y.1 y.2)).map (fun y => y.2.id)
  let d := d.mapDescs (fun y => if y.id ∈ armed then { y with target := some x.id } else y)
  let d := { d with eng := { d.eng with nextId := d.eng.nextId + 1 } }
  d.setEngQ e x.part (d.engQ e x.part ++ [{ x with snoops := armed }])

/-! ## Work (R77, R78, R575) -/

/-- The descriptor that a queue works on: the first whose work has not ended. -/
def Dev.atWork (d : Dev) (e : EngId) (p : Nat) : Option DescEntry :=
  (d.engQ e p).find? (fun x => x.status.isNone && x.phase != .finished)

/-- Slots of 1 ACLK that a step of an engine costs at most (R575). -/
def unitSlots : Nat := 16

/-- The slots that a work unit of partition p takes on an engine: none where too few are left to it in the cue (R37, R45, R575).
[DESIGN CHOICE: log 193] -/
def Dev.engSlot (d : Dev) (e : EngId) (p : Nat) : Option Dev :=
  takeSlots (engKey e) (fun q => (d.atWork e q).isSome) p unitSlots (d.slotsLeft (engKey e)) d

/-- The device once the slots of a work unit are taken. -/
def Dev.engSlotted (d : Dev) (e : EngId) (p : Nat) : Dev := (d.engSlot e p).getD d

/-- A work unit starts: the first one fixes the cue from which CUE_CAP counts, and starts the attached snoops. -/
def Dev.startUnit (d : Dev) (e : EngId) (x : DescEntry) : Dev × DescEntry :=
  let y := if x.started then { x with work := x.work + 1 } else { x with started := true, firstCue := d.tb.cueCount, work := x.work + 1 }
  let d := (d.putDesc y).mapDescs (fun z => if z.id ∈ x.snoops ∧ !z.started then { z with started := true, firstCue := d.tb.cueCount } else z)
  ({ d with eng := { d.eng with lastUnit := Tab.insert d.eng.lastUnit (engKey e) d.tb.cueCount } }, y)

/-- A descriptor as a party of the device. -/
def descParty (id : Nat) : Nat := 8 * id + 1

/-- The attached snoops of a descriptor learn its status (R288). -/
def Dev.tellSnoops (d : Dev) (ids : List Nat) (st : Status) : Dev :=
  if ids = [] then d else d.mapDescs (fun z => if z.id ∈ ids then { z with targetDone := some st } else z)

/-- What a gather keeps for a descriptor is let go: its pins, the blocks fetched for it, and its place behind fetches. An entry that was
invalidated under a pin goes with its last pin (R271). -/
def Dev.dropGather (d : Dev) (id : Nat) : Dev :=
  let pins := d.gth.pins.filter (fun p => p.1 ≠ id)
  { d with gth := { d.gth with
      pins := pins
      fetched := d.gth.fetched.filter (fun b => b.desc ≠ id)
      fetches := d.gth.fetches.map (fun f => { f with waits := f.waits.filter (fun i => i ≠ id) })
      cache := d.gth.cache.filter (fun e => !e.2.dead || pins.any (fun p => p.2 == e.1)) } }

/-- A descriptor's work has ended with a status; its ticket follows (R74, R288). What was fetched for it is forgotten. -/
def Dev.endDesc (d : Dev) (x : DescEntry) (st : Status) (frames : List (Nat × Nat)) : Dev :=
  (((d.putDesc { x with status := some st, waitMack := frames }).tellSnoops x.snoops st).dropSyncOf (descParty x.id)).dropGather x.id

/-- Ends a descriptor with a failure: nothing was written. -/
def Dev.failDesc (d : Dev) (x : DescEntry) (st : Status) : Dev := d.endDesc x st []

/-- A SNOOP_ENGINE that is attached to nothing has no work yet (R284). -/
def DescEntry.unattached (x : DescEntry) : Bool := x.fl 0 4 == 5 && x.op == 2 && x.target.isNone

/-- An engine works on the front descriptor of a queue, if it is of this operation and the engine is not hung: a check that fails ends it
before any work unit starts (R80), and a work unit takes the partition's slots (R37, R575). [DESIGN CHOICE: log 42] -/
def Dev.engWork (pre : Dev → DescEntry → Status) (cls op : Nat) (e : EngId) (p : Nat) (body : Dev → DescEntry → Dev) (d : Dev) : Dev :=
  if e.cls ≠ cls ∨ e ∈ d.eng.hung then d
  else match d.atWork e p with
    | none => d
    | some x =>
      if x.op ≠ op then d
      else if x.work = 0 ∧ pre d x ≠ .ok then d.failDesc x (pre d x)
      else if x.unattached then d
      else match d.engSlot e p with
        | none => d
        | some d => d.asParty (descParty x.id) (fun d =>
          let y := d.startUnit e x
          body y.1 y.2)

/-! ## What descriptors write, as their snoops see it -/

/-- The granules of a stream that lie in [base, base + len), cut to it. -/
def granulesIn (base len : Nat) (a : Nat) (bs : Bytes) : List (Nat × Byte) :=
  (bs.zipIdx.map (fun e => (a + e.2, e.1))).filter (fun e => base ≤ e.1 && e.1 < base + len)

/-- Folds a stream into a snoop, by address: the last copy counts (R285). -/
def DescEntry.fold (x : DescEntry) (a : Nat) (bs : Bytes) : DescEntry :=
  let base := x.fl 384 64
  let l := granulesIn base (x.fl 448 27) a bs
  { x with folded := l.foldl (fun t e => Tab.insert t (e.1 - base) e.2) x.folded }

/-- The attached snoops of a side see a stream: SIDE 0 output, 1 primary source (R283, R285). -/
def Dev.stream (d : Dev) (x : DescEntry) (side a : Nat) (bs : Bytes) : Dev :=
  if x.snoops = [] then d
  else d.mapDescs (fun z => if z.id ∈ x.snoops ∧ z.fl 495 1 = side then z.fold a bs else z)

/-! ## What an engine reads and writes (R80, R101) -/

/-- The rights of a descriptor on n bytes: LOCAL of its context, read only in the image range; other spaces as its partition. -/
def Dev.engCheck (d : Dev) (x : DescEntry) (a n : Nat) (write : Bool) : Status :=
  if spaceOf a = 0 then
    if localSize < a + n then .badRequest else if write ∧ 0x30000 < a + n ∧ n ≠ 0 then .access else .ok
  else d.checkAccess x.part a n write

/-- The first check that fails, over ranges (address, bytes, write). -/
def Dev.engChecks (d : Dev) (x : DescEntry) (l : List (Nat × Nat × Bool)) : Status :=
  l.foldl (fun st r => joinStatus st (d.engCheck x r.1 r.2.1 r.2.2)) .ok

/-- Key of a host line held for the present party. -/
def Dev.hostKey (d : Dev) (a i : Nat) : Nat := d.coh.party * 2 ^ 46 + (offOf a / 64 + i)

/-- Whether the host lines of a range are held for the present party. -/
def Dev.hostHeld (d : Dev) (a n : Nat) : Bool :=
  (List.range (hostLineCount a n)).all (fun i => (Tab.find? d.cxl.held (d.hostKey a i)).isSome)

/-- Whether a range of HOST is being fetched for the present party. -/
def Dev.hostAsked (d : Dev) (a n : Nat) : Bool :=
  d.cxl.reads.any (fun r => r.2.serves == .party d.coh.party && r.2.addr == a && r.2.n == n)

/-- Fetches the host lines of ranges; true once all are held (R538). -/
def Dev.hostFetch (d : Dev) (l : List (Nat × Nat)) : Dev × Bool :=
  let need := (l.filter (fun r => spaceOf r.1 == 4)).filter (fun r => !d.hostHeld r.1 r.2)
  (need.foldl (fun d r => if d.hostAsked r.1 r.2 then d else d.hostRead (.party d.coh.party) r.1 r.2) d, need == [])

/-- Reads the POOL blocks of ranges for the present party; true once all have come. A range that was drained before its reads were issued is
read no more (R370, R371). -/
def Dev.poolFetch (d : Dev) (l : List (Nat × Nat)) : Dev × Bool :=
  (l.filter (fun r => spaceOf r.1 == 3)).foldl (fun (y : Dev × Bool) r =>
    let d := y.1
    if d.poolUnderWay d.coh.party (offOf r.1) r.2 || d.poolLive r.1 r.2 then
      let z := d.wantPool d.coh.party (offOf r.1) r.2 false
      (z.1, y.2 && z.2)
    else y) (d, true)

/-- Runs a body once the host lines, POOL blocks and NEAR lines of its ranges are at hand (R189, R369, R538); until then its event only asks
for them. -/
def Dev.engReady (d : Dev) (reads writes : List (Nat × Nat)) (body : Dev → Dev) : Dev :=
  let h := d.hostFetch reads
  let q := h.1.poolFetch reads
  if !h.2 ∨ !q.2 then q.1
  else
    let y := q.1.ready (reads.filter (fun r => spaceOf r.1 == 1)) (writes.filter (fun r => spaceOf r.1 == 1))
    if y.2 then body y.1 else y.1

/-- Reads n bytes for a descriptor: the bytes, and OK, POISON or REVOKED. -/
def Dev.engRead (d : Dev) (x : DescEntry) (a n : Nat) : Dev × Bytes × Status :=
  match spaceOf a with
  | 0 => (d, (d.ctx x.ctx).local a n, .ok)
  | 3 =>
    if d.poolUnderWay d.coh.party (offOf a) n then
      match d.heldPool d.coh.party (offOf a) n with
      | some bs => (d, bs, .ok)
      | none => (d, zeros n, .poison)
    else (d, zeros n, .revoked)
  | 4 =>
    let lines := (List.range (hostLineCount a n)).map (fun i => (i, Tab.get [] d.cxl.held (d.hostKey a i)))
    (d, slice (hostBytes lines) (offOf a % 64) n, if lines.any (fun l => l.2 == []) then .poison else .ok)
  | _ =>
    let y := d.read a n
    (y.1, y.2.1, if y.2.2 = [] then .ok else .poison)

/-- Writes bytes for a descriptor: false says POISON. -/
def Dev.engWrite (d : Dev) (x : DescEntry) (a : Nat) (bs : Bytes) : Dev × Bool :=
  if spaceOf a = 0 then (d.setCtx x.ctx ((d.ctx x.ctx).setLocal a bs), true) else d.write a bs

/-- Writes the outputs of a descriptor and ends it: OK, or POISON with nothing written where a piece cannot be (R267, R313). -/
def Dev.finishDesc (d : Dev) (x : DescEntry) (outs : List (Nat × Bytes)) : Dev :=
  let stops := d.writeStops (outs.map (fun o => (o.1, o.2.length)))
  if stops ≠ [] then (granReadAll d stops).1.failDesc x .poison
  else
  let y := outs.foldl (fun (z : Dev × Bool) o =>
    let w := (z.1.stream x 0 o.1 o.2).engWrite x o.1 o.2
    (w.1, z.2 && w.2)) (d, true)
  -- the descriptor's own record may have changed with the streams
  y.1.endDesc x (if y.2 then .ok else .poison) (newFrames d y.1)

/-! ## Meanings -/

/-- enq: the steps of R569. -/
def execEnq (c : CtxId) (f : RegFnF) (s : State) : Host.Outcome State Fault Refusal :=
  s.run (issueUnlessHeld c (encode (.enq f)) [f.rd.toNat] (fun d x =>
    let v := x.dr f.ra.toNat
    let w := encode (.enq f)
    let xb := dfld v 210 12 * 64
    let ext := dfld v 0 4 = 0 ∧ (dfld v 12 8 = 1 ∨ dfld v 12 8 = 2)
    if x.exhausted then some (d.raise c .ticketExhausted .ok x.pc w)
    else if ext ∧ localSize < xb + 64 then some (d.raise c .badLocal .ok x.pc w)
    else
      let t := x.issueTicket .desc
      let x' := (t.1.setG f.rd.toNat (BitVec.ofNat 64 (ticketVal t.2.1 t.2.2))).retire
      if descRejected v then some ((d.setCtx c x').ticketDone c t.2.1 t.2.2 .badRequest)
      else
        let e := descEng c v
        if 32 ≤ (d.engQ e x.part).length then none
        else some ((d.setCtx c x').pushDesc e (newDesc d.eng.nextId c t.2.1 t.2.2 x.part v (if ext then x.local xb 64 else [])))))

end Sys2Proof.Machine
end

