-- ==== Sys2Proof/Machine/Formats.lean ====
section
/-! DEFINITION. The element formats of R231 and vectors of them (R232), the exact lanes of a reduction (R242, R247, R249), and the
rounding of results (R245, R246, R248). -/

namespace Sys2Proof.Machine

/-! ## Formats -/

def isMx (fmt : Nat) : Bool := 5 ≤ fmt && fmt ≤ 10
def isInt (fmt : Nat) : Bool := 11 ≤ fmt && fmt ≤ 14

/-- Element bits of a format. -/
def fmtBits (fmt : Nat) : Nat :=
  match fmt with
  | 0 => 32 | 1 => 16 | 2 => 16 | 3 => 8 | 4 => 8 | 5 => 8 | 6 => 8 | 7 => 6 | 8 => 6 | 9 => 4 | 10 => 8 | 11 => 8 | 12 => 16 | 13 => 32 | _ => 64

/-- The element format of a floating-point or MX format. -/
def fmtFp (fmt : Nat) : FpFmt :=
  match fmt with
  | 0 => fp32 | 1 => bf16 | 2 => fp16 | 3 => e4m3 | 4 => e5m2 | 5 => e4m3 | 6 => e5m2 | 7 => e2m3 | 8 => e3m2 | _ => e2m1

/-- emax of an MX element format. -/
def fmtEmax (fmt : Nat) : Int :=
  match fmt with
  | 5 => 8 | 6 => 15 | 7 => 2 | 8 => 4 | 9 => 2 | _ => 0

/-- Vector length V in bytes (R232). -/
def vecLen (fmt n : Nat) : Nat := ceilDiv (fmtBits fmt * n) 8 + (if isMx fmt then n / 32 else 0)

/-- The bits of element i of packed elements. -/
def elemBits (bits : Nat) (bs : Bytes) (i : Nat) : Nat := fld (leAt bs (bits * i / 8) 9) (bits * i % 8) bits

/-- Elements packed from the lowest bits up. -/
def packElems (bits : Nat) (l : List Nat) : Bytes :=
  leBytes (ceilDiv (bits * l.length) 8) (l.foldr (fun v acc => v % 2 ^ bits + acc * 2 ^ bits) 0)

/-- A datum scaled by a power of two. -/
def fpScale (x : Fp) (k : Int) : Fp :=
  match x with
  | .fin n m e => .fin n m (e + k)
  | y => y

/-- The datum of an element: its bits, and for MX formats the scale byte. -/
def elemVal (fmt bits scale : Nat) : Fp :=
  if isMx fmt then
    if scale = 255 then .nan
    else
      let x := if fmt = 10 then fpScale (fpOfInt (sextInt 8 bits)) (-6) else fpDec (fmtFp fmt) bits
      fpScale x ((scale : Int) - 127)
  else fpDec (fmtFp fmt) bits

/-- The data of a vector of n elements in a floating-point or MX format. -/
def vecVals (fmt n : Nat) (bs : Bytes) : List Fp :=
  (List.range n).map (fun i => elemVal fmt (elemBits (fmtBits fmt) bs i)
    (if isMx fmt then leAt bs (ceilDiv (fmtBits fmt * n) 8 + i / 32) 1 else 0))

/-- The values of a vector in an integer format. -/
def vecInts (fmt n : Nat) (bs : Bytes) : List Int :=
  (List.range n).map (fun i => sextInt (fmtBits fmt) (elemBits (fmtBits fmt) bs i))

/-- A datum as a binary32 pattern: exact, or infinite beyond its range (R248). -/
def toFp32 (x : Fp) : Nat := fpEnc fp32 x

/-! ## Exact lanes (R242, R243, R247) -/

/-- The accumulator of a lane in units of 2^-149, and its four flags. -/
structure Lane where
  a : Int
  nan : Bool
  pinf : Bool
  ninf : Bool
  nz : Bool
deriving DecidableEq, Repr

/-- m × 2^e as an integer in units of 2^-149. -/
def exactInt (m : Nat) (e : Int) : Nat := m * 2 ^ (e + 149).toNat

/-- The lane of one datum. -/
def laneOf (sum : Bool) : Fp → Lane
  | .nan => { a := 0, nan := true, pinf := false, ninf := false, nz := false }
  | .inf neg => { a := 0, nan := false, pinf := !neg, ninf := neg, nz := false }
  | .fin neg m e => { a := signed neg (exactInt m e), nan := false, pinf := false, ninf := false, nz := if sum then neg && m == 0 else true }

/-- The accumulator is 320 bits of two's complement (R242). -/
def accWrap (a : Int) : Int := sextInt 320 (intFld 320 a)

/-- Joins two lanes under OPER 0 SUM, 1 MIN, 2 MAX. -/
def laneJoin (oper : Nat) (x y : Lane) : Lane :=
  { a := match oper with
      | 0 => accWrap (x.a + y.a)
      | 1 => if !x.nz then y.a else if !y.nz then x.a else min x.a y.a
      | _ => if !x.nz then y.a else if !y.nz then x.a else max x.a y.a
    nan := x.nan || y.nan, pinf := x.pinf || y.pinf, ninf := x.ninf || y.ninf, nz := if oper = 0 then x.nz && y.nz else x.nz || y.nz }

/-- The accumulator as a datum. -/
def accVal (a : Int) (negZero : Bool) : Fp := if a = 0 then .fin negZero 0 (-149) else .fin (a < 0) a.natAbs (-149)

/-- The value of a lane: R245 for SUM, R247 for MIN and MAX. -/
def laneVal (oper : Nat) (l : Lane) : Fp :=
  if l.nan then .nan
  else match oper with
    | 0 => if l.pinf ∧ l.ninf then .nan else if l.pinf then .inf false else if l.ninf then .inf true else accVal l.a l.nz
    | 1 => if l.ninf then .inf true else if l.nz then accVal l.a false else .inf false
    | _ => if l.pinf then .inf false else if l.nz then accVal l.a false else .inf true

/-- 40 B of an accumulator, and its nibble of flags (R253). -/
def laneBytes (l : Lane) : Bytes := leBytes 40 (intFld 320 l.a)
def laneFlags (l : Lane) : Nat := b2n l.nan + 2 * b2n l.pinf + 4 * b2n l.ninf + 8 * b2n l.nz

def laneOfBytes (bs : Bytes) (flags : Nat) : Lane :=
  { a := sextInt 320 (leNat (bs.take 40)), nan := bitAt flags 0, pinf := bitAt flags 1, ninf := bitAt flags 2, nz := bitAt flags 3 }

/-! ## Rounding (R245, R246) -/

/-- One element that is not of an MX format: its bits, and whether it overflowed. [DESIGN CHOICE: log 51; DEDUCED: log 52] -/
def outElem (fmt : Nat) (x : Fp) : Nat × Bool :=
  let f := fmtFp fmt
  match x with
  | .nan => (fpNan f, false)
  | .inf neg => (if fmt = 3 then (Config.e4m3Inf neg).toNat else fpInf f neg, false)
  | .fin neg m e =>
    let r := fpRoundMag f m e
    if r.2 then (fpInf f neg, true) else (fpSign f neg + r.1, false)

/-- Binary exponent of the leading bit of a finite datum. -/
def fpMsb : Fp → Option Int
  | .fin _ m e => if m = 0 then none else some (e + bitLen m - 1)
  | _ => none

/-- Scale exponent of a block (R246). -/
def mxExp (fmt : Nat) (l : List Fp) : Int :=
  match (l.filterMap fpMsb).foldl (fun (b : Option Int) e => match b with | none => some e | some x => some (max x e)) none with
  | none => -127
  | some e => clampInt (-127) 127 (e - fmtEmax fmt)

/-- One element of an MX block at a scale; what lies beyond the largest finite value saturates (R246). [DEDUCED: log 52] -/
def mxElem (fmt : Nat) (sc : Int) (x : Fp) : Nat × Bool :=
  if fmt = 10 then
    match x with
    | .nan => (0, false)
    | .inf neg => (intFld 8 (if neg then -128 else 127), true)
    | .fin neg m e =>
      let v := signed neg (shiftRne m (e - sc + 6))
      (intFld 8 (clampInt (-128) 127 v), v < -128 || 127 < v)
  else
    let f := fmtFp fmt
    match x with
    | .nan => (0, false)
    | .inf neg => (fpMax f neg, true)
    | .fin neg m e =>
      let r := fpRoundMag f m (e - sc)
      if r.2 then (fpMax f neg, true) else (fpSign f neg + r.1, false)

/-- A block of 32 elements: scale byte, element bits, overflow. [DESIGN CHOICE: log 51; DEDUCED: log 52] -/
def mxBlock (fmt first : Nat) (l : List Fp) : Nat × List Nat × Bool :=
  if Fp.nan ∈ l then (255, (List.range l.length).map (fun i => (Config.nanBlock (first + i)).toNat), false)
  else
    let sc := mxExp fmt l
    let es := l.map (mxElem fmt sc)
    ((sc + 127).toNat, es.map (·.1), es.any (·.2))

/-- Cuts a list into parts of n. The number bounds the parts. -/
def chunksOf {α : Type} (n : Nat) : Nat → List α → List (List α)
  | 0, _ => []
  | k + 1, l => if l.isEmpty then [] else l.take n :: chunksOf n k (l.drop n)

/-- A vector in a floating-point or MX format: its bytes, and whether some element overflowed. -/
def outVec (fmt : Nat) (l : List Fp) : Bytes × Bool :=
  if isMx fmt then
    let bl := (chunksOf 32 (l.length / 32 + 1) l).zipIdx.map (fun b => mxBlock fmt (32 * b.2) b.1)
    (packElems (fmtBits fmt) (bl.flatMap (·.2.1)) ++ bl.map (fun b => BitVec.ofNat 8 b.1), bl.any (·.2.2))
  else
    let es := l.map (outElem fmt)
    (packElems (fmtBits fmt) (es.map (·.1)), es.any (·.2))

/-! ## FAST and integer lanes (R248, R249) -/

/-- MIN or MAX of two binary32 patterns. [DESIGN CHOICE: log 50] -/
def fastExtreme (max? : Bool) (a b : Nat) : Nat :=
  let x := fpDec fp32 a
  let y := fpDec fp32 b
  let zero : Fp → Bool := fun z => match z with | .fin _ 0 _ => true | _ => false
  if x = .nan ∨ y = .nan ∨ (zero x ∧ zero y ∧ a ≠ b) then (Config.fastExtreme max? (BitVec.ofNat 32 a) (BitVec.ofNat 32 b)).toNat
  else if max? then (if fpLt x y then b else a) else (if fpLt y x then b else a)

def fastJoin (oper a b : Nat) : Nat :=
  match oper with
  | 0 => fadd32 a b
  | 1 => fastExtreme false a b
  | _ => fastExtreme true a b

/-- Joins two 64-bit lanes of an integer reduction. -/
def intJoin (oper : Nat) (x y : Int) : Int :=
  let bits := fun (f : Nat → Nat → Nat) => sextInt 64 (f (intFld 64 x) (intFld 64 y))
  match oper with
  | 0 => sextInt 64 (intFld 64 (x + y))
  | 1 => min x y
  | 2 => max x y
  | 3 => bits (· &&& ·)
  | 4 => bits (· ||| ·)
  | _ => bits (· ^^^ ·)

/-- A vector in an integer format: its bytes, and whether some element saturated. -/
def outInts (fmt : Nat) (l : List Int) : Bytes × Bool :=
  let w := fmtBits fmt
  let lo : Int := -(2 ^ (w - 1) : Nat)
  let hi : Int := (2 ^ (w - 1) : Nat) - 1
  (packElems w (l.map (fun x => intFld w (clampInt lo hi x))), l.any (fun x => x < lo || hi < x))

end Sys2Proof.Machine
end

