-- ==== Sys2Proof/Machine/Reduce.lean ====
section
/-! DEFINITION. Reduction groups (chapter 8, R226 to R260): opening, contributions, the sum, trees of devices and their notices, and
aborts. -/

namespace Sys2Proof.Machine

/-! ## Groups -/

/-- The group engine of GROUP (R226). -/
def groupEngine (gid : Nat) : EngId := { tile := gid % 12, cls := 1, inst := gid / 12 % 4 }

def Dev.group (d : Dev) (p gid : Nat) : Option Group := d.rdc.groups.find? (fun g => g.part == p && g.gid == gid)

def Dev.setGroup (d : Dev) (g : Group) : Dev :=
  { d with rdc := { d.rdc with groups := d.rdc.groups.map (fun x => if x.part = g.part ∧ x.gid = g.gid then g else x) } }

def Dev.dropGroup (d : Dev) (p gid : Nat) : Dev :=
  { d with rdc := { d.rdc with groups := d.rdc.groups.filter (fun x => !(x.part == p && x.gid == gid)) } }

/-- RDC_CFG.EARLY and HOLD as they read. -/
def earlyOf (v : Nat) : Nat := max 1 (fld v 0 8)
def holdOf (v : Nat) : Nat := max 16 (fld v 8 10)

def Group.root (g : Group) : Bool := g.role == 0 || g.role == 3

/-- Whether this device writes a result (R228). -/
def Group.writes (g : Group) : Bool := (g.root || g.allred) && g.count != 0

/-- Encoding of a partial: 0 EXACT, 1 FAST, 2 INT (R253). -/
def Group.enc (g : Group) : Nat := if isInt g.inFmt then 2 else if g.fast then 1 else 0

/-- Elements in a chunk. -/
def perChunk (enc : Nat) : Nat := match enc with | 0 => 96 | 1 => 1024 | _ => 512

/-- Bytes of n elements of a partial. -/
def chunkBytes (enc n : Nat) : Nat := match enc with | 0 => 40 * n + ceilDiv n 2 | 1 => 4 * n | _ => 8 * n

def Group.chunksUp (g : Group) : Nat := ceilDiv g.count (perChunk g.enc)

/-- Elements in chunk k. -/
def Group.chunkLen (g : Group) (k : Nat) : Nat := min (perChunk g.enc) (g.count - k * perChunk g.enc)

/-- Slots of the staging area (R233). -/
def Group.slotLen (g : Group) : Nat := ceilDiv (vecLen g.inFmt g.count) 4096 * 4096
def Group.localSlot (g : Group) (i : Nat) : Nat := g.stage + i * g.slotLen
def Group.childSlot (g : Group) (j : Nat) : Nat := g.stage + g.nlocal * g.slotLen + j * (g.chunksUp * 4096)
def Group.stageLen (g : Group) : Nat := g.nlocal * g.slotLen + g.nchild * (g.chunksUp * 4096)

/-- Result vector and its chunks. -/
def Group.resLen (g : Group) : Nat := vecLen g.outFmt g.count
def Group.chunksDown (g : Group) : Nat := if g.allred then ceilDiv g.resLen 4096 else 0

/-- Entry i of the tree record: the parent is 0, the children follow (R251). -/
def Group.treeFld (g : Group) (i lo w : Nat) : Nat := fld (leAt g.tree (32 * i) 32) lo w

def Group.hasParent (g : Group) : Bool := g.role == 1 || g.role == 2

/-- The group is still at work. -/
def Group.live (g : Group) : Bool := g.state == .collect || g.state == .reduce || g.state == .waitRes

/-- The summary of a DONE group (R234). -/
def Group.summary (g : Group) : Bytes := BitVec.ofNat 8 (b2n g.sat + 2 * b2n g.ovf + 4 * b2n g.nan) :: zeros 7

/-! ## Answers to contributors -/

/-- A descriptor of a context ends, by its ticket. -/
def Dev.endTicket (d : Dev) (c : CtxId) (slot gen : Nat) (st : Status) : Dev :=
  match d.allDescs.find? (fun e => e.2.ctx == c && e.2.slot == slot && e.2.gen == gen && e.2.status.isNone) with
  | some e => d.endDesc e.2 st []
  | none => d

def Dev.answerContrib (d : Dev) (who : Contributor) (st : Status) (data : Bytes) : Dev :=
  match who with
  | .agent r => d.complete r .opreq st 0 data
  | .ctx c slot gen => d.endTicket c slot gen st

/-- Completes the OPEN's ticket and every contribution of a group. -/
def Dev.answerGroup (d : Dev) (g : Group) (st : Status) : Dev :=
  let d := d.endTicket g.owner g.slot g.gen st
  g.contribs.foldl (fun d e => d.answerContrib e.2 st (if st = .ok then g.summary else [])) d

/-! ## Notices (R252 to R254) -/

def noticeNotify (kind child gid aux : Nat) : Nat := gid % 2 ^ 32 + child * 2 ^ 32 + kind * 2 ^ 36 + aux % 2 ^ 20 * 2 ^ 40 + 0xA * 2 ^ 60

/-- Puts a notice aside to be sent at the next cue. -/
def Dev.sendLater (d : Dev) (part group uid until' : Nat) (t : Txn) (unsent : Bool) : Dev :=
  let r : Resend := { id := d.txn.nextId, part := part, group := group, uid := uid, unsent := unsent, txn := t, due := d.tb.cueCount + 1, until' := until' }
  { d with txn := { d.txn with resends := d.txn.resends ++ [r], nextId := d.txn.nextId + 1 } }

/-- CUE_COUNT of a group's DEADLINE. -/
def Group.until' (g : Group) : Nat := g.openCue + g.deadline

/-- Sends a notice as the origin of a MSG; while no tag is free it is kept for the next cue. -/
def Dev.sendNotice (d : Dev) (g : Group) (t : Txn) : Dev :=
  let x := d.sendMsg g.part t (.notice g.part g.gid g.uid g.until')
  if x.2.isSome then x.1 else x.1.sendLater g.part g.gid g.uid g.until' t true

/-- The notice of a kind to entry i of the tree record. A child index is 0 to 14: 0xF marks a downward notice. [DESIGN CHOICE: log 47] -/
def Dev.noticeTo (d : Dev) (g : Group) (i kind aux off : Nat) (data : Bytes) : Dev :=
  let f := g.treeFld i
  let child := if i = 0 then (Config.childIndex g.part g.gid).toNat % 15 else 15
  let tc := if kind = 4 ∧ bitAt (d.regFld POL_PRIV 0 16) g.part then 7 else g.tc
  let t : Txn := { blankTxn with
    tc := BitVec.ofNat 3 tc, len := BitVec.ofNat 13 data.length, addr := BitVec.ofNat 64 (f 64 64 + off), data := data
    route := { dstDev := BitVec.ofNat 12 (f 0 12), srcDev := BitVec.ofNat 12 d.devId, dstPart := BitVec.ofNat 4 (f 12 4),
               dstTile := BitVec.ofNat 4 (f 16 4), dstCore := BitVec.ofNat 4 (f 20 4), dstCtx := BitVec.ofNat 4 (f 24 4),
               hops := BitVec.ofNat 3 (f 28 3), notify := BitVec.ofNat 64 (noticeNotify kind child g.gid aux) } }
  d.sendNotice g t

def Dev.toChildren (d : Dev) (g : Group) (kind aux off : Nat) (data : Bytes) : Dev :=
  (List.range g.nchild).foldl (fun d j => d.noticeTo g (j + 1) kind aux off data) d

/-! ## DONE and ABORTED (R239, R241, R257) -/

def Dev.setRdcEvt (d : Dev) (bit : Nat) : Dev := d.setRegBit RDC_EVT bit

/-- A group ends with OK: RES_END goes to the children, tickets and contributions complete (R239). -/
def Dev.groupDone (d : Dev) (g : Group) : Dev :=
  let g : Group := { g with state := .done, endCue := d.tb.cueCount, waitMack := [] }
  let d := (d.setGroup g).toChildren g 3 (b2n g.sat + 2 * b2n g.ovf + 4 * b2n g.nan) 0 []
  let d := (d.answerGroup g .ok).bump RDC_DONE_CNT
  let d := if g.sat then (d.bump RDC_SAT_CNT).setRdcEvt 2 else d
  if g.ovf then d.bump RDC_OVF_CNT else d

/-- ACC links with an RDC_CONTRIB pending. -/
def Group.accLinks (g : Group) : List Nat :=
  g.contribs.foldl (fun l e => match e.2 with | .agent r => setIns l r.link | .ctx _ _ _ => l) []

/-- Contexts that learn of an abort: the owner, and those with a CONTRIB pending. -/
def Group.ctxs (g : Group) : List CtxId :=
  g.contribs.foldl (fun l e => match e.2 with | .ctx c _ _ => if c ∈ l then l else l ++ [c] | .agent _ => l) [g.owner]

/-- The neighbours of a group by tree entry. -/
def Group.neighbours (g : Group) : List Nat := (if g.hasParent then [0] else []) ++ (List.range g.nchild).map (· + 1)

/-- A group enters ABORTED: the steps of R257. The neighbour that sent the notice is left out. -/
def Dev.groupAbort (d : Dev) (g : Group) (reason origin : Nat) (sender : Option Nat) : Dev :=
  if !g.live then d
  else
    let g : Group := { g with state := .aborted, reason := reason, origin := origin, endCue := d.tb.cueCount, waitMack := [] }
    let own : Bool := sender.isNone
    -- all work stops: nothing of it is sent any more
    let d := { d with txn := { d.txn with resends := d.txn.resends.filter (fun r => r.uid ≠ g.uid) } }.setGroup g
    let d := (g.neighbours.filter (fun i => some i ≠ sender)).foldl (fun d i => d.noticeTo g i 4 (reason % 256 + origin % 4096 * 256) 0 []) d
    let d := g.ctxs.foldl (fun d c => d.setEvent c 2) d
    let d := d.startEvt g.accLinks 2 (g.gid + g.part * 2 ^ 32 + reason * 2 ^ 36) 4 8
    let d := if own then d.report 0x40 1 (engOrigin (groupEngine g.gid) g.part) g.gid reason origin else d
    let d := (d.answerGroup g .aborted).bump RDC_ABORT_CNT
    let d := d.event RDC_EVT 0 g.evtEn
    { d with rdc := { d.rdc with lastAbort := g.gid + g.part * 2 ^ 32 + reason * 2 ^ 36 + origin * 2 ^ 44 + b2n own * 2 ^ 56 } }

/-- A member failure on this device (R256). -/
def Dev.groupFail (d : Dev) (g : Group) (reason : Status) : Dev := d.groupAbort g (statusCode reason) d.devId none

/-! ## Contributions (R234, R235, R238) -/

def Dev.earlyTable (d : Dev) (tile : Nat) : List Early := Tab.get [] d.rdc.early tile

def Dev.setEarly (d : Dev) (tile : Nat) (l : List Early) : Dev := { d with rdc := { d.rdc with early := Tab.set [] d.rdc.early tile l } }

/-- Holds an entry in the early table of a group's tile; false when it is full. [DEDUCED: log 49] -/
def Dev.holdEarly (d : Dev) (gid : Nat) (x : Early) : Dev × Bool :=
  let l := d.earlyTable (gid % 12)
  if l.length < 1024 then (d.setEarly (gid % 12) (l ++ [x]), true) else (d, false)

/-- Counts an entry that the early table answers BUSY: at once when the table is full, or when its time has passed (R238, R261). [DEDUCED: log 175] -/
def Dev.earlyDrop (d : Dev) : Dev := (d.bump RDC_EARLY_DROP_CNT).setRdcEvt 1

/-- Steps 2 to 5 of R235, and the record of a contribution; none where it now waits. [DESIGN CHOICE: log 43; DEDUCED: log 175] -/
def Dev.contribute (d : Dev) (p gid index : Nat) (who : Contributor) : Dev :=
  match d.group p gid with
  | none =>
    let x := d.holdEarly gid (.contrib who p gid index d.tb.cueCount)
    if x.2 then x.1 else x.1.earlyDrop.answerContrib who .busy []
  | some g =>
    match g.state with
    | .aborted => d.answerContrib who .aborted []
    | .done => d.answerContrib who .ok g.summary
    | _ =>
      if g.nlocal ≤ index ∨ (Tab.find? g.contribs index).isSome then d.answerContrib who .badRequest []
      else d.setGroup { g with contribs := Tab.insert g.contribs index who }

/-- An abort by a member of the device: the answer of R234. [DESIGN CHOICE: log 43, 47] -/
def Dev.abortBy (d : Dev) (p gid : Nat) (who : Contributor) : Dev :=
  match d.group p gid with
  | none => d.answerContrib who ((statusOf ((Config.abortUnheld p gid).toNat % 14)).getD .busy) (zeros 8)
  | some g => if g.state = .done then d.answerContrib who .ok g.summary else (d.groupFail g .aborted).answerContrib who .aborted []

/-- The built-in operations 0xFF10 and 0xFF11 on ACC links, and the dispatch of every other OPREQ (R82, R234); before READY every OPREQ is
refused with BUSY (R548). -/
def Dev.oper (d : Dev) (p : Nat) (r : ReqId) (t : Txn) : Dev :=
  let arg := slice t.data 0 16
  if !d.pwr.ready then d.complete r .opreq .busy 0 []
  else if (t.opcode = 0xFF10 ∨ t.opcode = 0xFF11) ∧ d.role r.link = 1 then
    let used := if t.opcode = 0xFF10 then 6 else 4
    if t.len ≠ 16 ∨ t.nops ≠ 0 ∨ leNat (arg.drop used) ≠ 0 then d.complete r .opreq .badRequest 0 []
    else if t.opcode = 0xFF10 then d.contribute p (leAt arg 0 4) (leAt arg 4 2) (.agent r)
    else d.abortBy p (leAt arg 0 4) (.agent r)
  else d.dispatch p r t

/-! ## Notices arrive (R252, R255, R258) -/

/-- Whether everything a DONE of WAIT_RES needs has come. -/
def Group.resComplete (g : Group) : Bool := g.resEnd.isSome && g.chunksDown ≤ g.resChunks.length

/-- A WAIT_RES group whose result is complete enters DONE with its parent's flags. [DEDUCED: log 53] -/
def Dev.resSettle (d : Dev) (g : Group) : Dev :=
  if g.state = .waitRes ∧ g.resComplete then
    let f := g.resEnd.getD 0
    d.groupDone { g with sat := bitAt f 0, ovf := bitAt f 1, nan := bitAt f 2 }
  else d

/-- The leaf count of a group so far (R243). -/
def Group.leaves (g : Group) : Nat := g.nlocal + (g.ends.map (·.2)).sum

/-- A discarded notice. [DEDUCED: log 49] -/
def Dev.stale (d : Dev) : Dev := d.bump RDC_STALE_CNT

/-- Bytes of RES chunk k. -/
def Group.resChunk (g : Group) (k : Nat) : Nat := min 4096 (g.resLen - k * 4096)

/-- Sends every RES chunk and RES_END to a child again (R258). A chunk that reads POISON is not sent: it holds no data (R14).
[DESIGN CHOICE: log 196] -/
def Dev.resendResult (d : Dev) (g : Group) (i : Nat) : Dev :=
  let d := (List.range g.chunksDown).foldl (fun d k =>
    let y := d.read (g.result + k * 4096) (g.resChunk k)
    if y.2.2 = [] then y.1.noticeTo g i 2 k (k * 4096) y.2.1 else y.1) d
  d.noticeTo g i 3 (b2n g.sat + 2 * b2n g.ovf + 4 * b2n g.nan) 0 []

/-- A notice for a held group; the status answered. -/
def Dev.takeNotice (d : Dev) (g : Group) (t : Txn) : Dev × Status :=
  let nf := fun lo w => fld t.route.notify.toNat lo w
  let child := nf 32 4
  let aux := nf 40 20
  match nf 36 4 with
  | 0 =>
    if g.state ≠ .collect then (d.stale, .ok)
    else if g.nchild ≤ child ∨ g.chunksUp ≤ aux then (d, .badRequest)
    else if (child, aux) ∈ g.chunks then (d.stale, .ok)
    else (d.setGroup { g with chunks := g.chunks ++ [(child, aux)] }, .ok)
  | 1 =>
    if g.state ≠ .collect then (d.stale, .ok)
    else if g.nchild ≤ child then (d, .badRequest)
    else if (Tab.find? g.ends child).isSome then (d.stale, .ok)
    else
      let g : Group := { g with ends := Tab.insert g.ends child (if aux = 0 then 1048576 else aux) }
      let d := d.setGroup g
      (if 1048576 < g.leaves then d.groupFail g .limit else d, .ok)
  | 2 =>
    if g.state ≠ .waitRes then (d.stale, .ok)
    else if g.chunksDown ≤ aux then (d, .badRequest)
    else if aux ∈ g.resChunks then (d.stale, .ok)
    else
      let g : Group := { g with resChunks := g.resChunks ++ [aux] }
      (((d.setGroup g).toChildren g 2 aux (aux * 4096) t.data).resSettle g, .ok)
  | 3 =>
    if g.state ≠ .waitRes then (d.stale, .ok)
    else
      let g : Group := { g with resEnd := some (aux % 8) }
      ((d.setGroup g).resSettle g, .ok)
  | 4 =>
    let i := if child = 15 then 0 else child + 1
    if g.live then (d.groupAbort g (aux % 256) (aux / 256) (some i), .ok)
    else if g.state = .done then (if i = 0 then d.stale else d.resendResult g i, .ok)
    else (d, .ok)
  | _ => (d, .badRequest)

/-- A reduction notice goes to its group, or to the early table (R238, R252). [DEDUCED: log 49, 175] -/
def Dev.rdcNotice (d : Dev) (r : ReqId) (t : Txn) : Dev :=
  let gid := fld t.route.notify.toNat 0 32
  if 5 ≤ fld t.route.notify.toNat 36 4 then d.msgFinish r t .badRequest
  else match d.group t.route.dstPart.toNat gid with
  | some g =>
    let x := d.takeNotice g t
    x.1.msgFinish r t x.2
  | none =>
    let x := d.holdEarly gid (.notice r t d.tb.cueCount)
    if x.2 then x.1 else x.1.earlyDrop.msgFinish r t .busy

/-- Whether an entry of an early table is for a group, and when it came. -/
def Early.isFor (p gid : Nat) : Early → Bool
  | .contrib _ q g _ _ => q == p && g == gid
  | .notice _ t _ => t.route.dstPart.toNat == p && fld t.route.notify.toNat 0 32 == gid

def Early.since : Early → Nat
  | .contrib _ _ _ _ c => c
  | .notice _ _ c => c

/-- Entries of the early table join the group that has opened, in order of arrival. -/
def Dev.joinEarly (d : Dev) (p gid : Nat) : Dev :=
  let l := d.earlyTable (gid % 12)
  let d := d.setEarly (gid % 12) (l.filter (fun x => !x.isFor p gid))
  (l.filter (fun x => x.isFor p gid)).foldl (fun d x => match x with
    | .contrib who q g index _ => d.contribute q g index who
    | .notice r t _ => d.rdcNotice r t) d

/-- An early entry whose group has not opened within EARLY cues is answered BUSY (R238). -/
def Dev.earlyExpire (d : Dev) (tile idx : Nat) : Dev :=
  match (d.earlyTable tile)[idx]? with
  | none => d
  | some x =>
    if d.tb.cueCount < x.since + earlyOf (d.reg RDC_CFG) then d
    else
      let d := (d.setEarly tile ((d.earlyTable tile).eraseIdx idx)).earlyDrop
      match x with
      | .contrib who _ _ _ _ => d.answerContrib who .busy []
      | .notice r t _ => d.msgFinish r t .busy

/-! ## OPEN (R226 to R229) -/

def groupOf (x : DescEntry) (cfg cue : Nat) (tree : Bytes) : Group :=
  { uid := 0, part := x.part, gid := x.fl 64 32, state := .collect, oper := x.fl 96 3, fast := x.fl 99 1 == 1, allred := x.fl 100 1 == 1,
    role := x.fl 101 2, inFmt := x.fl 103 4, outFmt := x.fl 107 4, count := x.fl 111 21, nlocal := x.fl 132 12, nchild := x.fl 144 4,
    tc := x.fl 148 3, deadline := x.fl 151 16, stage := x.fl 192 64, result := x.fl 256 64, tree := tree, owner := x.ctx,
    slot := x.slot, gen := x.gen, openCue := cue, hold := holdOf cfg, evtEn := bitAt cfg 18, sending := false, contribs := [], chunks := [], ends := [],
    resChunks := [], sat := false, ovf := false, nan := false, reason := 0, origin := 0, endCue := 0, resEnd := none,
    waitMack := [] }

/-- The parameter conditions of R228. [DEDUCED: log 46] -/
def openBad (x : DescEntry) (g : Group) : Bool :=
  5 < g.oper || g.inFmt == 15 || g.outFmt == 15 || 1048576 < g.count || g.deadline == 0 || g.stage % 4096 != 0 ||
  (g.writes && g.result % 4096 != 0) || (g.role != 0 && x.fl 320 64 % 64 != 0) ||
  g.nlocal + g.nchild == 0 || (3 ≤ g.oper && !(isInt g.inFmt)) || (isInt g.inFmt != isInt g.outFmt) ||
  ((isMx g.inFmt || isMx g.outFmt) && g.count % 32 != 0) || (g.role ≤ 1 && g.nchild != 0) || (2 ≤ g.role && g.nchild == 0) ||
  (g.writes && g.result == 0)

/-- Whether one entry of a tree record is well formed. -/
def Group.entryOk (g : Group) (i : Nat) : Bool :=
  let f := g.treeFld i
  f 16 4 < 12 && f 24 4 < 15 && 1 ≤ f 28 3 && f 31 33 == 0 && f 128 128 == 0

/-- Whether the tree record matches ROLE and NCHILD: a root's has no parent. [DEDUCED: log 46] -/
def Group.treeOk (g : Group) : Bool :=
  (if g.hasParent then g.entryOk 0 else g.treeFld 0 0 256 == 0) && (List.range g.nchild).all (fun j => g.entryOk (j + 1))

/-- Whether a range that is not empty lies in the partition's NEAR or STRATUM. -/
def Dev.inOwn (d : Dev) (p a n : Nat) : Bool := n == 0 || (inMem a n && !inPromptBook a n && d.owns p a n)

/-- The tree record of an OPEN: address and bytes. -/
def treeRange (x : DescEntry) : Nat × Nat := (x.fl 320 64, if x.fl 101 2 = 0 then 0 else 32 * (1 + x.fl 144 4))

/-- The checks of an OPEN that need no memory: BAD_REQUEST, then ACCESS (R226, R228). -/
def openPre (e : EngId) (d : Dev) (x : DescEntry) : Status :=
  let t := treeRange x
  let g := groupOf x (d.reg RDC_CFG) d.tb.cueCount []
  if e ≠ groupEngine g.gid ∨ openBad x g then .badRequest
  else if !d.inOwn x.part g.stage g.stageLen ∨ (g.writes ∧ !d.inOwn x.part g.result g.resLen) ∨ !d.inOwn x.part t.1 t.2 then .access
  else .ok

/-- OPEN: the tree record, BUSY, and the new group in COLLECT. [DESIGN CHOICE: log 43; DEDUCED: log 46] -/
def Dev.openGroup (e : EngId) (d : Dev) (x : DescEntry) : Dev :=
  let treeAt := (treeRange x).1
  let treeLen := (treeRange x).2
  let g0 : Group := { groupOf x (d.reg RDC_CFG) d.tb.cueCount [] with uid := d.rdc.nextUid }
  d.engReady [(treeAt, treeLen)] [] (fun d =>
    let y := d.read treeAt treeLen
    let g : Group := { g0 with tree := y.2.1 }
    let d := y.1
    if y.2.2 ≠ [] then d.failDesc x .poison
    else if g.role ≠ 0 ∧ !g.treeOk then d.failDesc x .badRequest
    else if 64 ≤ (d.rdc.groups.filter (fun h => groupEngine h.gid == e)).length ∨ (d.group x.part g.gid).isSome then d.failDesc x .busy
    else
      let d := d.putDesc { x with phase := .finished }
      ({ d with rdc := { d.rdc with groups := d.rdc.groups ++ [g], nextUid := d.rdc.nextUid + 1 } } : Dev).joinEarly x.part g.gid)

/-! ## The sum (R242 to R249) -/

/-- A contribution or partial as it enters the sum. -/
inductive Part where
  | exact (l : List Lane)
  | fast (l : List Nat)
  | ints (l : List Int)
deriving DecidableEq, Repr

def Part.join (oper : Nat) : Part → Part → Part
  | .exact x, .exact y => .exact (List.zipWith (laneJoin oper) x y)
  | .fast x, .fast y => .fast (List.zipWith (fastJoin oper) x y)
  | .ints x, .ints y => .ints (List.zipWith (intJoin oper) x y)
  | x, _ => x

/-- A local contribution. -/
def Group.localPart (g : Group) (bs : Bytes) : Part :=
  match g.enc with
  | 0 => .exact ((vecVals g.inFmt g.count bs).map (laneOf (g.oper == 0)))
  | 1 => .fast ((vecVals g.inFmt g.count bs).map toFp32)
  | _ => .ints (vecInts g.inFmt g.count bs)

/-- Elements of one chunk of a child's partial. -/
def chunkPart (enc n : Nat) (bs : Bytes) : Part :=
  match enc with
  | 0 => .exact ((List.range n).map (fun i => laneOfBytes (slice bs (40 * i) 40) (fld (leAt bs (40 * n + i / 2) 1) (4 * (i % 2)) 4)))
  | 1 => .fast ((List.range n).map (fun i => leAt bs (4 * i) 4))
  | _ => .ints ((List.range n).map (fun i => sextInt 64 (leAt bs (8 * i) 8)))

def Part.append : Part → Part → Part
  | .exact x, .exact y => .exact (x ++ y)
  | .fast x, .fast y => .fast (x ++ y)
  | .ints x, .ints y => .ints (x ++ y)
  | x, _ => x

def emptyPart (enc : Nat) : Part := match enc with | 0 => .exact [] | 1 => .fast [] | _ => .ints []

/-- A child's partial from its slot. -/
def Group.childPart (g : Group) (bs : Bytes) : Part :=
  (List.range g.chunksUp).foldl (fun a k => a.append (chunkPart g.enc (g.chunkLen k) (slice bs (k * 4096) 4096))) (emptyPart g.enc)

/-- The attached snoops of a group's OPEN see a stream of its engine (R285). -/
def Dev.groupStream (d : Dev) (g : Group) (side a : Nat) (bs : Bytes) : Dev :=
  match d.allDescs.find? (fun e => e.2.ctx == g.owner && e.2.slot == g.slot && e.2.gen == g.gen) with
  | some e => d.stream e.2 side a bs
  | none => d

/-- Reads every contribution in index order, the local ones first; none where a read returns POISON. -/
def Dev.readParts (d : Dev) (g : Group) : Dev × List Part × Bool :=
  let addrs := (List.range g.nlocal).map (fun i => (true, g.localSlot i, vecLen g.inFmt g.count)) ++
    (List.range g.nchild).map (fun j => (false, g.childSlot j, if g.chunksUp = 0 then 0 else
      (g.chunksUp - 1) * 4096 + chunkBytes g.enc (g.chunkLen (g.chunksUp - 1))))
  addrs.foldl (fun (z : Dev × List Part × Bool) a =>
    let y := z.1.read a.2.1 a.2.2
    (y.1.groupStream g 1 a.2.1 y.2.1, z.2.1 ++ [if a.1 then g.localPart y.2.1 else g.childPart y.2.1], z.2.2 && y.2.2 == [])) (d, [], true)

/-- The bytes of chunk k of a partial. -/
def Part.chunk (n first : Nat) : Part → Bytes
  | .exact l =>
    let c := (l.drop first).take n
    c.flatMap laneBytes ++ packElems 4 (c.map laneFlags)
  | .fast l => ((l.drop first).take n).flatMap (leBytes 4)
  | .ints l => ((l.drop first).take n).flatMap (fun x => leBytes 8 (intFld 64 x))

/-- The result vector with the flags SAT, OVF and NAN. -/
def Group.resultOf (g : Group) (p : Part) : Bytes × Bool × Bool × Bool :=
  let fp := fun (l : List Fp) => let y := outVec g.outFmt l; (y.1, false, y.2, l.any (· == .nan))
  match p with
  | .exact l => fp (l.map (laneVal g.oper))
  | .fast l => fp (l.map (fun v => laneVal 0 (laneOf true (fpDec fp32 v))))
  | .ints l => let y := outInts g.outFmt l; (y.1, y.2, false, false)

/-- A SINGLE or ROOT group whose result is written, and acknowledged where it is mirrored, is DONE; a root first sends its result. [DEDUCED: log 53] -/
def Dev.rootDone (d : Dev) (g : Group) (res : Bytes) : Dev :=
  let d := (List.range g.chunksDown).foldl (fun d k =>
    d.toChildren g 2 k (k * 4096) (slice res (k * 4096) (g.resChunk k))) d
  d.groupDone g

/-- Whether every contribution has come (R239). -/
def Group.ready (g : Group) : Bool :=
  g.contribs.length == g.nlocal && g.ends.length == g.nchild && g.chunks.length == g.nchild * g.chunksUp

/-- Whether PART chunks or the PART_END of a group still wait for a tag. -/
def Dev.unsent (d : Dev) (g : Group) : Bool := d.txn.resends.any (fun r => r.uid == g.uid && r.unsent)

/-- A group whose partial has been sent whole enters WAIT_RES (R239). -/
def Dev.partialSent (d : Dev) (g : Group) : Dev := if d.unsent g then d.setGroup g else d.setGroup { g with state := .waitRes }

/-- Sends the partial to the parent, chunk by chunk, then PART_END, and waits for the result. -/
def Dev.sendPartial (d : Dev) (g : Group) (p : Part) : Dev :=
  let d := (List.range g.chunksUp).foldl (fun d k =>
    d.noticeTo g 0 0 k (k * 4096) (p.chunk (g.chunkLen k) (k * perChunk g.enc))) d
  (d.noticeTo g 0 1 (g.leaves % 2 ^ 20) 0 []).partialSent { g with sending := true }

/-- REDUCE: the sum, and what follows from it. -/
def Dev.reduceGroup (d : Dev) (g : Group) : Dev :=
  let g : Group := { g with state := .reduce }
  d.engReady [(g.stage, g.stageLen)] (if g.writes then [(g.result, g.resLen)] else []) (fun d =>
    let y := d.readParts g
    let d := y.1.dropSync
    if !y.2.2 then d.groupFail g .poison
    else
      let p := match y.2.1 with
        | [] => emptyPart g.enc
        | a :: rest => rest.foldl (Part.join g.oper) a
      if g.root then
        let r := g.resultOf p
        let g : Group := { g with sat := r.2.1, ovf := r.2.2.1, nan := r.2.2.2 }
        if g.writes then
          let d := d.groupStream g 0 g.result r.1
          let w := d.write g.result r.1
          let f := newFrames d w.1
          if !w.2 then w.1.groupFail g .poison
          else if f = [] then (w.1.setGroup g).rootDone g r.1
          else w.1.setGroup { g with waitMack := f }
        else (d.setGroup g).rootDone g []
      else d.sendPartial g p)

/-- Groups whose mirrored result is acknowledged go on to DONE (R241), and those whose partial has been sent wait for the result. -/
def Dev.settleGroup (d : Dev) (g : Group) : Dev :=
  if g.state = .reduce ∧ g.sending then d.partialSent g
  else if g.state = .reduce ∧ g.waitMack ≠ [] ∧ !d.awaits g.waitMack then
    let y := d.read g.result g.resLen
    if y.2.2 = [] then y.1.rootDone g y.2.1 else y.1.groupFail g .poison
  else d

/-- [DESIGN CHOICE: log 14] -/
def Dev.settleGroups (d : Dev) : Dev := d.rdc.groups.foldl (fun d g => d.settleGroup g) d

/-- A group as a party of the device. -/
def groupParty (g : Group) : Nat := 8 * g.uid + 4

/-- A group whose contributions have all come and whose sum has not been formed. -/
def Group.due (g : Group) : Bool := g.state == .collect && g.ready

/-- The slots of a group engine for partition p: none where too few are left in the cue (R37, R250). [DESIGN CHOICE: log 193] -/
def Dev.groupSlot (d : Dev) (e : EngId) (p : Nat) : Option Dev :=
  takeSlots (engKey e) (fun q => (d.atWork e q).isSome || d.rdc.groups.any (fun g => g.part == q && groupEngine g.gid == e && g.due)) p
    unitSlots (d.slotsLeft (engKey e)) d

/-- The event of a group's engine: it starts once all contributions are complete. -/
def Dev.groupWork (d : Dev) (p gid : Nat) : Dev :=
  match d.group p gid with
  | none => d
  | some g =>
    if groupEngine gid ∈ d.eng.hung then d
    else if g.due then
      match d.groupSlot (groupEngine gid) p with
      | some d => d.asParty (groupParty g) (fun d => d.reduceGroup g)
      | none => d
    else d.settleGroup g

/-- An answer to a notice (R254): one answered BUSY is sent again whether or not its group is still held; any other failure is one of that
group only. -/
def Dev.noticeAnswer (d : Dev) (p gid uid until' : Nat) (t : Txn) (st : Status) : Dev :=
  if st = .ok then d
  else if st = .busy then d.sendLater p gid uid until' { t with rtx := false } false
  else match (d.group p gid).filter (fun g => g.uid == uid) with
    | some g => d.groupFail g st
    | none => d

/-- A notice put aside is sent as a new MSG once its cue has come; one answered BUSY until the DEADLINE (R254). -/
def Dev.resendNotice (d : Dev) (id : Nat) : Dev :=
  match d.txn.resends.find? (fun r => r.id == id) with
  | none => d
  | some r =>
    if d.tb.cueCount < r.due then d
    else
      let d : Dev := { d with txn := { d.txn with resends := d.txn.resends.filter (fun x => x.id ≠ id) } }
      if !r.unsent ∧ r.until' ≤ d.tb.cueCount then d
      else
        let x := d.sendMsg r.part r.txn (.notice r.part r.group r.uid r.until')
        if x.2.isSome then x.1.settleGroups
        else { x.1 with txn := { x.1.txn with resends := x.1.txn.resends ++ [{ r with due := d.tb.cueCount + 1 }] } }

/-! ## Meanings -/

/-- A descriptor whose class names no address has no rights to check. -/
def noPre (_ : Dev) (_ : DescEntry) : Status := .ok

/-- An OPEN at the front of a queue. -/
def Dev.runOpen (d : Dev) (e : EngId) (p : Nat) : Dev := Dev.engWork (openPre e) 1 1 e p (Dev.openGroup e) d

/-- A CONTRIB at the front of a queue. -/
def Dev.runContrib (d : Dev) (e : EngId) (p : Nat) : Dev :=
  Dev.engWork noPre 1 2 e p (fun d x =>
    (d.putDesc { x with phase := .finished }).contribute x.part (x.fl 64 32) (x.fl 96 16) (.ctx x.ctx x.slot x.gen)) d

/-- An ABORT at the front of a queue. -/
def Dev.runAbort (d : Dev) (e : EngId) (p : Nat) : Dev :=
  Dev.engWork noPre 1 3 e p (fun d x => (d.putDesc { x with phase := .finished }).abortBy x.part (x.fl 64 32) (.ctx x.ctx x.slot x.gen)) d

/-- OPEN (R226 to R229). -/
def execReduceOpen (e : EngId) (part : Nat) (s : State) : Host.Outcome State Fault Refusal := s.run (·.runOpen e part)

/-- CONTRIB descriptor (R235). -/
def execContrib (e : EngId) (part : Nat) (s : State) : Host.Outcome State Fault Refusal := s.run (·.runContrib e part)

/-- ABORT descriptor (R227, R234, R256). -/
def execAbort (e : EngId) (part : Nat) (s : State) : Host.Outcome State Fault Refusal := s.run (·.runAbort e part)

/-- A group whose contributions are complete is summed (R239, R250). -/
def execGroupReduce (part group : Nat) (s : State) : Host.Outcome State Fault Refusal := s.run (·.groupWork part group)

/-- DEADLINE of a group (R230, R256). -/
def execGroupDeadline (part group : Nat) (s : State) : Host.Outcome State Fault Refusal :=
  s.run (fun d => match d.group part group with
    | some g => if g.openCue + g.deadline ≤ d.tb.cueCount then d.groupFail g .timeout else d
    | none => d)

/-- An early-table entry expires (R238). -/
def execEarlyExpiry (tile idx : Nat) (s : State) : Host.Outcome State Fault Refusal := s.run (·.earlyExpire tile idx)

/-- A group held after its end returns to FREE (R260). -/
def execGroupHoldExpiry (part group : Nat) (s : State) : Host.Outcome State Fault Refusal :=
  s.run (fun d => match d.group part group with
    | some g => if !g.live ∧ g.endCue + g.hold ≤ d.tb.cueCount then d.dropGroup part group else d
    | none => d)

/-- A notice answered BUSY is sent again (R254). -/
def execNoticeResend (id : Nat) (s : State) : Host.Outcome State Fault Refusal := s.run (·.resendNotice id)

end Sys2Proof.Machine
end

