-- ==== Sys2Proof/Machine/Gather.lean ====
section
/-! DEFINITION. Gather engines (R264 to R272): row reads through the hot-row cache, GATHER and POOLED. -/

namespace Sys2Proof.Machine

/-! ## The directory (R262, R264) -/

def GSlot.reset : GSlot := { state := .free, region := { index := 0, gen := 0 }, version := 0, rows := 0, rowBytes := 0, fmt := 0, dim := 0, share := 0 }

def Dev.gslot (d : Dev) (i : Nat) : GSlot := Tab.get GSlot.reset d.gth.dir i

def Dev.setGslot (d : Dev) (i : Nat) (g : GSlot) : Dev := { d with gth := { d.gth with dir := Tab.set GSlot.reset d.gth.dir i g } }

/-- The checks of a table handle. -/
def Dev.checkHandle (d : Dev) (p h : Nat) : Status :=
  let g := d.gslot (fld h 0 12)
  if fld h 44 20 ≠ 0 then .badRequest
  else if g.state ≠ .active ∨ g.version ≠ fld h 12 32 then .revoked
  else if !g.share.getLsbD p then .access
  else .ok

/-! ## The hot-row cache (R269 to R271) -/

def Dev.cacheOn (d : Dev) : Bool := d.regFld GTH_CACHE_CFG 16 1 == 1

/-- NBLK in force for a partition; 0 while the cache is off. -/
def Dev.nblk (d : Dev) (p : Nat) : Nat := if d.cacheOn then Tab.get 0 d.gth.nblk p else 0

/-- The set of a block. -/
def cacheSet (nblk slot block : Nat) : Nat := (block ^^^ (slot * 0x9E37)) % (nblk / 8)

def cacheKey (tile p set way : Nat) : Nat := ((tile * 16 + p) * 4096 + set) * 8 + way

/-- The way that holds a block for a partition on a tile. -/
def Dev.cacheWay (d : Dev) (tile p slot ver block : Nat) : Option Nat :=
  let n := d.nblk p
  if n = 0 then none
  else (List.range 8).find? (fun w => match Tab.find? d.gth.cache (cacheKey tile p (cacheSet n slot block) w) with
    | some e => !e.dead && e.slot == slot && e.version == ver && e.block == block
    | none => false)

/-- Number of a partition's cache block on a tile: the partitions' blocks lie one after another. -/
def Dev.cacheBlock (d : Dev) (p set way : Nat) : Nat := ((List.range p).map d.nblk).sum + set * 8 + way

/-- NEAR address of cache block b of a tile: its granule of row b of the range (R269). [DESIGN CHOICE: log 55] -/
def Dev.cacheAddr (d : Dev) (tile b : Nat) : Nat :=
  let base := offOf (d.reg GTH_CACHE_BASE) + b * 49152
  nearAddr (((List.range 12).map (fun i => base + i * 4096)).find? (fun a => homeTile a == tile) |>.getD base)

/-- The way to fill, among those that are not pinned: one that is empty, else the least recently used; the lowest of equals (R270).
[DESIGN CHOICE: log 55] -/
def Dev.victim (d : Dev) (tile p set : Nat) : Option Nat :=
  let stamp := fun w => match Tab.find? d.gth.cache (cacheKey tile p set w) with
    | some e => e.stamp + 1
    | none => 0
  let free := (List.range 8).filter (fun w => !d.gth.pins.any (fun q => q.2 == cacheKey tile p set w))
  free.foldl (fun (b : Option Nat) w => match b with
    | none => some w
    | some v => if stamp w < stamp v then some w else b) none

/-- Fills a block of content into the cache, if an unpinned way exists (R271). -/
def Dev.cacheFill (d : Dev) (tile p slot ver block : Nat) (bs : Bytes) : Dev :=
  let set := cacheSet (d.nblk p) slot block
  match d.victim tile p set with
  | none => d
  | some w =>
    let d := d.store (d.cacheAddr tile (d.cacheBlock p set w)) bs
    { d with gth := { d.gth with
        cache := Tab.insert d.gth.cache (cacheKey tile p set w)
          { slot := slot, version := ver, block := block, stamp := d.tb.cueCount, dead := false } } }

/-- Invalidates the cache entries for which a test holds: at once, or as their pins are released (R271). -/
def Dev.cacheDrop (d : Dev) (f : GEntry → Bool) : Dev :=
  { d with gth := { d.gth with
      cache := (d.gth.cache.filter (fun e => !f e.2 || d.gth.pins.any (fun p => p.2 == e.1))).map (fun e =>
        if f e.2 then (e.1, { e.2 with dead := true }) else e) } }

/-- The extent and block of content block b of a slot's version; none where the version is gone or its extent is not LIVE. -/
def Dev.tableBlock (d : Dev) (slot block : Nat) : Option (Nat × Nat) :=
  let g := d.gslot slot
  match Tab.find? d.ver.versions (g.region.index * 2 ^ 32 + g.version) with
  | some v =>
    let ext := v.base + block / 512
    if (Tab.find? d.ver.extents ext).any (fun e => e.state == .live) then some (ext, block % 512) else none
  | none => none

def Fetch.same (f : Fetch) (tile p slot ver block : Nat) : Bool :=
  f.tile == tile && f.part == p && f.slot == slot && f.version == ver && f.block == block

/-- A block that a fetch brought for a descriptor, if it is at hand: no bytes for POISON. -/
def Dev.fetchedBlock (d : Dev) (id slot ver block : Nat) : Option Bytes :=
  (d.gth.fetched.find? (fun b => b.desc == id && b.slot == slot && b.version == ver && b.block == block)).map (·.bytes)

/-- Fetches that an engine may have in flight (R272). -/
def fetchMax : Nat := 64

/-- A descriptor misses a block: it waits for the fetch of its partition on the tile that is in flight, or issues one where its engine has
room (R271, R272). -/
def Dev.askBlock (d : Dev) (e : EngId) (x : DescEntry) (slot ver block : Nat) : Dev :=
  match d.tableBlock slot block with
  | none => d
  | some at' =>
    if d.gth.fetches.any (fun f => f.same e.tile x.part slot ver block) then
      { d with gth := { d.gth with fetches := d.gth.fetches.map (fun f =>
          if f.same e.tile x.part slot ver block ∧ x.id ∉ f.waits then { f with waits := f.waits ++ [x.id] } else f) } }
    else if fetchMax ≤ (d.gth.fetches.filter (fun f => f.tile == e.tile && f.inst == e.inst)).length then d
    else
      let party := 8 * d.ver.nextJob + 7
      let f : Fetch := { tile := e.tile, part := x.part, slot := slot, version := ver, block := block, fill := x.fl 305 1 == 0, inst := e.inst,
                         party := party, waits := [x.id] }
      let d : Dev := { d with ver := { d.ver with nextJob := d.ver.nextJob + 1 }, gth := { d.gth with fetches := d.gth.fetches ++ [f] } }
      ((d.bump GTH_MISS_CNT).wantPool party ((at'.1 * 512 + at'.2) * 4096) 4096 false).1

/-- Whether the row reads of a block need wait for nothing: it was fetched for the descriptor, its version serves no reads, or it is cached. -/
def Dev.haveBlock (d : Dev) (e : EngId) (x : DescEntry) (slot ver b : Nat) : Bool :=
  (d.fetchedBlock x.id slot ver b).isSome || (d.tableBlock slot b).isNone || (d.cacheWay e.tile x.part slot ver b).isSome

/-- Asks for the blocks of a descriptor that are neither cached nor fetched, and pins those that are cached. [DESIGN CHOICE: log 55] -/
def Dev.askBlocks (d : Dev) (e : EngId) (x : DescEntry) (slot ver : Nat) (blocks : List Nat) : Dev :=
  blocks.foldl (fun d b =>
    if (d.fetchedBlock x.id slot ver b).isSome then d
    else match d.cacheWay e.tile x.part slot ver b with
    | none => d.askBlock e x slot ver b
    | some w =>
      let pin := (x.id, cacheKey e.tile x.part (cacheSet (d.nblk x.part) slot b) w)
      if pin ∈ d.gth.pins then d else { d with gth := { d.gth with pins := d.gth.pins ++ [pin] } }) d

/-- A fetched block arrives, once its slots have been read and unsealed: it fills the cache where it may, and goes to the descriptors that
wait for it (R268, R271). -/
def Dev.blockDone (d : Dev) (tile p slot ver block : Nat) : Dev :=
  match d.gth.fetches.find? (fun f => f.same tile p slot ver block) with
  | none => d
  | some f =>
    match List.find? (fun e => e.1 / 2 ^ 38 == f.party) d.ver.held with
    | none => d
    | some e =>
      let d := d.dropPool f.party
      let d : Dev := { d with gth := { d.gth with
        fetches := d.gth.fetches.filter (fun g => !g.same tile p slot ver block)
        fetched := d.gth.fetched ++ f.waits.map (fun i => { desc := i, slot := slot, version := ver, block := block, bytes := e.2 }) } }
      if e.2 ≠ [] ∧ f.fill ∧ d.nblk p ≠ 0 ∧ (d.gslot slot).state = SlotState.active ∧ (d.gslot slot).version = ver then d.cacheFill tile p slot ver block e.2
      else d

/-! ## Rows (R262, R267, R268) -/

/-- Reads row r of a slot for a descriptor on a tile. -/
def Dev.readRow (d : Dev) (tile : Nat) (x : DescEntry) (slot ver : Nat) (r : Nat) : Dev × Bytes × Status :=
  let g := d.gslot slot
  let pos := r * g.rowBytes
  let block := pos / 4096
  if g.state ≠ .active ∨ g.version ≠ ver then (d, [], .revoked)
  else match d.fetchedBlock x.id slot ver block with
  | some bs => (d, slice bs (pos % 4096) g.rowBytes, if bs = [] then .poison else .ok)
  | none =>
    if (d.tableBlock slot block).isNone then (d, [], .revoked)
    else match d.cacheWay tile x.part slot ver block with
    | none => (d, [], .poison)
    | some w =>
      let set := cacheSet (d.nblk x.part) slot block
      let key := cacheKey tile x.part set w
      let y := d.memRead (d.cacheAddr tile (d.cacheBlock x.part set w) + pos % 4096) g.rowBytes
      let d := y.1.bump GTH_HIT_CNT
      let d := match Tab.find? d.gth.cache key with
        | some e => { d with gth := { d.gth with cache := Tab.insert d.gth.cache key { e with stamp := d.tb.cueCount } } }
        | none => d
      match y.2 with
      | some bs => (d, bs, .ok)
      | none => (d, [], .poison)

/-- Rows of the indices in order: none for a skipped index; the first failing status stops (R266, R267). -/
def readRows (d : Dev) (tile : Nat) (x : DescEntry) (slot ver rows : Nat) (oor : Bool) : List Nat → Dev × List (Option Bytes) × Status
  | [] => (d, [], .ok)
  | r :: rs =>
    if rows ≤ r then
      if oor then
        let y := readRows d tile x slot ver rows oor rs
        (y.1, none :: y.2.1, y.2.2)
      else (d, [], .badRequest)
    else
      let z := d.readRow tile x slot ver r
      if z.2.2 ≠ .ok then (z.1, [], z.2.2)
      else
        let y := readRows z.1 tile x slot ver rows oor rs
        (y.1, some z.2.1 :: y.2.1, y.2.2)

/-! ## POOLED (R266) -/

def fmul32 (a b : Nat) : Nat := fpEnc fp32 (fpMul (fpDec fp32 a) (fpDec fp32 b))
def fdiv32 (a b : Nat) : Nat := fpEnc fp32 (fpDiv fp32 (fpDec fp32 a) (fpDec fp32 b))

def isNan32 (a : Nat) : Bool := fpDec fp32 a == .nan

/-- max_nan: the first of two equal ones. -/
def maxNan (a b : Nat) : Nat :=
  if isNan32 a || isNan32 b then 0x7FC00000 else if fpLt (fpDec fp32 a) (fpDec fp32 b) then b else a

/-- The pooled accumulators, the sum of weights and the number of rows used, over rows with their weights. -/
def poolRows (mode : Nat) (fmt dim : Nat) (rows : List (Option Bytes × Nat)) : List Nat × Nat × Nat :=
  let init := List.replicate dim (if mode = 2 then 0xFF800000 else 0)
  rows.foldl (fun (z : List Nat × Nat × Nat) r =>
    match r.1 with
    | none => z
    | some bs =>
      let v := (vecVals fmt dim bs).map (fun x => fmul32 r.2 (toFp32 x))
      (List.zipWith (fun a b => if mode = 2 then maxNan a b else fadd32 a b) z.1 v, fadd32 z.2.1 r.2, z.2.2 + 1)) (init, 0, 0)

/-- The pooled vector of R266 in OUT_FMT. -/
def poolOut (mode outFmt : Nat) (z : List Nat × Nat × Nat) : Bytes :=
  let acc :=
    if mode = 1 then (if z.2.1 % 2 ^ 31 = 0 then z.1.map (fun _ => 0) else z.1.map (fun a => fdiv32 a z.2.1))
    else if mode = 2 ∧ z.2.2 = 0 then z.1.map (fun _ => 0) else z.1
  if outFmt = 0 then acc.flatMap (leBytes 4) else acc.flatMap (fun a => leBytes 2 (fpEnc bf16 (fpDec fp32 a)))

/-! ## Descriptors (R265 to R267) -/

/-- Parameters out of range. [DEDUCED: log 54] -/
def gatherBad (x : DescEntry) (pooled : Bool) : Bool :=
  x.fl 256 16 == 0 || x.fl 64 64 % 4 != 0 || (pooled && (3 ≤ x.fl 288 8 || 2 ≤ x.fl 296 8 || x.fl 320 64 % 4 != 0))

/-- What the table makes of the parameters. -/
def gatherMismatch (x : DescEntry) (pooled : Bool) (g : GSlot) : Bool :=
  x.fl 272 16 != g.dim || (!pooled && 2 ^ 26 < x.fl 256 16 * g.rowBytes)

/-- Bytes of OUT. -/
def gatherOutLen (x : DescEntry) (pooled : Bool) (g : GSlot) : Nat :=
  if pooled then g.dim * (if x.fl 296 8 = 0 then 4 else 2) else x.fl 256 16 * g.rowBytes

/-- The rows at hand: pools or copies them, and writes OUT and SUMMARY. -/
def Dev.gatherFinish (d : Dev) (tile : Nat) (x : DescEntry) (pooled : Bool) (idx wts : List Nat) : Dev :=
  let slot := x.fl 128 12
  let ver := x.fl 140 32
  let g := d.gslot slot
  let y := readRows d tile x slot ver g.rows (x.fl 304 1 == 1) idx
  let d := y.1
  if y.2.2 ≠ .ok then d.failDesc x y.2.2
  else
    let rows := y.2.1
    let skipped := rows.countP (·.isNone)
    let out := if pooled then poolOut (x.fl 288 8) (x.fl 296 8) (poolRows (x.fl 288 8) g.fmt g.dim (rows.zip wts))
      else rows.flatMap (fun r => r.getD (zeros g.rowBytes))
    let sum := leBytes 4 (rows.length - skipped) ++ leBytes 4 skipped
    let d := (d.bumpBy GTH_SKIP_CNT skipped)
    let d := (rows.zip idx).foldl (fun d r => match r.1 with
      | some bs =>
        match Tab.find? d.ver.versions (g.region.index * 2 ^ 32 + ver) with
        | some v => d.stream x 1 (3 * 2 ^ 60 + v.base * 2 ^ 21 + r.2 * g.rowBytes) bs
        | none => d
      | none => d) d
    d.finishDesc x ([(x.fl 192 64, out)] ++ (if x.fl 384 64 = 0 then [] else [(x.fl 384 64, sum)]))

/-- The ranges that a gather reads and writes: address, bytes, write. -/
def gatherReads (x : DescEntry) (pooled : Bool) : List (Nat × Nat) :=
  let wt := if pooled then x.fl 320 64 else 0
  [(x.fl 64 64, 4 * x.fl 256 16)] ++ (if wt = 0 then [] else [(wt, 4 * x.fl 256 16)])

def gatherWrites (x : DescEntry) (pooled : Bool) (g : GSlot) : List (Nat × Nat) :=
  [(x.fl 192 64, gatherOutLen x pooled g)] ++ (if x.fl 384 64 = 0 then [] else [(x.fl 384 64, 8)])

/-- The checks before a gather's first work unit: parameters, handle, DIM and size, rights (R80, R264, R265). -/
def gatherPre (pooled : Bool) (d : Dev) (x : DescEntry) : Status :=
  let h := x.fl 128 64
  let g := d.gslot (fld h 0 12)
  if gatherBad x pooled then .badRequest
  else if d.checkHandle x.part h ≠ .ok then d.checkHandle x.part h
  else if gatherMismatch x pooled g then .badRequest
  else d.engChecks x ((gatherReads x pooled).map (fun r => (r.1, r.2, false)) ++ (gatherWrites x pooled g).map (fun r => (r.1, r.2, true)))

/-- GATHER and POOLED: the rows' blocks are asked for, and once all are at hand the rows are read. The rows of a slot that has left ACTIVE
need no block (R268). -/
def Dev.gatherWork (e : EngId) (pooled : Bool) (d : Dev) (x : DescEntry) : Dev :=
  let slot := x.fl 128 12
  let ver := x.fl 140 32
  let g := d.gslot slot
  let n := x.fl 256 16
  let wt := if pooled then x.fl 320 64 else 0
  d.engReady (gatherReads x pooled) (gatherWrites x pooled g) (fun d =>
    let a := d.engRead x (x.fl 64 64) (4 * n)
    let b := if wt = 0 then (a.1, ([] : Bytes), Status.ok) else a.1.engRead x wt (4 * n)
    let idx := (List.range n).map (fun i => leAt a.2.1 (4 * i) 4)
    let wts := (List.range n).map (fun i => if wt = 0 then 0x3F800000 else leAt b.2.1 (4 * i) 4)
    if joinStatus a.2.2 b.2.2 ≠ .ok then b.1.failDesc x (joinStatus a.2.2 b.2.2)
    else if g.state ≠ .active ∨ g.version ≠ ver then b.1.gatherFinish e.tile x pooled idx wts
    else
      let blocks := (idx.filter (fun r => r < g.rows)).map (fun r => r * g.rowBytes / 4096)
      let d := b.1.askBlocks e x slot ver blocks
      if blocks.all (d.haveBlock e x slot ver) then d.gatherFinish e.tile x pooled idx wts else d)

/-- A GATHER or POOLED at the front of a queue. -/
def Dev.runGather (pooled : Bool) (d : Dev) (e : EngId) (p : Nat) : Dev :=
  Dev.engWork (gatherPre pooled) 2 (if pooled then 2 else 1) e p (Dev.gatherWork e pooled) d

/-! ## Meanings -/

/-- GATHER (R267). -/
def execGather (e : EngId) (part : Nat) (s : State) : Host.Outcome State Fault Refusal := s.run (·.runGather false e part)

/-- POOLED (R266). -/
def execPooled (e : EngId) (part : Nat) (s : State) : Host.Outcome State Fault Refusal := s.run (·.runGather true e part)

/-- A block that a gather missed arrives from POOL (R271). -/
def execBlockFetchDone (tile part slot version block : Nat) (s : State) : Host.Outcome State Fault Refusal :=
  s.run (·.blockDone tile part slot version block)

end Sys2Proof.Machine
end

