-- ==== Sys2Proof/Machine/Filter.lean ====
section
/-! DEFINITION. Filter engines and the top-k unit (R273 to R280, R308): predicates, SELECT and TOPK. -/

namespace Sys2Proof.Machine

/-! ## Predicates (R274 to R276) -/

/-- A term of a predicate. -/
structure Term where
  off : Nat
  width : Nat
  typ : Nat
  op : Nat
  a : Nat
  b : Nat
deriving DecidableEq, Repr

/-- A predicate block. -/
structure Pred where
  terms : List Term
  proj : List (Nat × Nat)
  lut : Nat
deriving DecidableEq, Repr

def termAt (bs : Bytes) (i : Nat) : Term :=
  let p := 128 + 24 * i
  { off := leAt bs p 2, width := leAt bs (p + 2) 1, typ := leAt bs (p + 3) 1, op := leAt bs (p + 4) 1, a := leAt bs (p + 8) 8, b := leAt bs (p + 16) 8 }

/-- Whether a term is one that R274 to R276 allow in records of n bytes. -/
def Term.ok (t : Term) (n : Nat) : Bool :=
  t.width ≤ 3 && t.typ ≤ 5 && t.op ≤ 9 && t.off + 2 ^ t.width ≤ n &&
  (t.typ != 2 || t.width == 2) && ((t.typ != 3 && t.typ != 4) || t.width == 1) &&
  ((t.op != 7 && t.op != 8) || t.typ ≤ 1 || t.typ == 5) && (t.typ != 5 || t.op ≤ 1 || 7 ≤ t.op) &&
  (if t.op = 6 then true
   else if t.op = 9 then 9 ≤ fld t.b 0 8 && fld t.b 0 8 ≤ 32 && 1 ≤ fld t.b 8 8 && fld t.b 8 8 ≤ 16 && fld t.b 16 48 == 0 && t.a % 64 == 0 &&
     spaceOf t.a == 1
   else t.b == 0)

/-- The predicate that 320 bytes spell; none where R274 rejects them. -/
def predOf (bs : Bytes) (n : Nat) : Option Pred :=
  let nt := leAt bs 0 1
  let np := leAt bs 1 1
  let terms := (List.range nt).map (termAt bs)
  let proj := (List.range np).map (fun i => (leAt bs (48 + 4 * i) 2, leAt bs (50 + 4 * i) 2))
  if 8 < nt ∨ 8 < np ∨ leNat (slice bs 2 14) ≠ 0 ∨ leNat (slice bs 80 48) ≠ 0 ∨ leNat ((slice bs 48 32).drop (4 * np)) ≠ 0 ∨
     leNat ((slice bs 128 192).drop (24 * nt)) ≠ 0 ∨ (List.range nt).any (fun i => leAt bs (128 + 24 * i + 5) 3 != 0) ∨
     !terms.all (fun t => t.ok n) ∨ !proj.all (fun p => 1 ≤ p.2 && p.2 ≤ 512 && p.1 + p.2 ≤ n) then none
  else some { terms := terms, proj := proj, lut := leAt bs 16 32 }

/-- The predicate that every record passes. -/
def passAll : Pred := { terms := [], proj := [], lut := 1 }

/-- Compares two fields of a type: equal, less; neither for NaN. -/
def cmpField (typ width a b : Nat) : Bool × Bool :=
  let fp := fun (f : FpFmt) =>
    let x := fpDec f a
    let y := fpDec f b
    if x = .nan ∨ y = .nan then (false, false) else (!fpLt x y && !fpLt y x, fpLt x y)
  match typ with
  | 1 => (a == b, decide (sextInt (8 * 2 ^ width) a < sextInt (8 * 2 ^ width) b))
  | 2 => fp fp32
  | 3 => fp bf16
  | 4 => fp fp16
  | _ => (a == b, a < b)

/-- The two hashes of a Bloom term. -/
def bloomHash (bs : Bytes) : Nat × Nat :=
  (crcOf 32 0x1EDC6F41 0xFFFFFFFF 0xFFFFFFFF true true bs, crcOf 32 0x1EDC6F41 0x5A5A5A5A 0xFFFFFFFF true true bs ||| 1)

/-- The bits that a Bloom term probes. -/
def Term.probes (t : Term) (field : Bytes) : List Nat :=
  let h := bloomHash field
  (List.range (fld t.b 8 8)).map (fun i => (h.1 + i * h.2) % 2 ^ 32 % 2 ^ fld t.b 0 8)

/-- The value of a term other than BLOOM over a field. -/
def Term.holds (t : Term) (f : Nat) : Bool :=
  let a := t.a % 2 ^ (8 * 2 ^ t.width)
  let b := t.b % 2 ^ (8 * 2 ^ t.width)
  let c := cmpField t.typ t.width f a
  let u := cmpField t.typ t.width f b
  let v := cmpField t.typ t.width a f
  match t.op with
  | 0 => c.1
  | 1 => !c.1
  | 2 => c.2
  | 3 => c.1 || c.2
  | 4 => v.2
  | 5 => v.1 || v.2
  | 6 => (v.1 || v.2) && (u.1 || u.2)
  | 7 => f &&& a == a
  | _ => f &&& a != 0

/-- Evaluates a term over a record; a Bloom probe that reads POISON is reported. -/
def Dev.evalTerm (d : Dev) (t : Term) (rec' : Bytes) : Dev × Bool × Bool :=
  let field := slice rec' t.off (2 ^ t.width)
  if t.op = 9 then
    (t.probes field).foldl (fun (z : Dev × Bool × Bool) bit =>
      let x := z.1.read (t.a + bit / 8) 1
      (x.1, z.2.1 && bitAt (leNat x.2.1) (bit % 8), z.2.2 && x.2.2 == [])) (d, true, true)
  else (d, t.holds (leNat field), true)

/-- Whether a record passes, and whether every read was good. -/
def Dev.evalPred (d : Dev) (p : Pred) (rec' : Bytes) : Dev × Bool × Bool :=
  let y := p.terms.zipIdx.foldl (fun (z : Dev × Nat × Bool) t =>
    let x := z.1.evalTerm t.1 rec'
    (x.1, z.2.1 + b2n x.2.1 * 2 ^ t.2, z.2.2 && x.2.2)) (d, 0, true)
  (y.1, bitAt p.lut y.2.1, y.2.2)

/-- The records that pass, with their index, in order; whether every read was good. -/
def Dev.passing (d : Dev) (p : Pred) : List (Nat × Bytes) → Dev × List (Nat × Bytes) × Bool
  | [] => (d, [], true)
  | r :: rs =>
    let x := d.evalPred p r.2
    let y := x.1.passing p rs
    (y.1, (if x.2.1 then [r] else []) ++ y.2.1, x.2.2 && y.2.2)

/-! ## Records -/

def records (n len : Nat) (bs : Bytes) : List (Nat × Bytes) := (List.range n).map (fun i => (i, slice bs (i * len) len))

/-- A written record (R277). -/
def project (p : Pred) (rec' : Bytes) : Bytes :=
  if p.proj = [] then rec'
  else
    let b := p.proj.flatMap (fun e => slice rec' e.1 e.2)
    slice b 0 (ceilDiv b.length 8 * 8)

/-- Bytes of a written record. -/
def projLen (p : Pred) (n : Nat) : Nat := if p.proj = [] then n else ceilDiv ((p.proj.map (·.2)).sum) 8 * 8

/-- The 16 B summary. -/
def filterSummary (passed written : Nat) (ovf nan : Bool) : Bytes :=
  leBytes 4 passed ++ leBytes 4 written ++ [BitVec.ofNat 8 (b2n ovf + 2 * b2n nan)] ++ zeros 7

/-- [DEDUCED: log 45] -/
def recBad (x : DescEntry) : Bool :=
  let n := x.fl 416 10
  n < 8 || 512 < n || n % 8 != 0 || x.fl 384 32 == 0 || x.fl 128 64 % 64 != 0

/-- What a filter descriptor reads whatever its predicate says. -/
def filterReads (x : DescEntry) : List (Nat × Nat × Bool) :=
  [(x.fl 64 64, x.fl 384 32 * x.fl 416 10, false)] ++ (if x.fl 128 64 = 0 then [] else [(x.fl 128 64, 320, false)])

/-- Reads the predicate of a descriptor and goes on with it. -/
def Dev.withPred (d : Dev) (x : DescEntry) (k : Dev → Pred → Dev) : Dev :=
  let a := x.fl 128 64
  if a = 0 then k d passAll
  else d.engReady [(a, 320)] [] (fun d =>
    let y := d.engRead x a 320
    if y.2.2 ≠ .ok then y.1.failDesc x y.2.2
    else match predOf y.2.1 (x.fl 416 10) with
      | none => y.1.failDesc x .badRequest
      | some p => k y.1 p)

/-- The Bloom arrays that a predicate reads. -/
def Pred.arrays (p : Pred) : List (Nat × Nat) := (p.terms.filter (fun t => t.op == 9)).map (fun t => (t.a, 2 ^ fld t.b 0 8 / 8))

/-- Checks the rights that depend on the predicate, reads the records of a filter descriptor, and hands on those that pass. -/
def Dev.withRecords (d : Dev) (x : DescEntry) (p : Pred) (writes : List (Nat × Nat)) (k : Dev → List (Nat × Bytes) → Dev) : Dev :=
  let src := x.fl 64 64
  let len := x.fl 384 32 * x.fl 416 10
  let reads := (src, len) :: p.arrays
  let st := d.engChecks x (reads.map (fun r => (r.1, r.2, false)) ++ writes.map (fun r => (r.1, r.2, true)))
  if st ≠ .ok then d.failDesc x st
  else d.engReady reads writes (fun d =>
    let y := d.engRead x src len
    if y.2.2 ≠ .ok then y.1.failDesc x y.2.2
    else
      let z := y.1.passing p (records (x.fl 384 32) (x.fl 416 10) y.2.1)
      if !z.2.2 then z.1.failDesc x .poison
      else k ((z.1.stream x 1 src y.2.1).bumpBy FIL_REC_CNT (x.fl 384 32)) z.2.1)

/-! ## SELECT (R277) -/

/-- What a SELECT writes beside its records: indices and summary. -/
def selectNotes (x : DescEntry) : List (Nat × Nat) :=
  (if x.fl 320 64 = 0 then [] else [(x.fl 320 64, 4 * min (x.fl 384 32) (x.fl 480 32))]) ++ (if x.fl 256 64 = 0 then [] else [(x.fl 256 64, 16)])

/-- The checks before a SELECT's first work unit; the rest of its ranges depends on the predicate. -/
def selectPre (d : Dev) (x : DescEntry) : Status :=
  if recBad x then .badRequest else d.engChecks x (filterReads x ++ (selectNotes x).map (fun w => (w.1, w.2, true)))

def Dev.selectWork (d : Dev) (x : DescEntry) : Dev :=
  d.withPred x (fun d p =>
    let idxAt := x.fl 320 64
    let sumAt := x.fl 256 64
    let writes := [(x.fl 192 64, min (x.fl 384 32) (x.fl 480 32) * projLen p (x.fl 416 10))] ++ selectNotes x
    d.withRecords x p writes (fun d l =>
      let w := l.take (x.fl 480 32)
      let ovf := w.length < l.length
      let d := if ovf then d.bump FIL_OVF_CNT else d
      d.finishDesc x ([(x.fl 192 64, w.flatMap (fun r => project p r.2))] ++
        (if idxAt = 0 then [] else [(idxAt, w.flatMap (fun r => leBytes 4 ((r.1 + x.fl 448 32) % 2 ^ 32)))]) ++
        (if sumAt = 0 then [] else [(sumAt, filterSummary l.length w.length ovf false)]))))

/-! ## Top-k states (R278, R308, R513) -/

/-- Top-k states dedicated to confidential partitions, each. -/
def Dev.topkOf (d : Dev) (p : Nat) : Nat := if d.isConf p then Tab.get 0 d.sec.topk p else 0

def Dev.topkD (d : Dev) : Nat := ((List.range 16).map d.topkOf).sum

/-- The states dedicated to a partition: from 7 downward in increasing partition order. -/
def Dev.dedicated (d : Dev) (p : Nat) : List Nat :=
  let above := ((List.range p).map d.topkOf).sum
  (List.range (d.topkOf p)).map (fun i => 8 - above - d.topkOf p + i)

/-- Number of states reserved for attention jobs. -/
def Dev.topkRsv (d : Dev) : Nat := min (min 8 (d.regFld ATT_CFG 0 4)) (8 - d.topkD)

/-- The states that a job or descriptor of a partition may take. [DEDUCED: log 56] -/
def Dev.topkMay (d : Dev) (p : Nat) (attention : Bool) : List Nat :=
  if d.isConf p then d.dedicated p
  else
    let lo := if attention then 0 else d.topkRsv
    (List.range (8 - d.topkD)).filter (fun i => lo ≤ i)

/-- The lowest-numbered free state that may be taken on a tile. [DEDUCED: log 56] -/
def Dev.freeTopk (d : Dev) (tile p : Nat) (attention : Bool) : Option Nat :=
  (d.topkMay p attention).find? (fun i => Tab.get 0 d.eng.topk (tile * 8 + i) == 0)

def Dev.holdTopk (d : Dev) (tile i p : Nat) : Dev := { d with eng := { d.eng with topk := Tab.set 0 d.eng.topk (tile * 8 + i) (p + 1) } }

def Dev.releaseTopk (d : Dev) (tile i : Nat) : Dev := { d with eng := { d.eng with topk := Tab.erase d.eng.topk (tile * 8 + i) } }

/-- A TOPK descriptor takes its state with its first work unit, if one is free. [DEDUCED: log 56] -/
def Dev.takeTopk (d : Dev) (tile : Nat) (x : DescEntry) : Dev × DescEntry :=
  match x.topk, d.freeTopk tile x.part false with
  | none, some i => let y := { x with topk := some i }; ((d.holdTopk tile i x.part).putDesc y, y)
  | _, _ => (d, x)

/-! ## TOPK (R279) -/

/-- Raw bits of a key, and its 32-bit ordered value; none for NaN. -/
def topkKey (typ width order raw : Nat) : Option Nat :=
  let inv := fun (o : Nat) => if order = 1 then 2 ^ 32 - 1 - o else o
  let fp := fun (f : FpFmt) =>
    let v := fpDec f raw
    if v = .nan then none
    else
      let b := fpEnc fp32 v
      let b := if b % 2 ^ 31 = 0 then 0 else b
      some (inv (if bitAt b 31 then 2 ^ 32 - 1 - b else b + 2 ^ 31))
  match typ with
  | 0 => some (inv raw)
  | 1 => some (inv ((intFld 32 (sextInt (8 * 2 ^ width) raw) + 2 ^ 31) % 2 ^ 32))
  | 2 => fp fp32
  | 3 => fp bf16
  | _ => fp fp16

/-- A kept entry: ordered value, record index, raw bits. -/
abbrev TopEntry := Nat × Nat × Nat

def better (a b : TopEntry) : Bool := b.1 < a.1 || (a.1 == b.1 && a.2.1 < b.2.1)

/-- Inserts an entry, best first. -/
def topInsert (x : TopEntry) : List TopEntry → List TopEntry
  | [] => [x]
  | y :: t => if better x y then x :: y :: t else y :: topInsert x t

/-- The best k of entries, best first. -/
def topBest (k : Nat) (l : List TopEntry) : List TopEntry := l.foldl (fun s x => (topInsert x s).take k) []

def topkBad (x : DescEntry) : Bool :=
  let w := x.fl 332 2
  let t := x.fl 329 3
  x.fl 335 14 == 0 || 8192 < x.fl 335 14 || 4 < t || w == 3 || x.fl 416 10 < x.fl 320 9 + 2 ^ w || (t == 2 && w != 2) || ((t == 3 || t == 4) && w != 1)

/-- What a TOPK writes. -/
def topkWrites (x : DescEntry) : List (Nat × Nat) :=
  [(x.fl 192 64, 8 * min (x.fl 335 14) (x.fl 384 32))] ++ (if x.fl 256 64 = 0 then [] else [(x.fl 256 64, 16)])

/-- The checks before a TOPK's first work unit. A partition that may hold no state is BUSY (R513). -/
def topkPre (d : Dev) (x : DescEntry) : Status :=
  if recBad x ∨ topkBad x then .badRequest
  else if d.isConf x.part ∧ d.topkOf x.part = 0 then .busy
  else d.engChecks x (filterReads x ++ (topkWrites x).map (fun w => (w.1, w.2, true)))

/-- TOPK: it takes its state with its first work unit, waits where none is free, and keeps it until it completes (R278). [DEDUCED: log 56] -/
def Dev.topkWork (e : EngId) (d : Dev) (x : DescEntry) : Dev :=
  let t := d.takeTopk e.tile x
  let x := t.2
  if x.topk.isNone then t.1
  else t.1.withPred x (fun d p =>
    let w := x.fl 332 2
    let sumAt := x.fl 256 64
    d.withRecords x p (topkWrites x) (fun d l =>
      let keyed := l.map (fun r =>
        let raw := leAt r.2 (x.fl 320 9) (2 ^ w)
        (topkKey (x.fl 329 3) w (x.fl 334 1) raw, r.1, raw))
      let nans := keyed.countP (fun e => e.1.isNone)
      let best := topBest (x.fl 335 14) (keyed.filterMap (fun e => e.1.map (fun o => (o, e.2))))
      (d.bumpBy FIL_NAN_CNT nans).finishDesc x
        ([(x.fl 192 64, best.flatMap (fun b => leBytes 4 ((b.2.1 + x.fl 448 32) % 2 ^ 32) ++ leBytes 4 b.2.2))] ++
        (if sumAt = 0 then [] else [(sumAt, filterSummary l.length best.length false (nans != 0))]))))

/-- A SELECT at the front of a queue. -/
def Dev.runSelect (d : Dev) (e : EngId) (p : Nat) : Dev := Dev.engWork selectPre 3 1 e p Dev.selectWork d

/-- A TOPK at the front of a queue. -/
def Dev.runTopk (d : Dev) (e : EngId) (p : Nat) : Dev := Dev.engWork topkPre 3 2 e p (Dev.topkWork e) d

/-! ## Meanings -/

/-- SELECT (R277). -/
def execSelect (e : EngId) (part : Nat) (s : State) : Host.Outcome State Fault Refusal := s.run (·.runSelect e part)

/-- TOPK (R278, R279). -/
def execTopk (e : EngId) (part : Nat) (s : State) : Host.Outcome State Fault Refusal := s.run (·.runTopk e part)

end Sys2Proof.Machine
end

