-- ==== Sys2Proof/Machine/Check.lean ====
section
/-! DEFINITION. Check-value units (R281 to R288), and the codec descriptors PACK and UNPACK (R458). -/

namespace Sys2Proof.Machine

/-! ## Check-value units -/

/-- The CRC of R282 with a descriptor's parameters. -/
def DescEntry.crc (x : DescEntry) (bs : Bytes) : Nat :=
  crcOf (x.fl 475 7) (x.fl 64 64) (x.fl 128 64) (x.fl 192 64) (x.fl 482 1 == 1) (x.fl 483 1 == 1) bs

/-- Parameters out of range. [DEDUCED: log 45] -/
def crcBad (x : DescEntry) : Bool :=
  let w := x.fl 475 7
  w < 8 || 64 < w || 2 ^ w ≤ x.fl 64 64 || 2 ^ w ≤ x.fl 128 64 || 2 ^ w ≤ x.fl 192 64

/-- LEN out of range. [DEDUCED: log 45] -/
def lenBad (x : DescEntry) : Bool := x.fl 448 27 == 0 || 2 ^ 26 < x.fl 448 27

/-- What a mismatch does (R287). -/
def Dev.mismatch (d : Dev) (e : EngId) (x : DescEntry) (v : Nat) (partial' : Bool) : Dev :=
  let d := d.bump CV_MISMATCH_CNT
  let d := if x.fl 485 1 = 1 then d.setEvent x.ctx 1 else d
  if x.fl 486 1 = 1 then
    let part := if 14 ≤ e.inst then 0 else x.part
    let d := d.event (CV_EVT + 8 * e.tile) e.inst (d.regFld CV_CFG 0 1 == 1)
    let d := (d.putReg CV_LAST (e.tile + e.inst * 2 ^ 4 + part * 2 ^ 8 + x.fl 475 7 * 2 ^ 12 + b2n partial' * 2 ^ 19)).putReg CV_LAST_VAL v
    if d.regFld CV_CFG 1 1 = 1 then d.report 0x42 0 (engOrigin e part) v e.inst 0 else d
  else d

/-- The record of a value, the compare, and what follows (R287). -/
def Dev.finishCheck (d : Dev) (e : EngId) (x : DescEntry) (v n : Nat) (partial' : Bool) : Dev :=
  let cmp := x.fl 484 1 == 1
  let match' := v == x.fl 256 64 && !partial'
  let flags := b2n cmp + 2 * b2n (cmp && match') + 4 * b2n partial'
  let stops := d.writeStops [(x.fl 320 64, 16)]
  let d := d.finishDesc x [(x.fl 320 64, leBytes 8 v ++ [BitVec.ofNat 8 flags, 0, 0, 0] ++ leBytes 4 n)]
  if cmp ∧ !match' ∧ stops = [] then d.mismatch e x v partial' else d

/-- The checks common to the operations: parameters, the unit, RESULT. -/
def Dev.checkUnit (d : Dev) (e : EngId) (x : DescEntry) : Status :=
  if crcBad x then .badRequest else if 14 ≤ e.inst then .access else d.engCheck x (x.fl 320 64) 16 true

/-- The checks before a COMPUTE. -/
def computePre (e : EngId) (d : Dev) (x : DescEntry) : Status :=
  if lenBad x then .badRequest else joinStatus (d.checkUnit e x) (d.engCheck x (x.fl 384 64) (x.fl 448 27) false)

def Dev.computeWork (e : EngId) (d : Dev) (x : DescEntry) : Dev :=
  d.engReady [(x.fl 384 64, x.fl 448 27)] [(x.fl 320 64, 16)] (fun d =>
    let y := d.engRead x (x.fl 384 64) (x.fl 448 27)
    if y.2.2 ≠ .ok then y.1.failDesc x y.2.2
    else (y.1.stream x 1 (x.fl 384 64) y.2.1).finishCheck e x (x.crc y.2.1) (x.fl 448 27) false)

/-- The checks before a SNOOP_ENGINE. -/
def snoopEnginePre (e : EngId) (d : Dev) (x : DescEntry) : Status :=
  if lenBad x || x.fl 384 64 % 64 != 0 || engInstances (x.fl 487 4) ≤ x.fl 491 4 then .badRequest else d.checkUnit e x

/-- SNOOP_ENGINE: once the descriptor it is attached to has ended (R285, R288). -/
def Dev.snoopEngineWork (e : EngId) (d : Dev) (x : DescEntry) : Dev :=
  match x.targetDone with
  | none => d
  | some .ok => d.engReady [] [(x.fl 320 64, 16)] (fun d =>
      let n := x.folded.length
      d.finishCheck e x (x.crc (x.folded.map (·.2))) n (n != x.fl 448 27))
  | some st => d.failDesc x st

/-- The checks before a SNOOP_PORT (R286). -/
def snoopPortPre (e : EngId) (d : Dev) (x : DescEntry) : Status :=
  let k := x.fl 384 6
  if 36 ≤ k ∨ attachTile k ≠ e.tile ∨ x.fl 399 16 = 0 then .badRequest
  else if d.streamPart k (x.fl 391 8) ≠ some x.part then .access
  else d.checkUnit e x

/-- SNOOP_PORT: the wait for its transactions (R286). [DEDUCED: log 44] -/
def Dev.snoopPortWork (e : EngId) (d : Dev) (x : DescEntry) : Dev :=
  if x.nTrans < x.fl 399 16 then d
  else d.engReady [] [(x.fl 320 64, 16)] (fun d => d.finishCheck e x (x.crc ((locRead x.folded 0 x.nFolded))) x.nFolded false)

/-! ## PACK and UNPACK (R458) -/

/-- One packed block. [DEDUCED: log 79] -/
def packBlock (block : Bytes) : Bytes :=
  let s := encodeBlock block
  let raw := 4096 ≤ s.length
  let body := if raw then block else s
  let b := leBytes 8 (body.length + b2n raw * 2 ^ 13) ++ body
  slice b 0 (ceilDiv b.length 16 * 16)

/-- Reverses PACK; none for an invalid input. The number bounds the blocks. [DEDUCED: log 57] -/
def unpackBlocks : Nat → Bytes → Option Bytes
  | 0, bs => if bs = [] then some [] else none
  | k + 1, bs =>
    if bs = [] then some []
    else
      let h := leAt bs 0 8
      let n := fld h 0 13
      let raw := bitAt h 13
      let total := ceilDiv (8 + n) 16 * 16
      if bs.length < total ∨ 2 ^ 14 ≤ h ∨ n < 184 ∨ 4096 < n ∨ (raw ∧ n ≠ 4096) ∨ leNat (slice bs (8 + n) (total - 8 - n)) ≠ 0 then none
      else
        match (if raw then some (slice bs 8 n) else decodeBlock (slice bs 8 n) n), unpackBlocks k (bs.drop total) with
        | some b, some rest => some (b ++ rest)
        | _, _ => none

/-- Ends a codec descriptor whose output does not fit or whose input is invalid: BAD_REQUEST, and DST is left undefined. -/
def Dev.codecBad (d : Dev) (x : DescEntry) : Dev :=
  let f := d.nextFree
  let w := f.1.engWrite x (x.fl 128 64) ((List.range (x.fl 320 27)).map (Config.freeByte f.2))
  w.1.endDesc x .badRequest (newFrames d w.1)

/-- What a codec descriptor writes. -/
def codecWrites (x : DescEntry) : List (Nat × Nat) := [(x.fl 128 64, x.fl 320 27)] ++ (if x.fl 192 64 = 0 then [] else [(x.fl 192 64, 8)])

/-- The checks before a PACK (unpack = false) or UNPACK. -/
def codecPre (unpack : Bool) (d : Dev) (x : DescEntry) : Status :=
  let len := x.fl 256 27
  if 2 ^ 26 < len || (!unpack && len % 4096 != 0) then .badRequest
  else d.engChecks x ([(x.fl 64 64, len, false)] ++ (codecWrites x).map (fun r => (r.1, r.2, true)))

/-- PACK (unpack = false) and UNPACK. [DEDUCED: log 57] -/
def Dev.codecWork (unpack : Bool) (d : Dev) (x : DescEntry) : Dev :=
  let src := x.fl 64 64
  let len := x.fl 256 27
  let sumAt := x.fl 192 64
  d.engReady [(src, len)] (codecWrites x) (fun d =>
    let y := d.engRead x src len
    if y.2.2 ≠ .ok then y.1.failDesc x y.2.2
    else
      let d := y.1.stream x 1 src y.2.1
      let out := if unpack then unpackBlocks (len / 16 + 1) y.2.1
        else some ((List.range (len / 4096)).flatMap (fun i => packBlock (slice y.2.1 (i * 4096) 4096)))
      match out with
      | some bs =>
        if bs.length ≤ x.fl 320 27 then d.finishDesc x ([(x.fl 128 64, bs)] ++ (if sumAt = 0 then [] else [(sumAt, leBytes 8 bs.length)]))
        else d.codecBad x
      | none => d.codecBad x)

/-! ## Front descriptors and meanings -/

/-- A COMPUTE at the front of a queue. -/
def Dev.runCompute (d : Dev) (e : EngId) (p : Nat) : Dev := Dev.engWork (computePre e) 5 1 e p (Dev.computeWork e) d

/-- A SNOOP_ENGINE at the front of a queue. -/
def Dev.runSnoopEngine (d : Dev) (e : EngId) (p : Nat) : Dev := Dev.engWork (snoopEnginePre e) 5 2 e p (Dev.snoopEngineWork e) d

/-- A SNOOP_PORT at the front of a queue. -/
def Dev.runSnoopPort (d : Dev) (e : EngId) (p : Nat) : Dev := Dev.engWork (snoopPortPre e) 5 3 e p (Dev.snoopPortWork e) d

/-- A PACK (unpack = false) or UNPACK at the front of a queue. -/
def Dev.runCodec (unpack : Bool) (d : Dev) (e : EngId) (p : Nat) : Dev :=
  Dev.engWork (codecPre unpack) 4 (if unpack then 2 else 1) e p (Dev.codecWork unpack) d

/-- COMPUTE (R282, R283). -/
def execCompute (e : EngId) (part : Nat) (s : State) : Host.Outcome State Fault Refusal := s.run (·.runCompute e part)

/-- SNOOP_ENGINE (R284, R285). -/
def execSnoopEngine (e : EngId) (part : Nat) (s : State) : Host.Outcome State Fault Refusal := s.run (·.runSnoopEngine e part)

/-- SNOOP_PORT (R286). -/
def execSnoopPort (e : EngId) (part : Nat) (s : State) : Host.Outcome State Fault Refusal := s.run (·.runSnoopPort e part)

/-- PACK (R458). -/
def execPack (e : EngId) (part : Nat) (s : State) : Host.Outcome State Fault Refusal := s.run (·.runCodec false e part)

/-- UNPACK (R458). -/
def execUnpack (e : EngId) (part : Nat) (s : State) : Host.Outcome State Fault Refusal := s.run (·.runCodec true e part)

end Sys2Proof.Machine
end

