-- ==== Sys2Proof/Machine/SesTable.lean ====
section
/-! DEFINITION. The session table (R30, R380, R381): the layout of a record, and the records as they stand in STRATUM. -/

namespace Sys2Proof.Machine

/-! ## Numbers made of fields -/

/-- A number whose fields, lowest first, have these widths and values. -/
def packFields : List (Nat × Nat) → Nat
  | [] => 0
  | f :: l => f.2 % 2 ^ f.1 + 2 ^ f.1 * packFields l

/-- The fields of a number, lowest first. -/
def unpackFields : List Nat → Nat → List Nat
  | [], _ => []
  | w :: ws, n => n % 2 ^ w :: unpackFields ws (n / 2 ^ w)

/-! ## Records (R381) -/

def stateCode : SesState → Nat
  | .free => 0 | .active => 1 | .parking => 2 | .parked => 3 | .reviving => 4 | .movingOut => 5 | .movingIn => 6 | .orphaned => 7 | .failed => 8

def sesStateOf (n : Nat) : SesState :=
  match n with
  | 1 => .active | 2 => .parking | 3 => .parked | 4 => .reviving | 5 => .movingOut | 6 => .movingIn | 7 => .orphaned | 8 => .failed | _ => .free

/-- A record of all zeros. -/
def SesRec.reset : SesRec :=
  { state := .free, part := 0, owner := 0, kvmir := false, tier := 0, policy := 0, op := 0, phase := 0, epoch := 0, layers := 1,
    groups := 1, dim := 32, fmt := 0, len := 0, maxRows := 0, proj := 0, map := 0, region := { index := 0, gen := 0 }, peerDev := 0,
    peerPart := 0, peerSes := 0, logVer := 0, logPos := 0, tail0 := 0, beds := [], prior := 0, unconf := false, stamp := 0 }

def Bed.reset : Bed := { region := { index := 0, gen := 0 }, version := 0, first := 0, rows := 0 }

/-- Widths of the fields before the beds; the second and the last but one are reserved bits. -/
def sesWidths : List Nat := [4, 4, 12, 1, 1, 2, 4, 4, 32, 8, 8, 3, 4, 23, 16, 2, 64, 64, 40, 12, 4, 24, 32, 23, 15, 3, 1, 1, 37]

def bedWidths : List Nat := [40, 32, 15, 15, 26]

/-- The values of the fields before the beds. -/
def SesRec.fields (r : SesRec) : List Nat :=
  [stateCode r.state, r.part, r.owner, b2n r.kvmir, r.tier, r.policy, r.op, r.phase, r.epoch, r.layers - 1, r.groups - 1, r.dim / 32 - 1, r.fmt,
   r.len, r.maxRows, 0, r.proj.toNat, r.map, regionWord r.region, r.peerDev, r.peerPart, r.peerSes, r.logVer, r.logPos, r.tail0, r.beds.length,
   r.prior, b2n r.unconf, 0]

def Bed.fields (b : Bed) : List Nat := [regionWord b.region, b.version, b.first, b.rows, 0]

/-- The four bed fields of a record; those past NBED are 0. -/
def SesRec.bedFields (r : SesRec) : List (Nat × Nat) := (List.range 4).flatMap (fun b => bedWidths.zip (r.beds.getD b Bed.reset).fields)

/-- A record as a number of 1,024 bits. -/
def sesNat (r : SesRec) : Nat := packFields (sesWidths.zip r.fields ++ r.bedFields ++ [(64, r.stamp)])

/-- The 128 B of a record. -/
def sesBytes (r : SesRec) : Bytes := leBytes 128 (sesNat r)

/-- The record that a number spells. -/
def sesOfNat (n : Nat) : SesRec :=
  let l := unpackFields (sesWidths ++ bedWidths ++ bedWidths ++ bedWidths ++ bedWidths ++ [64]) n
  let f := fun (i : Nat) => l.getD i 0
  { state := sesStateOf (f 0), part := f 1, owner := f 2, kvmir := f 3 == 1, tier := f 4, policy := f 5, op := f 6, phase := f 7, epoch := f 8,
    layers := f 9 + 1, groups := f 10 + 1, dim := 32 * (f 11 + 1), fmt := f 12, len := f 13, maxRows := f 14, proj := BitVec.ofNat 64 (f 16),
    map := f 17, region := regionOf (f 18), peerDev := f 19, peerPart := f 20, peerSes := f 21, logVer := f 22, logPos := f 23, tail0 := f 24,
    beds := (List.range (min 4 (f 25))).map (fun b =>
      { region := regionOf (f (29 + 5 * b)), version := f (30 + 5 * b), first := f (31 + 5 * b), rows := f (32 + 5 * b) }),
    prior := f 26, unconf := f 27 == 1, stamp := f 49 }

/-- The record that 128 B spell. -/
def sesOfBytes (bs : Bytes) : SesRec := sesOfNat (leAt bs 0 128)

/-! ## The table (R30, R380) -/

/-- Address of record i. -/
def Dev.recAt (d : Dev) (id : Nat) : Nat := d.reg SES_TBL_BASE + 128 * id

/-- Bytes of NEAR or STRATUM as the device's own engines find them: a granule whose data is lost reads as zeros (R14). -/
def Dev.bytesFound (d : Dev) (a n : Nat) : Bytes :=
  (List.range n).map (fun i => if d.granBad ((a + i) / 64) then 0 else d.mem.byte (a + i))

/-- A session's record, as it stands in STRATUM: the slice keeps no copy of it (R30, R103). [DEDUCED: log 97] -/
def Dev.sesRec (d : Dev) (id : Nat) : SesRec :=
  if inMem (d.recAt id) 128 then sesOfBytes (d.bytesFound (d.recAt id) 128) else SesRec.reset

def Dev.sesCount (d : Dev) : Nat := d.reg SES_TBL_CNT

/-- Writes a table entry to its place in memory, if the table lies in NEAR or STRATUM. -/
def Dev.storeTable (d : Dev) (a : Nat) (bs : Bytes) : Dev := if inMem a bs.length then d.store a bs else d

/-- The slice writes a record; the IDs whose records it wrote in a state other than FREE are listed. -/
def Dev.keepSes (d : Dev) (id : Nat) (r : SesRec) : Dev :=
  let d := { d with ses := { d.ses with used := if r.state = SesState.free then setDel d.ses.used id else setIns d.ses.used id } }
  d.storeTable (d.recAt id) (sesBytes r)

/-- The sessions that are not FREE, with their records. [DESIGN CHOICE: log 197] -/
def Dev.sessions (d : Dev) : List (Nat × SesRec) := (d.ses.used.map (fun id => (id, d.sesRec id))).filter (fun e => e.2.state != .free)

end Sys2Proof.Machine
end

