-- ==== Sys2Proof/Machine/Attention.lean ====
section
/-! DEFINITION. Attention jobs (R290 to R320, R322 to R332, R343 to R346, R433, R434): checks, the DENSE computation, the phases of a
SKETCH job, MERGE and the DENSE shadow. -/

namespace Sys2Proof.Machine

/-! ## The exponential unit (R296) -/

/-- exp(-z) for z = m × 2^-256, in units of 2^-256: a series at z / 1,024, then ten squarings. -/
def expFix (m : Nat) : Nat :=
  let one : Nat := 2 ^ 256
  let y : Nat := m / 1024
  let s : Int × Int := (List.range 40).foldl (fun (t : Int × Int) (i : Nat) =>
    let term : Int := -(t.2 * (y : Int) / ((one : Int) * ((i : Int) + 1)))
    (t.1 + term, term)) ((one : Int), (one : Int))
  (List.range 10).foldl (fun (e : Nat) (_ : Nat) => e * e / one) s.1.toNat

/-- The greatest binary32 pattern not above m × 2^-256, for values of at least 2^-126. -/
def floor32 (m : Nat) : Nat :=
  let n := bitLen m
  (n + 127 - 257) * 2 ^ 23 + (m * 2 ^ 24 / 2 ^ n - 2 ^ 23)

/-- exp of a binary32 x ≤ 0. [DESIGN CHOICE: log 58] -/
def exp32 (x : Nat) : Nat :=
  let r := (Config.expRound (BitVec.ofNat 32 x)).toNat
  match fpDec fp32 x with
  | .nan => 0x7FC00000
  | .inf _ => 0
  | .fin _ m e =>
    if m = 0 then [0x3F7FFFFE, 0x3F7FFFFF, 0x3F800000, 0x3F800001].getD r 0x3F800000
    else
      let z := m * 2 ^ (e + 256).toNat
      if 2 ^ 263 ≤ z then 0
      else
        let v := expFix z
        if v < 2 ^ 130 then 0 else floor32 v + r % 2

/-! ## Geometry (R290 to R293) -/

/-- The geometry that a session record holds. -/
structure Geom where
  layers : Nat
  groups : Nat
  d : Nat
  fmt : Nat
  map : Nat
  proj : Nat
deriving DecidableEq, Repr

def SesRec.geom (r : SesRec) : Geom :=
  { layers := r.layers, groups := r.groups, d := r.dim, fmt := r.fmt, map := r.map, proj := r.proj.toNat }

/-- Row stride of R291. -/
def Geom.stride (g : Geom) : Nat := ceilDiv (vecLen g.fmt g.d) 16 * 16

def Geom.page (g : Geom) : Nat := 256 * (2 * g.stride + 32)

/-- Address of the KV map entry of a (layer, group). -/
def Geom.entryAt (g : Geom) (layer group : Nat) : Nat := g.map + 16 * (layer * g.groups + group)

def kvFmtOk (f : Nat) : Bool := f == 1 || f == 3 || f == 4 || f == 5 || f == 6 || f == 9

/-! ## Job parameters (R297, R576) -/

def DescEntry.ses (x : DescEntry) : Nat := x.fl 64 24
def DescEntry.layer (x : DescEntry) : Nat := x.fl 88 8
def DescEntry.kvGroup (x : DescEntry) : Nat := x.fl 96 8
def DescEntry.nh (x : DescEntry) : Nat := x.fl 104 7
def DescEntry.nt (x : DescEntry) : Nat := x.fl 111 5
def DescEntry.nr (x : DescEntry) : Nat := x.nh * x.nt
def DescEntry.t0 (x : DescEntry) : Nat := x.fl 116 22
def DescEntry.lo (x : DescEntry) : Nat := x.fl 138 22
def DescEntry.hi (x : DescEntry) : Nat := x.fl 160 23
def DescEntry.mask (x : DescEntry) : Nat := x.fl 183 2
def DescEntry.win (x : DescEntry) : Nat := x.fl 185 23
def DescEntry.outFmt (x : DescEntry) : Nat := x.fl 208 2
def DescEntry.scale (x : DescEntry) : Nat := x.fl 256 32
def DescEntry.qAt (x : DescEntry) : Nat := x.fl 320 64
def DescEntry.biasAt (x : DescEntry) : Nat := x.fl 384 64
def DescEntry.outAt (x : DescEntry) : Nat := x.fl 448 64
def DescEntry.sumAt (x : DescEntry) : Nat := leAt x.ext 0 8
def DescEntry.codeBuf (x : DescEntry) : Nat := leAt x.ext 8 8
def DescEntry.selOut (x : DescEntry) : Nat := leAt x.ext 16 8
def DescEntry.k (x : DescEntry) : Nat := leAt x.ext 24 2
def DescEntry.kMax (x : DescEntry) : Nat := leAt x.ext 26 2
def DescEntry.margin (x : DescEntry) : Nat := leAt x.ext 28 1
def DescEntry.narr (x : DescEntry) : Nat := leAt x.ext 29 1
def DescEntry.recent (x : DescEntry) : Nat := leAt x.ext 32 2
def DescEntry.pin (x : DescEntry) : Nat := leAt x.ext 34 2
def DescEntry.shadow (x : DescEntry) : Bool := leAt x.ext 30 1 == 1

/-- Check 1 of R298; CODEBUF lies in NEAR or STRATUM (R297). -/
def jobBad (x : DescEntry) : Bool :=
  x.nh == 0 || 64 < x.nh || x.nt == 0 || 16 < x.nt || 64 < x.nr || x.hi ≤ x.lo || 2 ^ 22 < x.hi || x.mask == 3 || x.outFmt == 3 ||
  (if x.mask = 1 then x.win == 0 || 2 ^ 22 < x.win else if x.mask = 2 then 2 ^ 22 < x.win else x.win != 0) ||
  x.biasAt % 64 != 0 || x.outAt % 64 != 0 ||
  (if x.op = 1 then leNat (slice x.ext 8 56) != 0
   else (spaceOf x.codeBuf != 1 && spaceOf x.codeBuf != 2) || x.k == 0 || x.kMax < x.k || 8192 < x.kMax || 64 ≤ x.margin || x.narr == 0 || 64 < x.narr || 1 < leAt x.ext 30 1 || leAt x.ext 31 1 != 0 ||
     leNat (slice x.ext 36 28) != 0)

/-- Checks 2 to 7 of R298. -/
def Dev.jobCheck (d : Dev) (x : DescEntry) : Status :=
  let r := d.sesRec x.ses
  if d.sesCount ≤ x.ses ∨ r.state = .free then .badRequest
  else if r.part ≠ x.part then .access
  else if r.state = .orphaned ∨ r.owner ≠ d.devId then .notOwner
  else if r.state = .failed then .poison
  else if r.state ≠ .active then .busy
  else if r.layers ≤ x.layer ∨ r.groups ≤ x.kvGroup ∨ r.len < x.t0 + x.nt ∨ !kvFmtOk r.fmt then .badRequest
  else .ok

/-! ## Visibility and bias (R299 to R301) -/

/-- Whether query token t sees position p. -/
def DescEntry.sees (x : DescEntry) (t p : Nat) : Bool :=
  let tp := x.t0 + t
  match x.mask with
  | 0 => p ≤ tp
  | 1 => tp < p + x.win && p ≤ tp
  | _ => p ≤ tp || (p < x.win && tp < x.win)

/-- The key positions of a job, rising. -/
def DescEntry.keys (x : DescEntry) (len : Nat) : List Nat :=
  ((List.range (min x.hi len - x.lo)).map (· + x.lo)).filter (fun p => (List.range x.nt).any (fun t => x.sees t p))

/-- The bucket of a distance. -/
def biasBucket (a : Nat) : Nat :=
  if a < 32 then a else let e := a.log2; min 63 (32 + 2 * (e - 5) + fld a (e - 1) 1)

/-- The forced positions among the key positions (R305). -/
def DescEntry.forced (x : DescEntry) (p : Nat) : Bool :=
  let tpmax := x.t0 + x.nt - 1
  (tpmax + 1 - x.recent ≤ p && p ≤ tpmax) || p < x.pin

/-! ## Rows and dot products (R294, R295) -/

/-- Whether operands are BF16; they are MXFP8 E4M3 otherwise. -/
def Geom.bf16Ops (g : Geom) : Bool := g.fmt == 1

/-- Data as an operand: BF16 values as they are, else scaled and rounded by blocks of 32 (R246). -/
def operand (bf : Bool) (l : List Fp) : List Fp :=
  if bf then l
  else (chunksOf 32 (l.length + 1) l).flatMap (fun b =>
    let y := mxBlock 5 0 b
    y.2.1.map (fun v => elemVal 5 v y.1))

/-- The exact sum of data. -/
def fpSum : List Fp → Fp
  | [] => .fin false 0 0
  | x :: xs => xs.foldl fpAdd x

/-- A dot product: exact within blocks of 32, rounded to binary32, block sums added in order. -/
def dot32 (a b : List Fp) : Nat :=
  match (chunksOf 32 (a.length + 1) (List.zipWith fpMul a b)).map (fun blk => fpEnc fp32 (fpSum blk)) with
  | [] => 0
  | s :: rest => rest.foldl fadd32 s

/-- Difference of two binary32 patterns. -/
def fsub32 (a b : Nat) : Nat := fpEnc fp32 (fpAdd (fpDec fp32 a) (fpNeg (fpDec fp32 b)))

def negInf : Nat := 0xFF800000
def nan32 : Nat := 0x7FC00000
def fmax32 (a b : Nat) : Nat := if fpLt (fpDec fp32 a) (fpDec fp32 b) then b else a

/-! ## The DENSE computation (R302, R303) -/

/-- A position as the computation sees it: its number, K row and V row. -/
structure KvRow where
  pos : Nat
  k : List Fp
  v : List Fp
deriving Repr

/-- Running values of a query row. -/
structure RowAcc where
  m : Nat
  l : Nat
  o : List Nat
  nan : Bool
deriving DecidableEq, Repr

def RowAcc.start (dim : Nat) : RowAcc := { m := negInf, l := 0, o := List.replicate dim 0, nan := false }

/-- What a row does with one chunk: scores come with their V rows; none for a position it does not see. -/
def RowAcc.chunk (bf : Bool) (c : List (Option Nat × List Fp)) (r : RowAcc) : RowAcc :=
  let s := c.map (fun e => e.1.getD negInf)
  if s.any isNan32 then { r with nan := true }
  else
    let mc := s.foldl fmax32 negInf
    if mc = negInf then r
    else
      let mn := fmax32 r.m mc
      if mn = 0x7F800000 then { r with nan := true }
      else
        let a := exp32 (fsub32 r.m mn)
        let e := s.map (fun x => exp32 (fsub32 x mn))
        let p := operand bf ((e.zip c).map (fun z => if z.2.1.isNone then .fin false 0 0 else if bf then fpRound bf16 (fpDec fp32 z.1) else fpDec fp32 z.1))
        let l := fadd32 (fmul32 r.l a) (fpEnc fp32 (fpSum (e.map (fpDec fp32))))
        let o := r.o.zipIdx.map (fun z =>
          fadd32 (fmul32 z.1 a) (fpEnc fp32 (fpSum (List.zipWith (fun w row => fpMul w (row.2.getD z.2 (.fin false 0 0))) p c))))
        { m := mn, l := l, o := o, nan := r.nan }

/-- A row's end: NaN where R303 says so. -/
def RowAcc.finish (r : RowAcc) : RowAcc := if r.nan then { m := nan32, l := nan32, o := r.o.map (fun _ => nan32), nan := true } else r

/-- The score of row (head h, token t) at a position, if it sees it. -/
def jobScore (x : DescEntry) (bias : Bytes) (q : List Fp) (h t : Nat) (row : KvRow) : Option Nat :=
  if x.sees t row.pos then
    let tp := x.t0 + t
    let b := biasBucket (if tp < row.pos then row.pos - tp else tp - row.pos)
    let bv := if x.biasAt = 0 then 0 else leAt bias (128 * h + 2 * b) 2 * 65536
    some (fadd32 (fmul32 x.scale (dot32 q row.k)) bv)
  else none

/-- R302 over rows of K and V in increasing position order. -/
def denseRows (x : DescEntry) (g : Geom) (bias : Bytes) (qs : List (List Fp)) (kv : List KvRow) : List RowAcc :=
  let chunks := chunksOf 64 (kv.length + 1) kv
  qs.zipIdx.map (fun q =>
    let h := q.2 % x.nh
    let t := q.2 / x.nh
    (chunks.foldl (fun r c => r.chunk g.bf16Ops (c.map (fun row => (jobScore x bias q.1 h t row, row.v)))) (RowAcc.start g.d)).finish)

/-- OUT of rows by OUT_FMT (R314). -/
def attOut (fmt : Nat) (rows : List RowAcc) : Bytes :=
  let norm := fun (f : FpFmt) (n : Nat) => rows.flatMap (fun r => r.o.flatMap (fun o =>
    leBytes n (if r.nan then fpNan f else if r.l = 0 then 0 else fpEnc f (fpDiv f (fpDec fp32 o) (fpDec fp32 r.l)))))
  match fmt with
  | 0 => rows.flatMap (fun r => r.o.flatMap (leBytes 4)) ++ rows.flatMap (fun r => leBytes 4 r.m ++ leBytes 4 r.l)
  | 1 => norm fp32 4
  | _ => norm bf16 2

def attOutLen (fmt nr dim : Nat) : Nat := match fmt with | 0 => nr * dim * 4 + nr * 8 | 1 => nr * dim * 4 | _ => nr * dim * 2

/-! ## Reading the cache (R293, R298 check 8) -/

/-- A session's page table for one (layer, group): address and entries. -/
def Dev.pageTable (d : Dev) (g : Geom) (layer group : Nat) : Dev × Nat × Nat × Bool :=
  let y := d.read (g.entryAt layer group) 16
  (y.1, leAt y.2.1 0 8, fld (leAt y.2.1 8 8) 0 15, y.2.2 == [])

/-- The page addresses of rows of pages; none for one that is absent. POISON is told apart. -/
def readPages (d : Dev) (pt npt : Nat) : List Nat → Dev × List (Nat × Nat) × Status
  | [] => (d, [], .ok)
  | n :: ns =>
    if npt ≤ n then (d, [], .badRequest)
    else
      let y := d.read (pt + 8 * n) 8
      let a := leNat y.2.1
      if y.2.2 ≠ [] then (y.1, [], .poison)
      else if a = 0 then (y.1, [], .badRequest)
      else
        let z := readPages y.1 pt npt ns
        (z.1, (n, a) :: z.2.1, z.2.2)

/-- Pages that positions lie in, rising. -/
def pagesOf (l : List Nat) : List Nat := l.foldl (fun s p => if s.getLast? = some (p / 256) then s else s ++ [p / 256]) []

def pageAddr (t : List (Nat × Nat)) (n : Nat) : Nat := (((t.find? (fun e => e.1 == n)).map (·.2)).getD 0)

/-- Addresses of the K row, V row and sketch of a position. -/
def kAt (g : Geom) (t : List (Nat × Nat)) (p : Nat) : Nat := pageAddr t (p / 256) + p % 256 * g.stride
def vAt (g : Geom) (t : List (Nat × Nat)) (p : Nat) : Nat := pageAddr t (p / 256) + 256 * g.stride + p % 256 * g.stride
def sketchAt (g : Geom) (t : List (Nat × Nat)) (p : Nat) : Nat := pageAddr t (p / 256) + 512 * g.stride + p % 256 * 32

/-- Reads K and V rows of positions; false for POISON. -/
def readKv (d : Dev) (g : Geom) (t : List (Nat × Nat)) : List Nat → Dev × List KvRow × Bool
  | [] => (d, [], true)
  | p :: ps =>
    let n := vecLen g.fmt g.d
    let a := d.read (kAt g t p) n
    let b := a.1.read (vAt g t p) n
    let z := readKv b.1 g t ps
    (z.1, { pos := p, k := vecVals g.fmt g.d a.2.1, v := vecVals g.fmt g.d b.2.1 } :: z.2.1, a.2.2 == [] && b.2.2 == [] && z.2.2)

/-- The pages of a job's key positions: their addresses, or the failing status (check 8 of R298, R80). -/
def Dev.jobPages (d : Dev) (x : DescEntry) (g : Geom) (keys : List Nat) (k : Dev → List (Nat × Nat) → Dev) : Dev :=
  d.engReady [(g.entryAt x.layer x.kvGroup, 16)] [] (fun d =>
    let e := d.pageTable g x.layer x.kvGroup
    if !e.2.2.2 then e.1.failDesc x .poison
    else
      let ns := pagesOf keys
      e.1.engReady (ns.map (fun n => (e.2.1 + 8 * n, 8))) [] (fun d =>
        let z := readPages d e.2.1 e.2.2.1 ns
        if z.2.2 ≠ .ok then z.1.failDesc x z.2.2
        else
          let st := z.2.1.foldl (fun st pg => joinStatus st (z.1.checkAccess x.part pg.2 g.page false)) Status.ok
          if st ≠ .ok then z.1.failDesc x .access else k z.1 z.2.1))

/-- The ranges of K and V rows of positions. -/
def kvRanges (g : Geom) (t : List (Nat × Nat)) (l : List Nat) : List (Nat × Nat) :=
  l.flatMap (fun p => [(kAt g t p, vecLen g.fmt g.d), (vAt g t p, vecLen g.fmt g.d)])

/-! ## Outputs (R313, R314) -/

/-- FLAGS of the summary. -/
def DescEntry.flags (x : DescEntry) (nan : Bool) : Nat :=
  b2n x.att.fallback + 2 * b2n nan + 4 * b2n x.att.trunc + 8 * b2n x.att.shadowed

def DescEntry.summary (x : DescEntry) (exact : Nat) (nan : Bool) : Bytes :=
  leBytes 4 x.att.scored ++ leBytes 4 exact ++ leBytes 4 x.att.sel.length ++
    [BitVec.ofNat 8 x.att.ck, BitVec.ofNat 8 x.att.tau, BitVec.ofNat 8 x.att.cut, BitVec.ofNat 8 (x.flags nan), BitVec.ofNat 8 x.att.nArr] ++ zeros 15

/-- The rights of a job's ranges, in any order (R80, R101). -/
def Dev.jobRights (d : Dev) (x : DescEntry) (dim : Nat) : Status :=
  let opt := fun (a n : Nat) (w : Bool) => if a = 0 then [] else [(a, n, w)]
  d.engChecks x ([(x.qAt, x.nr * dim * 2, false), (x.outAt, attOutLen x.outFmt x.nr dim, true)] ++ opt x.biasAt (128 * x.nh) false ++
    opt x.sumAt 32 true ++ (if x.op = 2 then [(x.codeBuf, x.hi - x.lo, true)] ++ opt x.selOut (4 * x.kMax) true else []))

/-- Query rows as operands. -/
def queryRows (x : DescEntry) (g : Geom) (bs : Bytes) : List (List Fp) :=
  (List.range x.nr).map (fun r => operand g.bf16Ops ((List.range g.d).map (fun i => fpDec bf16 (leAt bs (r * 2 * g.d + 2 * i) 2))))

/-- Whether a job counts in the sampling of the shadow (R343). -/
def Dev.shadowEligible (d : Dev) (x : DescEntry) (nKeys : Nat) : Bool :=
  let cfg := d.reg (MICA_SHADOW_CFG + 8 * x.part)
  x.op == 2 && x.shadow && fld cfg 0 1 == 1 && !x.att.fallback && fld cfg 5 23 != 0 && decide (nKeys ≤ fld cfg 5 23)

/-- Whether the sampling selects an eligible job whose work ends: its count is the one that its ticket's completion gives it, behind the
eligible jobs that have ended before it (R311, R343). [DESIGN CHOICE: log 62] -/
def Dev.shadowPicks (d : Dev) (tile : Nat) (x : DescEntry) : Bool :=
  let before := d.allDescs.countP (fun e => e.1 / 16 / 128 == tile && e.2.part == x.part && e.2.fl 0 4 == 0 && e.2.att.eligible && e.2.status.isSome)
  (Tab.get 0 d.mica.shCnt (tile * 16 + x.part) + before + 1) % 2 ^ fld (d.reg (MICA_SHADOW_CFG + 8 * x.part)) 1 4 == 0

/-- An eligible job's ticket completes: the count advances (R343). -/
def Dev.countEligible (d : Dev) (tile : Nat) (x : DescEntry) : Dev :=
  if x.att.eligible then
    { d with mica := { d.mica with shCnt := Tab.set 0 d.mica.shCnt (tile * 16 + x.part) (Tab.get 0 d.mica.shCnt (tile * 16 + x.part) + 1) } }
  else d

/-- A job or MERGE ends well: it is counted, and its NaN rows are reported (R303, R321). -/
def Dev.countJob (d : Dev) (nans exact : Nat) : Dev :=
  let d := ((d.bump ATT_JOB_CNT).bumpBy ATT_NAN_CNT nans).bumpBy ATT_EXACT_CNT exact
  if nans = 0 then d else d.event ATT_EVT 2 (d.regFld ATT_CFG 5 1 == 1)

/-- The DENSE computation of a job over positions, its outputs and its end. -/
def Dev.denseOver (d : Dev) (tile : Nat) (x : DescEntry) (g : Geom) (t : List (Nat × Nat)) (keys positions : List Nat) : Dev :=
  let reads := [(x.qAt, x.nr * g.d * 2)] ++ (if x.biasAt = 0 then [] else [(x.biasAt, 128 * x.nh)]) ++ kvRanges g t positions
  let writes := [(x.outAt, attOutLen x.outFmt x.nr g.d)] ++ (if x.sumAt = 0 then [] else [(x.sumAt, 32)])
  d.engReady reads writes (fun d =>
    let q := d.engRead x x.qAt (x.nr * g.d * 2)
    let b := if x.biasAt = 0 then (q.1, ([] : Bytes), Status.ok) else q.1.engRead x x.biasAt (128 * x.nh)
    let kv := readKv b.1 g t positions
    let st := joinStatus (joinStatus q.2.2 b.2.2) (if kv.2.2 then .ok else .poison)
    if st ≠ .ok then kv.1.failDesc x st
    else
      let d := kv.1.stream x 1 x.qAt q.2.1
      let rows := denseRows x g b.2.1 (queryRows x g q.2.1) kv.2.1
      let nans := rows.countP (·.nan)
      let el := d.shadowEligible x keys.length
      let x := { x with att := { x.att with eligible := el, shadowed := el && d.shadowPicks tile x } }
      let outs := [(x.outAt, attOut x.outFmt rows)] ++ (if x.sumAt = 0 then [] else [(x.sumAt, x.summary positions.length (nans != 0))])
      if d.writeStops (outs.map (fun o => (o.1, o.2.length))) ≠ [] then d.finishDesc x outs
      else
        let d := (d.putDesc x).countJob nans positions.length
        let d := if x.att.shadowed then { d with eng := { d.eng with shadows := d.eng.shadows ++ [x] } } else d
        d.finishDesc x outs)

/-- Checks 1 to 7 of R298. -/
def Dev.jobChecks (d : Dev) (x : DescEntry) : Status := if jobBad x then .badRequest else d.jobCheck x

/-- The rights of a job that the checks of R298 let run: a job outside them starts no work unit (R80). [DEDUCED: log 198] -/
def jobPre (d : Dev) (x : DescEntry) : Status := if d.jobChecks x = .ok then d.jobRights x (d.sesRec x.ses).dim else .ok

/-- A job's first work unit: the checks of R298 up to 7, then the snapshot of LEN and the read pin (R318). -/
def Dev.startJob (d : Dev) (x : DescEntry) : Dev × DescEntry × Status :=
  if x.att.pinned then (d, x, .ok)
  else
    let r := d.sesRec x.ses
    let st := d.jobChecks x
    let y := if st = .ok then { x with att := { x.att with len := r.len, pinned := true } } else x
    (d.putDesc y, y, st)

/-- Whether a job or shadow holds a read pin on a session (R318). -/
def Dev.sesPinned (d : Dev) (id : Nat) : Bool :=
  (d.allDescs.any (fun e => e.2.fl 0 4 == 0 && e.2.att.pinned && e.2.ses == id)) || d.eng.shadows.any (fun x => x.ses == id)

/-- Whether an engine still has to run a shadow before the partition's next descriptor (R311). [DESIGN CHOICE: log 62] -/
def Dev.shadowDue (d : Dev) (e : EngId) (p : Nat) : Bool := d.eng.shadows.any (fun x => x.part == p && descEng x.ctx x.word == e)

/-- An attention event on the front job of a queue: none while a shadow is due (R311). -/
def attWork (pre : Dev → DescEntry → Status) (op : Nat) (e : EngId) (p : Nat) (body : Dev → DescEntry → Dev) (d : Dev) : Dev :=
  if d.shadowDue e p then d else Dev.engWork pre 0 op e p body d

def Dev.denseWork (tile : Nat) (d : Dev) (x : DescEntry) : Dev :=
  let s := d.startJob x
  if s.2.2 ≠ .ok then s.1.failDesc x s.2.2
  else
    let x := s.2.1
    let g := (s.1.sesRec x.ses).geom
    let keys := x.keys x.att.len
    s.1.jobPages x g keys (fun d t => d.denseOver tile x g t keys keys)

/-! ## Mica arrays of a job (R306, R322 to R332) -/

def arrKey (tile a : Nat) : Nat := tile * 64 + a

/-- [DESIGN CHOICE: log 160] -/
def CalInfo.reset : CalInfo :=
  { state := .uncal, runs := 0, passes := 0, running := false, sched := none, reason := 0, sigma := 0, passCue := 0, tCal := 0, everPassed := false, swap := false,
    early := false }

def Dev.calInfo (d : Dev) (cls unit : Nat) : CalInfo := Tab.get CalInfo.reset d.mica.cal (cls * 2048 + unit)

/-- In service: IN_SERVICE, CALIBRATING and RETRY (R334). [DEDUCED: log 60] -/
def CalInfo.inService (c : CalInfo) : Bool := c.state == .inService || c.state == .calibrating || c.state == .retry

/-- Whether partition p may hold array a of a tile (R330). -/
def Dev.mayHold (d : Dev) (p a : Nat) : Bool :=
  match calEntry d.share a with
  | some q => q == p || (!d.isConf p && !d.isConf q)
  | none => !d.isConf p

/-- Arrays of a tile that a partition may hold and that are not retired. [DEDUCED: log 60] -/
def Dev.arraysFor (d : Dev) (tile p : Nat) : List Nat :=
  (List.range 64).filter (fun a => d.mayHold p a && (d.calInfo 0 (arrKey tile a)).state != .retired)

/-- Those of them that are in service and free. -/
def Dev.freeArrays (d : Dev) (tile p : Nat) : List Nat :=
  (d.arraysFor tile p).filter (fun a => (d.calInfo 0 (arrKey tile a)).inService && Tab.get 0 d.mica.held (arrKey tile a) == 0)

def Dev.holdArrays (d : Dev) (tile p : Nat) (l : List Nat) : Dev :=
  { d with mica := { d.mica with held := l.foldl (fun t a => Tab.set 0 t (arrKey tile a) (p + 1)) d.mica.held } }

def Dev.releaseArrays (d : Dev) (tile : Nat) (l : List Nat) : Dev :=
  { d with mica := { d.mica with held := l.foldl (fun t a => Tab.erase t (arrKey tile a)) d.mica.held } }

/-- The projection P of a (layer, group): KSCALE and the rows, from the bytes of its table entry (R325). -/
def projRow (dim : Nat) (bs : Bytes) (i : Nat) : List Fp := (List.range dim).map (fun j => fpDec bf16 (leAt bs (64 + 2 * (i * dim + j)) 2))

def projAt (g : Geom) (layer group : Nat) : Nat := g.proj + (layer * g.groups + group) * (64 + 128 * g.d)
def projLen' (g : Geom) : Nat := 64 + 128 * g.d

/-- A datum rounded to an integer, ties to even; 0 for what is not finite. -/
def fpToInt (x : Fp) : Int := match x with | .fin n m e => signed n (shiftRne m e) | _ => 0

/-- The weights of a query row (R327). -/
def querySketch (dim : Nat) (proj : Bytes) (q : List Fp) : List Int :=
  let u := (List.range 64).map (fun i => fpDec fp32 (dot32 (projRow dim proj i) q))
  let abs := fun (x : Fp) => match x with | .fin _ m e => Fp.fin false m e | .inf _ => .inf false | .nan => .nan
  let a := (u.map abs).foldl (fun b x => if x = .nan ∨ b = .nan then .nan else if fpLt b x then x else b) (.fin false 0 0)
  match a with
  | .fin _ m _ => if m = 0 then u.map (fun _ => 0) else u.map (fun x => fpToInt (fpDec fp32 (fdiv32 (fmul32 0x40E00000 (fpEnc fp32 x)) (fpEnc fp32 a))))
  | _ => u.map (fun _ => 0)

/-- The shift S of R324. -/
def sketchShift (headroom : Nat) (w : List (List Int)) : Nat :=
  let l := (w.map (fun c => (c.map Int.natAbs).sum)).foldl max 0
  if l = 0 then 0 else (clampInt 0 7 ((if 2 ^ l.log2 = l then (l.log2 : Int) else l.log2 + 1) - 6 + headroom)).toNat

/-- The elements of a key sketch: 4-bit two's complement (R326). -/
def sketchElems (bs : Bytes) : List Int := (List.range 64).map (fun i => sextInt 4 (fld (leAt bs (i / 2) 1) (4 * (i % 2)) 4))

/-- The ideal code of a column (R323). -/
def idealCode (w k : List Int) (s : Nat) : Nat :=
  let y := (List.zipWith (· * ·) w k).sum
  let r := (2 * y + 2 ^ s) / (2 * 2 ^ s : Nat)
  (clampInt 0 63 (r + 32)).toNat

/-- The code of a conversion: a row of zero weights gives 32, others what the array makes of the ideal code. [DESIGN CHOICE: log 59] -/
def convert (occasion array column : Nat) (w k : List Int) (s : Nat) : Nat :=
  if w.all (· == 0) then 32 else (Config.micaCode occasion array column (idealCode w k s)).toNat

/-- Whether the score errors of conversions of a column keep the bound of R342: their RMS is at most 0.6 LSB, over the conversions whose
ideal value lies in [0, 63]. [DESIGN CHOICE: log 59] -/
def rmsOk (w : List Int) (s : Nat) (l : List (List Int × Nat)) : Bool :=
  let errs := l.filterMap (fun e =>
    let y := (List.zipWith (· * ·) w e.1).sum
    let one : Int := 2 ^ s
    if 0 ≤ y + 32 * one ∧ y + 32 * one ≤ 63 * one then some ((e.2 : Int) * one - (y + 32 * one)) else none)
  decide ((errs.map (fun x => x * x)).sum * 100 ≤ 36 * (errs.length : Int) * 4 ^ s)

/-- The codes of one column for a block of candidates, in their order. [DESIGN CHOICE: log 59] -/
def columnCodes (bounded : Bool) (occasion array column : Nat) (w : List Int) (s : Nat) (cands : List (Nat × List Int)) : List Nat :=
  let codes := cands.map (fun c => convert (occasion * 2 ^ 23 + c.1) array column w c.2 s)
  if bounded && !rmsOk w s ((cands.map (·.2)).zip codes) then cands.map (fun c => idealCode w c.2 s) else codes

/-- Whether R342 bounds the error of an array: in service, within 4.0 °C of T_cal, and at no more than 105 °C. -/
def Dev.arrayBounded (d : Dev) (tile a : Nat) : Bool :=
  let c := d.calInfo 0 (arrKey tile a)
  let t := d.pwr.temps.getD tile 0
  c.inService && decide ((t - c.tCal).natAbs ≤ 64 ∧ t ≤ 1680)

/-- The load of the query sketches into the arrays taken (R306, R327). -/
def Dev.loadArrays (d : Dev) (tile : Nat) (x : DescEntry) (g : Geom) (arrays : List Nat) : Dev :=
  d.engReady [(x.qAt, x.nr * g.d * 2), (projAt g x.layer x.kvGroup, projLen' g)] [] (fun d =>
    let q := d.engRead x x.qAt (x.nr * g.d * 2)
    let p := q.1.read (projAt g x.layer x.kvGroup) (projLen' g)
    let st := joinStatus q.2.2 (if p.2.2 = [] then .ok else .poison)
    if st ≠ .ok then p.1.failDesc x st
    else
      let rows := (List.range x.nr).map (fun r => (List.range g.d).map (fun i => fpDec bf16 (leAt q.2.1 (r * 2 * g.d + 2 * i) 2)))
      let w := rows.map (querySketch g.d p.2.1)
      let att := { x.att with arrays := arrays, nArr := arrays.length, w := w, shift := sketchShift (p.1.regFld MICA_CFG 0 3) w }
      (p.1.holdArrays tile x.part arrays).putDesc { x with phase := .loaded, att := att })

/-! ### The pair journal (R433, R434) -/

def Dev.jnlCount (d : Dev) : Nat := d.reg PAIR_JNL_CNT

/-- Entries of this device's half. -/
def Dev.jnlHalf (d : Dev) : List Nat :=
  let n := d.jnlCount
  if d.regFld PAIR_CFG 0 1 = 0 then List.range (n / 2) else (List.range (n - n / 2)).map (· + n / 2)

/-- The 64 B of a journal entry. [DESIGN CHOICE: log 81] -/
def journalBytes (j : Journal) : Bytes :=
  leBytes 8 (1 + j.part * 2 + j.session * 2 ^ 5 + j.layer * 2 ^ 29 + j.group * 2 ^ 37) ++ leBytes 8 (j.t0 + j.nt * 2 ^ 22) ++ leBytes 8 j.selout.toNat ++
    leBytes 4 j.selected ++ [BitVec.ofNat 8 j.ck, BitVec.ofNat 8 j.tau, BitVec.ofNat 8 j.cut, BitVec.ofNat 8 j.flags] ++ leBytes 8 j.tbase ++ zeros 24

/-- Writes or clears a journal entry, and sends it to the partner. -/
def Dev.putJournal (d : Dev) (i : Nat) (j : Option Journal) : Dev :=
  let bs := match j with | some j => journalBytes j | none => zeros 64
  let d := { d with pair := { d.pair with journal := match j with | some j => Tab.insert d.pair.journal i j | none => Tab.erase d.pair.journal i } }
  let d := d.storeTable (d.reg PAIR_JNL_BASE + 64 * i) bs
  if d.mirrors ∧ !d.bulkRecord 4 i then d.pairSend (i % 12) 2 (4 + i * 8) bs else d

def DescEntry.journalOf (x : DescEntry) (tbase : Nat) : Journal :=
  { part := x.part, session := x.ses, layer := x.layer, group := x.kvGroup, t0 := x.t0, nt := x.nt, selout := BitVec.ofNat 64 x.selOut,
    selected := x.att.sel.length, ck := x.att.ck, tau := x.att.tau, cut := x.att.cut, flags := x.flags false, tbase := tbase }

/-- The journal entry that a job matches. -/
def Dev.matchJournal (d : Dev) (x : DescEntry) : Option (Nat × Journal) :=
  List.find? (fun (e : Nat × Journal) => e.2.part == x.part && e.2.session == x.ses && e.2.layer == x.layer && e.2.group == x.kvGroup &&
    e.2.t0 == x.t0 && e.2.nt == x.nt) d.pair.journal

/-- The commit point of SELECT on a paired device: the entry is written and its MACK awaited. [DEDUCED: log 61] -/
def Dev.journalJob (d : Dev) (x : DescEntry) : Dev × DescEntry :=
  if d.waitsMack ∧ x.selOut ≠ 0 then
    match d.jnlHalf.find? (fun i => (Tab.find? d.pair.journal i).isNone) with
    | none => (d.bump PAIR_JNL_FULL_CNT, x)
    | some i =>
      let s := d.stampNow
      let d' := s.1.putJournal i (some (x.journalOf s.2))
      (d', { x with att := { x.att with journal := some i }, waitMack := newFrames s.1 d' })
  else (d, x)

/-- Resumes a journalled job in SOLO, or refuses it; its entry is cleared (R434). [DEDUCED: log 61] -/
def Dev.resumeJob (d : Dev) (x : DescEntry) (i : Nat) (j : Journal) : Dev :=
  if d.isMirrored x.selOut then
    d.engReady [(x.selOut, 4 * j.selected)] [] (fun d =>
      let y := d.engRead x x.selOut (4 * j.selected)
      let d := (y.1.putJournal i none).bump PAIR_RESUME_CNT
      if y.2.2 ≠ .ok then d.failDesc x y.2.2
      else
        let sel := (List.range j.selected).map (fun i => leAt y.2.1 (4 * i) 4)
        d.putDesc { x with phase := .selected, att := { x.att with
          sel := sel, ck := j.ck, tau := j.tau, cut := j.cut, trunc := bitAt j.flags 2, resumed := true } })
  else ((d.putJournal i none).bump PAIR_RETRY_CNT).failDesc x .retryFromStart

/-- The job runs as DENSE: FALLBACK is set and counted once (R306). -/
def Dev.fallBack (d : Dev) (x : DescEntry) : Dev × DescEntry :=
  if x.att.fallback then (d, x)
  else
    let y := { x with att := { x.att with fallback := true } }
    (((d.putDesc y).bump ATT_FALLBACK_CNT).event ATT_EVT 0 (d.regFld ATT_CFG 5 1 == 1), y)

/-- SKETCH: checks, journal, arrays; then the load of the query sketches (R306, R327, R434). -/
def Dev.sketchWork (tile : Nat) (d : Dev) (x : DescEntry) : Dev :=
  if x.phase ≠ .fresh then d
  else
    let s := d.startJob x
    if s.2.2 ≠ .ok then s.1.failDesc x s.2.2
    else
      let x := s.2.1
      let d := s.1
      let g := (d.sesRec x.ses).geom
      let keys := x.keys x.att.len
      d.jobPages x g keys (fun d t =>
        match (if d.pair.state = .solo then d.matchJournal x else none) with
        | some e => d.resumeJob x e.1 e.2
        | none =>
          let all := if d.isConf x.part ∧ d.topkOf x.part = 0 then [] else d.arraysFor tile x.part
          let a := min x.narr all.length
          if x.att.fallback ∨ (a = 0 ∧ d.regFld ATT_CFG 4 1 = 1) then
            let y := d.fallBack x
            y.1.denseOver tile y.2 g t keys keys
          else if a = 0 then d.failDesc x .busy
          else if (d.freeArrays tile x.part).length < a then d
          else d.loadArrays tile x g ((d.freeArrays tile x.part).take a))

/-- Scores blocks of candidates, with their numbers, over the held arrays: block b on the (b mod A)-th of them (R331). The code of a position
is the largest of its row codes. -/
def scoreBlocks (d : Dev) (occasion tile : Nat) (w : List (List Int)) (s : Nat) (arrays : List Nat) (blocks : List (List (Nat × List Int) × Nat)) :
    List (Nat × Nat) :=
  blocks.flatMap (fun b =>
    let a := arrays.getD (b.2 % arrays.length) 0
    let rows := w.zipIdx.map (fun r => columnCodes (d.arrayBounded tile a) occasion (arrKey tile a) r.2 r.1 s b.1)
    b.1.zipIdx.map (fun c => (c.1.1, (rows.map (fun l => l.getD c.2 0)).foldl max 0)))

/-- Reads the sketches of positions; false for POISON. -/
def readSketches (d : Dev) (g : Geom) (t : List (Nat × Nat)) : List Nat → Dev × List (Nat × List Int) × Bool
  | [] => (d, [], true)
  | p :: ps =>
    let a := d.read (sketchAt g t p) 32
    let z := readSketches a.1 g t ps
    (z.1, (p, sketchElems a.2.1) :: z.2.1, a.2.2 == [] && z.2.2)

/-- Counts the conversions of blocks, with their numbers, on their arrays in the window. [DESIGN CHOICE: log 151] -/
def Dev.countConv (d : Dev) (tile nr : Nat) (arrays : List Nat) (blocks : List (List Nat × Nat)) : Dev :=
  { d with mica := { d.mica with conv := blocks.foldl (fun t b =>
      let k := arrKey tile (arrays.getD (b.2 % arrays.length) 0)
      Tab.set 0 t k (Tab.get 0 t k + b.1.length * nr)) d.mica.conv } }

/-- Writes codes to CODEBUF; false for POISON. -/
def Dev.putCodes (d : Dev) (x : DescEntry) : List (Nat × Nat) → Dev × Bool
  | [] => (d, true)
  | c :: cs =>
    let a := x.codeBuf + (c.1 - x.lo)
    let bs := [BitVec.ofNat 8 c.2]
    let w := (d.stream x 0 a bs).engWrite x a bs
    let y := Dev.putCodes w.1 x cs
    (y.1, w.2 && y.2)

/-- SCORE: each held array scores one more block of candidates; the codes go to CODEBUF and the histogram (R306, R331). Arrays lost to a
withdrawal are replaced, as they become free, once none is left (R332). [DESIGN CHOICE: log 42] -/
def Dev.scoreWork (tile : Nat) (d : Dev) (x : DescEntry) : Dev :=
  if x.phase ≠ .loaded then d
  else
    let g := (d.sesRec x.ses).geom
    let keys := x.keys x.att.len
    let cands := keys.filter (fun p => !x.forced p)
    let arrays := if x.att.arrays = [] then (d.freeArrays tile x.part).take x.att.nArr else x.att.arrays
    if arrays = [] then d
    else
      let d := d.holdArrays tile x.part arrays
      let x := { x with att := { x.att with arrays := arrays } }
      let all := (chunksOf 64 (cands.length + 1) cands).zipIdx
      let mine := (all.drop x.att.blk).take arrays.length
      (d.putDesc x).jobPages x g keys (fun d t =>
        d.engReady ((mine.flatMap (·.1)).map (fun p => (sketchAt g t p, 32))) [(x.codeBuf, x.hi - x.lo)] (fun d =>
          let s := readSketches d g t (mine.flatMap (·.1))
          if !s.2.2 then s.1.failDesc x .poison
          else
            let f := s.1.nextFree
            let blocks := mine.map (fun b => (s.2.1.filter (fun e => e.1 ∈ b.1), b.2))
            let codes := scoreBlocks f.1 f.2 tile x.att.w x.att.shift arrays blocks
            let z := f.1.putCodes x codes
            if !z.2 then z.1.failDesc x .poison
            else
              let n := codes.length
              let d := ((z.1.bumpBy ATT_SCORED_CNT n).bumpBy MICA_SKETCH_CNT n).countConv tile x.nr arrays mine
              let blk := x.att.blk + mine.length
              d.putDesc { x with phase := if all.length ≤ blk then .scored else .loaded, att := { x.att with
                blk := blk, scored := x.att.scored + n
                hist := (List.range 64).map (fun c => x.att.hist.getD c 0 + codes.countP (fun e => e.2 == c))
                arrMask := mine.foldl (fun m b => setBit m (arrays.getD (b.2 % arrays.length) 0)) x.att.arrMask } }))

/-- The highest codes whose counts reach a limit: the code and the count above it. The number bounds the codes. -/
def codeAt (hist : List Nat) (stop : Nat → Bool) : Nat → Nat → Nat → Nat × Nat
  | 0, c, acc => (c, acc)
  | n + 1, c, acc => if stop (acc + hist.getD c 0) then codeAt hist stop n (c - 1) (acc + hist.getD c 0) else (c, acc)

/-- The selection of R307 from the histogram and the codes of the candidates: positions, CK, TAU, CUT, TRUNC. -/
def selection (k kmax margin : Nat) (hist : List Nat) (codes : List (Nat × Nat)) : List Nat × Nat × Nat × Nat × Bool :=
  if codes.length ≤ k then (codes.map (·.1), 255, 255, 255, false)
  else
    let c := codeAt hist (fun n => n < k) 63 63 0
    let tau := c.1 - margin
    if ((hist.drop tau).sum) ≤ kmax then ((codes.filter (fun e => tau ≤ e.2)).map (·.1), c.1, tau, 255, false)
    else
      let cut := codeAt hist (fun n => n ≤ kmax) 63 63 0
      let ties := (codes.filter (fun e => e.2 == cut.1)).map (·.1)
      let keep := ties.drop (ties.length - (kmax - cut.2))
      ((codes.filter (fun e => cut.1 < e.2 || e.1 ∈ keep)).map (·.1), c.1, tau, cut.1, true)

/-- SELECT: takes a top-k state, derives the selection, writes SELOUT, and releases arrays and state (R306, R307, R312). -/
def Dev.selectPhase (tile : Nat) (d : Dev) (x : DescEntry) : Dev :=
  if x.phase ≠ .scored then d
  else match d.freeTopk tile x.part true with
  | none => d
  | some _ =>
    let cands := (x.keys x.att.len).filter (fun p => !x.forced p)
    d.engReady [(x.codeBuf, x.hi - x.lo)] (if x.selOut = 0 then [] else [(x.selOut, 4 * x.kMax)]) (fun d =>
      let y := d.engRead x x.codeBuf (x.hi - x.lo)
      let d := y.1.releaseArrays tile x.att.arrays
      let x := { x with att := { x.att with arrays := [] } }
      if y.2.2 ≠ .ok then d.failDesc x y.2.2
      else
        let codes := cands.map (fun p => (p, (y.2.1.getD (p - x.lo) 0).toNat % 64))
        let s := selection x.k x.kMax x.margin x.att.hist codes
        let d := if s.2.2.2.2 then d.bump ATT_TRUNC_CNT else d
        let bs := s.1.flatMap (leBytes 4)
        let w := if x.selOut = 0 then (d, true) else (d.stream x 0 x.selOut bs).engWrite x x.selOut bs
        let x := { x with phase := .selected, att := { x.att with
          sel := s.1, ck := s.2.1, tau := s.2.2.1, cut := s.2.2.2.1, trunc := s.2.2.2.2 } }
        if !w.2 then w.1.failDesc x .poison
        else
          let j := w.1.journalJob x
          j.1.putDesc j.2)

/-- EXACT: the DENSE computation over the forced positions and the selection, once a journal entry is acknowledged (R306, R433). -/
def Dev.exactWork (tile : Nat) (d : Dev) (x : DescEntry) : Dev :=
  if x.phase ≠ .selected ∨ d.awaits x.waitMack then d
  else
    let g := (d.sesRec x.ses).geom
    let keys := x.keys x.att.len
    d.jobPages x g keys (fun d t => d.denseOver tile x g t keys (keys.filter (fun p => x.forced p || p ∈ x.att.sel)))

/-- What a job that has ended, or is given up, lets go: arrays and its journal entry. The read pin goes with its record. -/
def Dev.releaseJob (d : Dev) (tile : Nat) (x : DescEntry) : Dev :=
  let d := d.releaseArrays tile x.att.arrays
  match x.att.journal with
  | some i => d.putJournal i none
  | none => d

/-! ## MERGE (R315) -/

/-- Merges one input's row into the running row; R303 makes the row NaN where its maximum would become +Inf too. [DEDUCED: log 176] -/
def mergeRow (r : RowAcc) (m l : Nat) (o : List Nat) : RowAcc :=
  if r.nan ∨ isNan32 m ∨ isNan32 l ∨ o.any isNan32 then { r with nan := true }
  else if m = negInf then r
  else
    let mn := fmax32 r.m m
    if mn = 0x7F800000 then { r with nan := true }
    else
    let a := exp32 (fsub32 r.m mn)
    let b := exp32 (fsub32 m mn)
    { m := mn, l := fadd32 (fmul32 r.l a) (fmul32 l b), o := List.zipWith (fun x y => fadd32 (fmul32 x a) (fmul32 y b)) r.o o, nan := false }

/-- The rows of a PARTIAL. -/
def partialRow (nr dim : Nat) (bs : Bytes) (r : Nat) : Nat × Nat × List Nat :=
  (leAt bs (nr * dim * 4 + 8 * r) 4, leAt bs (nr * dim * 4 + 8 * r + 4) 4, (List.range dim).map (fun j => leAt bs ((r * dim + j) * 4) 4))

/-- Reads every input of a MERGE; the first failing status. -/
def readInputs (d : Dev) (x : DescEntry) (n : Nat) : List Nat → Dev × List Bytes × Status
  | [] => (d, [], .ok)
  | a :: as =>
    let y := d.engRead x a n
    let z := readInputs y.1 x n as
    (z.1, y.2.1 :: z.2.1, joinStatus y.2.2 z.2.2)

/-- What a MERGE writes. -/
def mergeWrites (x : DescEntry) : List (Nat × Nat) :=
  [(x.fl 192 64, attOutLen (x.fl 85 2) (x.fl 69 7) (x.fl 76 9))] ++ (if x.fl 256 64 = 0 then [] else [(x.fl 256 64, 32)])

/-- The checks before a MERGE. -/
def mergePre (d : Dev) (x : DescEntry) : Status :=
  let nin := x.fl 64 5
  let nr := x.fl 69 7
  let dim := x.fl 76 9
  if nin < 2 || 16 < nin || nr == 0 || 64 < nr || dim < 32 || 256 < dim || dim % 32 != 0 || x.fl 85 2 == 3 || x.fl 192 64 % 64 != 0 then .badRequest
  else d.engChecks x ([(x.fl 128 64, 8 * nin, false)] ++ (mergeWrites x).map (fun r => (r.1, r.2, true)))

/-- MERGE: a descriptor of CLASS 0, so ATT_JOB_CNT counts it. [DEDUCED: log 176] -/
def Dev.mergeWork (d : Dev) (x : DescEntry) : Dev :=
  let nin := x.fl 64 5
  let nr := x.fl 69 7
  let dim := x.fl 76 9
  let list := x.fl 128 64
  let n := attOutLen 0 nr dim
  d.engReady [(list, 8 * nin)] [] (fun d =>
    let y := d.engRead x list (8 * nin)
    let addrs := (List.range nin).map (fun i => leAt y.2.1 (8 * i) 8)
    let st := joinStatus y.2.2 (y.1.engChecks x (addrs.map (fun a => (a, n, false))))
    if st ≠ .ok then y.1.failDesc x st
    else y.1.engReady (addrs.map (fun a => (a, n))) (mergeWrites x) (fun d =>
      let z := readInputs d x n addrs
      if z.2.2 ≠ .ok then z.1.failDesc x z.2.2
      else
        let rows := (List.range nr).map (fun r => (z.2.1.foldl (fun acc bs =>
          let p := partialRow nr dim bs r
          mergeRow acc p.1 p.2.1 p.2.2) (RowAcc.start dim)).finish)
        let nans := rows.countP (·.nan)
        let outs := [(x.fl 192 64, attOut (x.fl 85 2) rows)] ++ (if x.fl 256 64 = 0 then [] else [(x.fl 256 64, x.summary 0 (nans != 0))])
        let d := if z.1.writeStops (outs.map (fun o => (o.1, o.2.length))) = [] then z.1.countJob nans 0 else z.1
        d.finishDesc x outs))

/-! ## The DENSE shadow (R311, R343 to R346) -/

/-- The measures of a shadow: MASS_MIN, MASS_MEAN, TOPK_HIT, MISS_RANK, NAN. Rows are the scores of each position, none if unseen. -/
structure Recall where
  massMin : Nat
  massMean : Nat
  hit : Nat
  missRank : Nat
  nan : Bool
deriving DecidableEq, Repr

/-- Whether R303 makes a row NaN: a NaN score, or +Inf as the largest score. -/
def rowNan (s : List (Nat × Option Nat)) : Bool := s.any (fun e => e.2.any (fun v => isNan32 v || v == 0x7F800000))

/-- The mass of a row over the positions visited; none for an empty row or a NaN row. -/
def rowMass (visited : List Nat) (s : List (Nat × Option Nat)) : Option Nat :=
  let seen := s.filterMap (fun e => e.2.map (fun v => (e.1, v)))
  if seen = [] ∨ rowNan s then none
  else
    let m := seen.foldl (fun b e => fmax32 b e.2) negInf
    let ex := fun (l : List (Nat × Nat)) => fpEnc fp32 (fpSum (l.map (fun e => fpDec fp32 (exp32 (fsub32 e.2 m)))))
    some (fdiv32 (ex (seen.filter (fun e => e.1 ∈ visited))) (ex seen))

/-- Inserts a candidate by d descending, the higher position first on ties. -/
def rankInsert (x : Nat × Nat) : List (Nat × Nat) → List (Nat × Nat)
  | [] => [x]
  | y :: t =>
    if fpLt (fpDec fp32 y.2) (fpDec fp32 x.2) || (!fpLt (fpDec fp32 x.2) (fpDec fp32 y.2) && y.1 < x.1) then x :: y :: t else y :: rankInsert x t

/-- The recall of R345. -/
def recallOf (k : Nat) (sel visited cands : List Nat) (rows : List (List (Nat × Option Nat))) : Recall :=
  let nan := rows.any rowNan
  let good := rows.filter (fun s => !rowNan s)
  let mass := good.filterMap (rowMass visited)
  let d := fun (p : Nat) => good.foldl (fun b s =>
    let seen := s.filterMap (fun e => e.2)
    let m := seen.foldl fmax32 negInf
    match (s.find? (fun e => e.1 == p)).bind (·.2) with
    | some v => fmax32 b (fsub32 v m)
    | none => b) negInf
  let ranked := (cands.foldl (fun l p => rankInsert (p, d p) l) []).map (·.1)
  { massMin := match mass with | [] => 0x3F800000 | m :: ms => ms.foldl (fun a b => if fpLt (fpDec fp32 b) (fpDec fp32 a) then b else a) m
    massMean := match mass with | [] => 0x3F800000 | m :: ms => fdiv32 (ms.foldl fadd32 m) (fpEnc fp32 (fpOfInt mass.length))
    hit := (ranked.take (min k cands.length)).countP (fun p => p ∈ sel)
    missRank := match ranked.findIdx? (fun p => p ∉ sel) with | some i => i + 1 | none => 0
    nan := nan }

/-- The 64 B shadow record. -/
def shadowRecord (x : DescEntry) (tbase cands exact : Nat) (r : Recall) : Bytes :=
  leBytes 8 tbase ++ leBytes 3 x.ses ++ [BitVec.ofNat 8 x.layer, BitVec.ofNat 8 x.kvGroup, BitVec.ofNat 8 x.nr, BitVec.ofNat 8 x.att.ck,
    BitVec.ofNat 8 x.att.tau] ++ leBytes 4 cands ++ leBytes 4 x.att.sel.length ++ leBytes 4 exact ++ leBytes 4 r.massMin ++ leBytes 4 r.massMean ++
    leBytes 2 x.k ++ leBytes 2 r.hit ++ leBytes 4 r.missRank ++
    [BitVec.ofNat 8 (b2n x.att.trunc + 2 * b2n r.nan + 4 * b2n x.att.withdrawn), BitVec.ofNat 8 x.att.nArr, 0, 0] ++ leBytes 8 x.att.arrMask ++ zeros 8

/-- A shadow ends. -/
def Dev.dropShadow (d : Dev) (id : Nat) : Dev := { d with eng := { d.eng with shadows := d.eng.shadows.filter (fun y => y.id ≠ id) } }

/-- A shadow is abandoned: no record. -/
def Dev.abandonShadow (d : Dev) (id : Nat) : Dev :=
  ((d.dropShadow id).bump MICA_SHADOW_DROP_CNT).event MICA_EVT 3 (d.regFld MICA_CFG 3 1 == 1)

/-- The scores of every query row at the key positions. -/
def shadowRows (x : DescEntry) (bias : Bytes) (qs : List (List Fp)) (kv : List KvRow) : List (List (Nat × Option Nat)) :=
  qs.zipIdx.map (fun q => kv.map (fun row => (row.pos, jobScore x bias q.1 (q.2 % x.nh) (q.2 / x.nh) row)))

/-- Whether the session engine waits for the pin of a session: a PARK, REVIVE or MOVE of it is under way (R318). -/
def Dev.pinWanted (d : Dev) (id : Nat) : Bool := (Tab.find? d.ses.ops id).isSome && (d.sesRec id).op ∈ [1, 2, 5, 6]

/-- At a cue boundary the shadows whose pin the session engine waits for are abandoned (R344). -/
def Dev.yieldShadows (d : Dev) : Dev :=
  (d.eng.shadows.filter (fun x => d.pinWanted x.ses)).foldl (fun d x => d.abandonShadow x.id) d

/-- Address of the next shadow record of a partition: none where its ring holds no record or lies outside its memory (R346). -/
def Dev.shadowAt (d : Dev) (p : Nat) : Option Nat :=
  let ring := (Tab.find? d.mica.shRing p).getD (0, 0)
  let addr := ring.1 + Tab.get 0 d.mica.shHead p % (max 1 ring.2) * 64
  if ring.2 = 0 ∨ d.checkAccess p addr 64 true ≠ .ok then none else some addr

/-- Runs a shadow whose job's ticket has completed: its record is visible before HEAD advances (R345, R346). [DESIGN CHOICE: log 62] -/
def Dev.shadowRun (d : Dev) (tile : Nat) (x : DescEntry) : Dev :=
  match d.shadowAt x.part with
  | none => d.abandonShadow x.id
  | some addr =>
    if (d.freeTopk tile x.part true).isNone then d
    else
      let g := (d.sesRec x.ses).geom
      let keys := x.keys x.att.len
      let e := d.pageTable g x.layer x.kvGroup
      let z := readPages e.1 e.2.1 e.2.2.1 (pagesOf keys)
      let reads := [(x.qAt, x.nr * g.d * 2)] ++ (if x.biasAt = 0 then [] else [(x.biasAt, 128 * x.nh)]) ++ kvRanges g z.2.1 keys
      z.1.engReady reads [(addr, 64)] (fun d =>
        let q := d.engRead x x.qAt (x.nr * g.d * 2)
        let b := if x.biasAt = 0 then (q.1, ([] : Bytes), Status.ok) else q.1.engRead x x.biasAt (128 * x.nh)
        let kv := readKv b.1 g z.2.1 keys
        let d := kv.1.dropSync
        if z.2.2 ≠ .ok ∨ joinStatus q.2.2 b.2.2 ≠ .ok ∨ !kv.2.2 then d.abandonShadow x.id
        else
          let cands := keys.filter (fun p => !x.forced p)
          let visited := keys.filter (fun p => x.forced p || p ∈ x.att.sel)
          let r := recallOf x.k x.att.sel visited cands (shadowRows x b.2.1 (queryRows x g q.2.1) kv.2.1)
          let s := d.stampNow
          let w := s.1.write addr (shadowRecord x (s.1.seenTime x.part s.2) cands.length visited.length r)
          if !w.2 then w.1.abandonShadow x.id
          else
            let d := (w.1.dropShadow x.id).bump MICA_SHADOW_CNT
            { d with mica := { d.mica with shHead := Tab.set 0 d.mica.shHead x.part ((Tab.get 0 d.mica.shHead x.part + 1) % 2 ^ 64) } })

/-- The shadow at the front of an engine, once its job's ticket has completed. -/
def Dev.runShadow (d : Dev) (e : EngId) (p : Nat) : Dev :=
  match d.eng.shadows.find? (fun x => x.part == p && descEng x.ctx x.word == e && (d.findDesc x.id).isNone) with
  | some x => if e ∈ d.eng.hung then d else d.asParty (descParty x.id) (fun d => d.shadowRun e.tile x)
  | none => d

/-! ## Withdrawal of an array (R332) -/

/-- A held array that has retired leaves its job. -/
def Dev.withdrawArray (d : Dev) (tile a : Nat) : Dev :=
  if arrKey tile a ∈ d.mica.leaving then
    let d : Dev := { d with mica := { d.mica with leaving := setDel d.mica.leaving (arrKey tile a) } }
    if Tab.get 0 d.mica.held (arrKey tile a) = 0 then d
    else
      let d := ((d.releaseArrays tile [a]).bump MICA_WITHDRAW_CNT).event MICA_EVT 4 (d.regFld MICA_CFG 3 1 == 1)
      { d with eng := { d.eng with queue := d.eng.queue.map (fun q => (q.1, q.2.map (fun x =>
          if q.1 / 16 / 128 = tile ∧ x.fl 0 4 = 0 ∧ a ∈ x.att.arrays then
            { x with att := { x.att with arrays := x.att.arrays.filter (· ≠ a), withdrawn := true } }
          else x))) } }
  else d

/-! ## Front descriptors and meanings -/

/-- A DENSE job at the front of a queue. -/
def Dev.runDense (d : Dev) (e : EngId) (p : Nat) : Dev := attWork jobPre 1 e p (Dev.denseWork e.tile) d

/-- The phases of a SKETCH job at the front of a queue. -/
def Dev.runSketch (d : Dev) (e : EngId) (p : Nat) : Dev := attWork jobPre 2 e p (Dev.sketchWork e.tile) d
def Dev.runScore (d : Dev) (e : EngId) (p : Nat) : Dev := attWork jobPre 2 e p (Dev.scoreWork e.tile) d
def Dev.runPick (d : Dev) (e : EngId) (p : Nat) : Dev := attWork jobPre 2 e p (Dev.selectPhase e.tile) d
def Dev.runExact (d : Dev) (e : EngId) (p : Nat) : Dev := attWork jobPre 2 e p (Dev.exactWork e.tile) d

/-- A MERGE at the front of a queue. -/
def Dev.runMerge (d : Dev) (e : EngId) (p : Nat) : Dev := attWork mergePre 3 e p Dev.mergeWork d

/-- DENSE (R298, R302). -/
def execDense (e : EngId) (part : Nat) (s : State) : Host.Outcome State Fault Refusal := s.run (·.runDense e part)

/-- SKETCH: the start of a SKETCH job (R306). -/
def execSketch (e : EngId) (part : Nat) (s : State) : Host.Outcome State Fault Refusal := s.run (·.runSketch e part)

/-- SCORE (R306, R331). -/
def execScore (e : EngId) (part : Nat) (s : State) : Host.Outcome State Fault Refusal := s.run (·.runScore e part)

/-- SELECT of a SKETCH job (R307). -/
def execSketchSelect (e : EngId) (part : Nat) (s : State) : Host.Outcome State Fault Refusal := s.run (·.runPick e part)

/-- EXACT (R306). -/
def execExact (e : EngId) (part : Nat) (s : State) : Host.Outcome State Fault Refusal := s.run (·.runExact e part)

/-- MERGE (R315). -/
def execMerge (e : EngId) (part : Nat) (s : State) : Host.Outcome State Fault Refusal := s.run (·.runMerge e part)

/-- The DENSE shadow of a job whose ticket has completed (R311). -/
def execShadow (e : EngId) (part : Nat) (s : State) : Host.Outcome State Fault Refusal := s.run (·.runShadow e part)

/-- A held array that retired is withdrawn (R332). -/
def execArrayWithdraw (tile array : Nat) (s : State) : Host.Outcome State Fault Refusal := s.run (·.withdrawArray tile array)

end Sys2Proof.Machine
end

