-- ==== Sys2Proof/Machine/Mica.lean ====
section
/-! DEFINITION. Calibration of the analogue units (R333 to R341, R532, R551): runs, trims, retirement and retest, and the settings of
the DENSE shadow (R343, R346, R348). -/

namespace Sys2Proof.Machine

/-! ## Rounding -/

/-- A quotient to the nearest integer, where the manual gives no rule for a tie. -/
def roundTie (place : Nat) (n m : Int) : Int :=
  let q := n / m
  let r := n - q * m
  if 2 * r < m then q else if m < 2 * r then q + 1 else if Config.roundsUp place n m then q + 1 else q

/-- A quotient as one of its two neighbours, where the manual gives no rounding at all. [DESIGN CHOICE: log 64] -/
def roundFree (place : Nat) (n m : Int) : Int :=
  let q := n / m
  if n - q * m = 0 then q else if Config.roundsUp place n m then q + 1 else q

/-! ## Records -/

def Dev.setCalInfo (d : Dev) (cls unit : Nat) (c : CalInfo) : Dev :=
  { d with mica := { d.mica with cal := Tab.set CalInfo.reset d.mica.cal (cls * 2048 + unit) c } }

def ColTrim.reset : ColTrim :=
  { off := 0, gain := 0, candOff := 0, candGain := 0, effOff := 0, effGain := 0, tco := 0, tcg := 0, resOff := 0, inl := 0, sigma := 0 }

/-- The trims of a column. -/
def Dev.colTrim (d : Dev) (array col : Nat) : ColTrim := Tab.get ColTrim.reset d.mica.cols (array * 64 + col)

def Dev.setColTrim (d : Dev) (array col : Nat) (t : ColTrim) : Dev :=
  { d with mica := { d.mica with cols := Tab.set ColTrim.reset d.mica.cols (array * 64 + col) t } }

/-- The trims of every column of an array change. -/
def Dev.mapCols (d : Dev) (array : Nat) (f : Nat → ColTrim → ColTrim) : Dev :=
  (List.range 64).foldl (fun d c => d.setColTrim array c (f c (d.colTrim array c))) d

/-- The temperature that tile t's monitor reads now, °C / 16. -/
def Dev.tileTemp (d : Dev) (t : Nat) : Int := d.pwr.temps.getD t 0

/-- Origin of a unit's report: the tile block of a Mica array, the link of a lane, else the hub. [DESIGN CHOICE: log 67] -/
def unitOrigin (u : CalUnit) : BitVec 32 :=
  if u.cls = 0 then mkOrigin 3 (u.unit / 64) 0 0 0 else if u.cls = 1 then mkOrigin 2 (attachTile (u.unit / 8)) (u.unit / 8) 0 0 else hubOrigin

/-! ## Runs (R334, R335, R337) -/

/-- Units of a class: monitors are numbered 0 to 20 thermal, 21 to 39 rails, then charge monitors. [DESIGN CHOICE: log 66] -/
def unitExists (u : CalUnit) : Bool :=
  match u.cls with
  | 0 => u.unit < 768
  | 1 => u.unit < 288
  | 2 => u.unit < 1109
  | 3 => u.unit < 2048
  | _ => false

/-- The period of a class's scheduled runs, in cues (R333). -/
def calPeriod (cls : Nat) : Nat :=
  match cls with | 0 => 8000 | 1 => 256000 | 2 => 64000 | _ => 4000000

/-- Whether a unit's scheduled run starts at this cue: arrays and lanes have a stated offset in their period, the units of classes 2 and 3 keep
that of their first scheduled run. [DESIGN CHOICE: log 65] -/
def Dev.calDue (d : Dev) (u : CalUnit) : Bool :=
  match u.cls with
  | 0 => d.tb.cueCount % calPeriod 0 == 125 * (u.unit % 64)
  | 1 => d.tb.cueCount % calPeriod 1 == 888 * u.unit
  | _ =>
    match (d.calInfo u.cls u.unit).sched with
    | none => true
    | some c => decide (c < d.tb.cueCount) && (d.tb.cueCount - c) % calPeriod u.cls == 0

/-- Whether a run of this kind may start now. -/
def Dev.calMayStart (d : Dev) (u : CalUnit) (why : CalWhy) : Bool :=
  let c := d.calInfo u.cls u.unit
  unitExists u && !c.running &&
  (match why with
   | .first => c.state == .uncal || c.state == .calFirst
   | .retest => c.state == .retest
   | .retry => c.state == .retry
   | .early => c.state == .inService && c.early && u.cls == 0
   | .scheduled => c.state == .inService && d.calDue u)

/-- A run starts on the candidate trims; it is counted (R335). The trims of an array that was never calibrated take TCO and TCG from the
firmware image (R338). -/
def Dev.calRun (d : Dev) (u : CalUnit) (why : CalWhy) : Dev :=
  if d.calMayStart u why then
    let c := d.calInfo u.cls u.unit
    let state := match why with | .first => CalState.calFirst | .scheduled => .calibrating | .early => .calibrating | .retry => .retry | .retest => .retest
    let d := if u.cls = 0 ∧ c.state = .uncal then
      d.mapCols u.unit (fun i t => { t with tco := sextInt 8 (Config.fwTrim 0 u.unit i).toNat, tcg := sextInt 8 (Config.fwTrim 1 u.unit i).toNat }) else d
    let d := d.setCalInfo u.cls u.unit { c with
      state := state, running := true, early := if why = .early then false else c.early
      sched := if why = .scheduled then some d.tb.cueCount else c.sched }
    let d := d.bump (MICA_FW_CAL_CNT + 8 * u.cls)
    let d := if u.cls = 0 then d.bump MICA_CAL_CNT else d
    if why = .early then d.event MICA_EVT 2 (d.regFld MICA_CFG 3 1 == 1) else d
  else d

/-! ## The end of a run (R334, R338, R340) -/

/-- Candidate trims after the OFFSET and GAIN steps: e_o = offset / 256 - 32, and g = (plus - minus) / 256 / 48. -/
def ColTrim.step (t : ColTrim) (m : ColMeas) : ColTrim :=
  { t with candOff := clampInt (-128) 127 (t.candOff - roundTie 0 ((m.offset : Int) - 8192) 16)
           candGain := clampInt (-128) 127 (t.candGain - roundTie 1 ((m.plus : Int) - m.minus - 12288) 24) }

/-- Residual offset, 1/256 LSB. -/
def measOff (m : ColMeas) : Int := (m.zero : Int) - 8192

/-- Residual gain less 1, in 1/6,144: 128 conversions at each of +24 and -24 LSB. -/
def measGain (m : ColMeas) : Int := (m.verPlus : Int) - m.verMinus - 6144

/-- INL in 1/32 LSB: the largest distance of a level's mean from its ideal code. -/
def measInl (m : ColMeas) : Nat :=
  ((List.range 8).map (fun i => ((m.lin.getD i 0 : Int) - 32 * (4 + 8 * (i : Int))).natAbs)).foldl max 0

/-- 12 × 65,536 × (var0 - 1/12), or 0 where that is negative. [DEDUCED: log 199] -/
def measNoise (m : ColMeas) : Nat := (12 * (256 * (m.zeroSq : Int) - (m.zero : Int) * m.zero) - 65536).toNat

/-- σ_n in 1/256 LSB. [DESIGN CHOICE: log 64] -/
def measSigma (m : ColMeas) : Nat :=
  let q := (measNoise m) / 12
  let r := Nat.sqrt q
  if r * r * 12 = (measNoise m) then r else if Config.roundsUp 4 (measNoise m) 12 then r + 1 else r

/-- Whether the attenuation step between some adjacent S is off by more than 0.3 %. [DEDUCED: log 199] -/
def stepsBad (m : ColMeas) : Bool :=
  let span := fun (i : Nat) => ((m.steps.getD i (0, 0)).1 : Int) - (m.steps.getD i (0, 0)).2
  (List.range 7).any (fun i => decide (3 * (span i).natAbs < 1000 * (span (i + 1) - span i).natAbs))

/-- Whether the codes change between the reference levels. [DEDUCED: log 199] -/
def codesMove (m : ColMeas) : Bool := (List.range 7).all (fun i => m.lin.getD i 0 != m.lin.getD (i + 1) 0)

/-- The limits that a column misses, by REASON (R340). -/
def colMisses (attens : Bool) (t : ColTrim) (m : ColMeas) (reason : Nat) : Bool :=
  match reason with
  | 1 => t.candOff == -128 || t.candOff == 127 || t.candGain == -128 || t.candGain == 127
  | 6 => !(codesMove m)
  | 2 => 15 * 256 < (measOff m).natAbs * 100
  | 3 => 3 * 6144 < (measGain m).natAbs * 1000 || (attens && (stepsBad m))
  | 4 => 20 * 32 < (measInl m) * 100
  | _ => 12 * 65536 * 1444 < (measNoise m) * 10000

/-- The first limit, in the order of R340's table, that some column misses; 0 for a pass. [DESIGN CHOICE: log 63] -/
def calReason (attens : Bool) (l : List (ColTrim × ColMeas)) : Nat :=
  (([1, 6, 2, 3, 4, 5].find? (fun r => l.any (fun e => colMisses attens e.1 e.2 r))).getD 0)

/-- Trim steps per °C, in 1/16, from a change of a trim over a change of temperature in °C / 16. [DESIGN CHOICE: log 64] -/
def tempCo (place : Nat) (dTrim dTemp : Int) : Int :=
  clampInt (-127) 127 (if dTemp < 0 then roundFree place (-(dTrim * 256)) (-dTemp) else roundFree place (dTrim * 256) dTemp)

/-- The trims of a column after a pass at a temperature: results are shown, and TCO and TCG follow a change of at least 1 °C. [DESIGN CHOICE: log 63] -/
def ColTrim.passed (t : ColTrim) (m : ColMeas) (dTemp : Int) : ColTrim :=
  let t : ColTrim := { t with resOff := (measOff m), inl := (measInl m) * 8, sigma := (measSigma m) }
  if dTemp.natAbs < 16 then t
  else { t with tco := tempCo 2 (t.candOff - t.off) dTemp, tcg := tempCo 3 (t.candGain - t.gain) dTemp }

/-- State after a run (R334). [DESIGN CHOICE: log 63] -/
def CalInfo.after (c : CalInfo) (pass : Bool) : CalInfo :=
  let first := c.state = .calFirst ∨ c.state = .retest
  let runs := c.runs + 1
  let passes := if pass then c.passes + 1 else 0
  let c : CalInfo := { c with running := false }
  if first then
    if 2 ≤ passes then { c with state := .inService, runs := 0, passes := 0 }
    else if 4 ≤ runs then { c with state := .retired, runs := 0, passes := 0 }
    else { c with runs := runs, passes := passes }
  else if pass then { c with state := .inService }
  else if c.state = .retry then { c with state := .retired }
  else { c with state := .retry }

/-- A unit retires: counted, shown, and reported (R335); an array that is held is to be withdrawn (R332). [DEDUCED: log 141] -/
def Dev.unitRetired (d : Dev) (u : CalUnit) (reason : Nat) : Dev :=
  let d := d.bump (MICA_FW_RETIRE_CNT + 8 * u.cls)
  let d : Dev := if u.cls = 0 then
      let d := (d.bump MICA_RETIRE_CNT).event MICA_EVT 0 (d.regFld MICA_CFG 3 1 == 1)
      if Tab.get 0 d.mica.held u.unit = 0 then d else { d with mica := { d.mica with leaving := setIns d.mica.leaving u.unit } }
    else d
  d.report 0x41 1 (unitOrigin u) (u.cls + u.unit * 2 ^ 16) reason 0

/-- A column of which a result says nothing. -/
def noMeas : ColMeas := { offset := 0, plus := 0, minus := 0, lin := [], zero := 0, zeroSq := 0, verPlus := 0, verMinus := 0, steps := [] }

/-- A run ends with its result. -/
def Dev.calRunDone (d : Dev) (u : CalUnit) (r : CalResult) : Dev :=
  let c := d.calInfo u.cls u.unit
  if !c.running then d
  else
    let attens := c.state = .calFirst ∨ c.state = .retest
    match r with
    | .mica cols temp =>
      if u.cls ≠ 0 then d
      else
        let meas := fun (i : Nat) => cols.getD i noMeas
        let d := d.mapCols u.unit (fun i t => t.step (meas i))
        let pairs := (List.range 64).map (fun i => (d.colTrim u.unit i, meas i))
        let reason := calReason attens pairs
        let c' := c.after (reason == 0)
        let d :=
          if reason = 0 then
            let dTemp := if c.everPassed then temp - c.tCal else 0
            (d.mapCols u.unit (fun i t => t.passed (meas i) dTemp)).setCalInfo 0 u.unit { c' with
              sigma := (pairs.map (fun e => measSigma e.2)).foldl max 0, passCue := d.tb.cueCount, everPassed := true, tCal := temp, swap := true }
          else ((d.setCalInfo 0 u.unit { c' with reason := reason }).bump MICA_CAL_FAIL_CNT).event MICA_EVT 1 (d.regFld MICA_CFG 3 1 == 1)
        if c'.state = .retired then d.unitRetired u (d.calInfo 0 u.unit).reason else d
    | .other pass reason =>
      if u.cls = 0 then d
      else
        let c' := c.after pass
        let d := d.setCalInfo u.cls u.unit (if pass then { c' with passCue := d.tb.cueCount, swap := true } else { c' with reason := reason })
        if c'.state = .retired then d.unitRetired u reason else d

/-- At a cue boundary candidate trims of the runs that passed become active (R335). [DESIGN CHOICE: log 63] -/
def Dev.swapTrims (d : Dev) : Dev :=
  (d.mica.cal.filter (fun e => e.2.swap)).foldl (fun d e =>
    let d := if e.1 < 2048 then d.mapCols e.1 (fun _ t => { t with off := t.candOff, gain := t.candGain }) else d
    { d with mica := { d.mica with cal := Tab.set CalInfo.reset d.mica.cal e.1 { e.2 with swap := false } } }) d

/-- Effective trims of a column at a temperature (R338). -/
def ColTrim.effective (t : ColTrim) (dTemp : Int) : Int × Int :=
  let rhe := fun (n : Int) => if n < 0 then -((rneDiv n.natAbs 256 : Nat) : Int) else ((rneDiv n.natAbs 256 : Nat) : Int)
  (clampInt (-128) 127 (t.off + rhe (t.tco * dTemp)), clampInt (-128) 127 (t.gain + rhe (t.tcg * dTemp)))

/-- The shell reads the tile temperatures every 64 cues (R338). -/
def Dev.readTemps (d : Dev) : Dev :=
  if d.tb.cueCount % 64 = 0 then
    { d with mica := { d.mica with temps := (List.range 12).foldl (fun t i => Tab.set 0 t i (d.tileTemp i)) d.mica.temps } }
  else d

/-- At a cue boundary the effective trims of every calibrated column are applied (R338). -/
def Dev.applyTrims (d : Dev) : Dev :=
  { d with mica := { d.mica with cols := d.mica.cols.map (fun e =>
      let a := e.1 / 64
      let c := d.calInfo 0 a
      let x := e.2.effective (if c.everPassed then Tab.get 0 d.mica.temps (a / 64) - c.tCal else 0)
      (e.1, { e.2 with effOff := x.1, effGain := x.2 })) } }

/-- Arrays in service whose tile temperature has left T_cal by more than 4.0 °C become due for an early run (R339). -/
def Dev.markEarly (d : Dev) : Dev :=
  (List.range 768).foldl (fun d a =>
    let c := d.calInfo 0 a
    if c.state = .inService ∧ 64 < (d.tileTemp (a / 64) - c.tCal).natAbs then d.setCalInfo 0 a { c with early := true } else d) d

/-- Every retired array of a tile goes to RETEST (R341). -/
def Dev.retestTile (d : Dev) (tile : Nat) : Dev :=
  if 12 ≤ tile then d
  else (List.range 64).foldl (fun d a =>
    let c := d.calInfo 0 (arrKey tile a)
    if c.state = .retired then d.setCalInfo 0 (arrKey tile a) { c with state := .retest, runs := 0, passes := 0 } else d) d

/-! ## The DENSE shadow's settings (R343, R346, R348) -/

/-- A write of MICA_SHADOW_CFG_p. -/
def Dev.writeShadowCfg (d : Dev) (p v : Nat) : Dev :=
  let was := d.regFld (MICA_SHADOW_CFG + 8 * p) 0 1
  let d := d.putReg (MICA_SHADOW_CFG + 8 * p) (v % 2 ^ 52)
  let cnt := d.mica.shCnt.filter (fun e => e.1 % 16 ≠ p)
  let d := { d with mica := { d.mica with shCnt := cnt } }
  if was = 0 ∧ v % 2 = 1 then
    { d with mica := { d.mica with shRing := Tab.set (0, 0) d.mica.shRing p (d.reg (MICA_SHADOW_BASE + 8 * p), fld v 28 24),
                                   shHead := Tab.set 0 d.mica.shHead p 0 } }
  else d

/-! ## Meanings -/

/-- A calibration run starts (R334, R337, R339). -/
def execCalRun (u : CalUnit) (why : CalWhy) (s : State) : Host.Outcome State Fault Refusal := s.run (·.calRun u why)

/-- MICA_CTRL.RETEST (R341). -/
def execRetest (tile : Nat) (s : State) : Host.Outcome State Fault Refusal := s.run (·.retestTile tile)

/-- A write of MICA_SHADOW_CFG_p (R343, R348). -/
def execMicaShadowCfgWrite (p : Nat) (v : Word) (s : State) : Host.Outcome State Fault Refusal :=
  s.run (fun d => if p < 16 then d.writeShadowCfg p v.toNat else d)

end Sys2Proof.Machine
end

