-- ==== Sys2Proof/Machine/Version.lean ====
section
/-! DEFINITION. Regions, working copies, versions and extents (R349 to R378): records and their mirroring, placement and eviction, SEAL
and its writes to the trays, PUBLISH, holders, and draining. -/

namespace Sys2Proof.Machine

/-! ## Choices the manual leaves to the device -/

/-- One of several free things. [DESIGN CHOICE: log 5, 110] -/
def Dev.pickOne (d : Dev) (place : Nat) (l : List Nat) : Dev × Option Nat :=
  let x := d.nextFree
  (x.1, l[Config.pick place x.2 % l.length]?)

/-- n of them, each taken once. [DESIGN CHOICE: log 5] -/
def Dev.pickMany (d : Dev) (place : Nat) : Nat → List Nat → Dev × List Nat
  | 0, _ => (d, [])
  | n + 1, l =>
    let x := d.pickOne place l
    match x.2 with
    | none => (x.1, [])
    | some a =>
      let y := x.1.pickMany place n (l.filter (· ≠ a))
      (y.1, a :: y.2)

/-! ## Answers to who asked (R353, R390, R536, R571) -/

/-- An operation answers: a mailbox command returns, a primitive's result waits for its ticket. -/
def Dev.tell (d : Dev) (a : Asker) (st : Status) (body : Bytes) : Dev :=
  match a with
  | .mailbox op => d.emit (.mailbox op st body)
  | .prim c slot gen note resEn res =>
    let r := if resEn ∧ (st = .ok ∨ st = .versionConflict) then some (res, slice body 0 (max 64 body.length)) else none
    { d with thr := { d.thr with prims := d.thr.prims ++ [{ ctx := c, slot := slot, gen := gen, status := st, note := note, result := r }] } }
  | .session _ => d
  | .none => d

/-- The same once mirror frames are acknowledged (R420). -/
def Dev.answerAfter (d : Dev) (fr : List (Nat × Nat)) (a : Asker) (st : Status) (body : Bytes) : Dev :=
  if d.awaits fr then { d with pair := { d.pair with waits := d.pair.waits ++ [(fr, .ask a st body)] } } else d.tell a st body

/-- The same with the frames that the operation sent since before. -/
def Dev.answer (d before : Dev) (a : Asker) (st : Status) (body : Bytes) : Dev := d.answerAfter (newFrames before d) a st body

/-! ## Records (R351, R352, R413, R415) -/

def verKey (ri v : Nat) : Nat := ri * 2 ^ 32 + v

/-- Key of a version that was freed: its region's ID and its number (R351, R371). -/
def Dev.goneKey (d : Dev) (ri v : Nat) : Nat :=
  regionWord { index := ri, gen := ((Tab.find? d.ver.regions ri).map (·.gen)).getD 0 } * 2 ^ 32 + v

def Dev.ownerTile (ri : Nat) : Nat := ri % 12

/-- The entries of a shared index space that this device allocates from: all of them while it is unpaired, else its role's half (R413). -/
def Dev.ownHalf (d : Dev) (n : Nat) : List Nat :=
  if d.pair.state = .unpaired then List.range n
  else if d.regFld PAIR_CFG 0 1 = 0 then List.range (n / 2)
  else (List.range (n - n / 2)).map (· + n / 2)

def Dev.regCount (d : Dev) : Nat := min 33554432 (d.reg VER_REG_CNT)
def Dev.verCount (d : Dev) : Nat := min 67108864 (d.reg VER_VER_CNT)
def Dev.extCount (d : Dev) : Nat := min 536870912 (d.reg VER_EXT_CNT)

/-- A region record as it is sent to the partner, with one of its slots; slot 16 names none. The manual does not lay it out. [DESIGN CHOICE: log 81] -/
def regionBytes (r : Option Region) (slot : Nat) : Bytes :=
  match r with
  | none => zeros 64
  | some r =>
    let w := Tab.find? r.copies slot
    [BitVec.ofNat 8 (r.part + r.policy * 2 ^ 4 + b2n r.mirrored * 2 ^ 6 + 2 ^ 7)] ++ leBytes 2 r.gen ++
      [BitVec.ofNat 8 (b2n w.isSome + ((w.map (·.tier)).getD 0) * 2 + b2n (slot < 16) * 4 + slot % 16 * 2 ^ 4)] ++ leBytes 4 r.head ++ leBytes 8 r.next ++
      leBytes 4 r.session ++ leBytes 8 ((w.map (·.len)).getD 0) ++ leBytes 4 ((w.map (·.base)).getD 0) ++ zeros 32

def vstateCode : VState → Nat
  | .sealing => 1 | .sealed => 2 | .head => 3 | .superseded => 4 | .draining => 5

/-- A version record as it is sent. [DESIGN CHOICE: log 81] -/
def versionBytes (ri num : Nat) (v : Option Version) : Bytes :=
  match v with
  | none => leBytes 4 0 ++ leBytes 4 ri ++ leBytes 4 num ++ zeros 52
  | some v => leBytes 4 (vstateCode v.state) ++ leBytes 4 ri ++ leBytes 4 num ++ leBytes 4 v.base ++ leBytes 8 v.len ++ leBytes 4 v.holders ++
      leBytes 4 v.index ++ zeros 32

def extStateCode : ExtState → Nat
  | .live => 1 | .draining => 2 | .revoked => 3

/-- An extent record as it is sent: pieces as tray and piece number. [DESIGN CHOICE: log 81] -/
def extentBytes (e : Option Extent) : Bytes :=
  match e with
  | none => zeros 64
  | some e =>
    [BitVec.ofNat 8 (extStateCode e.state + e.part * 2 ^ 2 + e.policy * 2 ^ 6), BitVec.ofNat 8 e.pieces.length] ++ zeros 2 ++ leBytes 4 e.region ++
      leBytes 4 e.version ++ slice (e.pieces.flatMap (fun p => leBytes 4 (p.1 + p.2 / 64 * 2 ^ 6))) 0 40 ++ zeros 12

/-- Whether the records of a region are sent to the partner: MIRRORED regions and every session's own (R415). -/
def Dev.sendsRegion (d : Dev) (ri : Nat) : Bool := d.mirrors && (Tab.find? d.ver.regions ri).any (fun r => r.mirrored || r.session ≠ 0)

/-- Sends a record of a table. [UNVERIFIED: log 82] -/
def Dev.sendRec (d : Dev) (stream table index : Nat) (bs : Bytes) : Dev :=
  if d.bulkRecord table index then d else d.pairSend stream 2 (table + index * 8) bs

def Dev.putRegion (d : Dev) (ri : Nat) (r : Region) (slot : Nat) : Dev :=
  let d := { d with ver := { d.ver with regions := Tab.insert d.ver.regions ri r } }
  if d.sendsRegion ri then d.sendRec (ri % 12) 1 ri (regionBytes (some r) slot) else d

def Dev.freeRegion (d : Dev) (ri : Nat) : Dev :=
  let was := d.sendsRegion ri
  let d := { d with ver := { d.ver with regions := Tab.erase d.ver.regions ri } }
  if was then d.sendRec (ri % 12) 1 ri (regionBytes none 0) else d

def Dev.version (d : Dev) (ri v : Nat) : Option Version := Tab.find? d.ver.versions (verKey ri v)

def Dev.putVersion (d : Dev) (ri num : Nat) (v : Version) : Dev :=
  let d := { d with ver := { d.ver with versions := Tab.insert d.ver.versions (verKey ri num) v } }
  if d.sendsRegion ri then d.sendRec (ri % 12) 2 v.index (versionBytes ri num (some v)) else d

def Dev.freeVersion (d : Dev) (ri num : Nat) : Dev :=
  match d.version ri num with
  | none => d
  | some v =>
    let d := { d with ver := { d.ver with versions := Tab.erase d.ver.versions (verKey ri num), gone := Tab.set 0 d.ver.gone (d.goneKey ri num) v.holders } }
    if d.sendsRegion ri then d.sendRec (ri % 12) 2 v.index (versionBytes ri num none) else d

def Dev.putExtent (d : Dev) (i : Nat) (e : Option Extent) : Dev :=
  let x : Option Extent := match e with | some x => some x | none => Tab.find? d.ver.extents i
  let ri := (x.map (·.region)).getD 0
  let d := { d with ver := { d.ver with extents := match e with | some x => Tab.insert d.ver.extents i x | none => Tab.erase d.ver.extents i } }
  if d.sendsRegion ri then d.sendRec (ri % 12) 3 i (extentBytes e) else d

/-- The record that a region ID names, for a party of partition p (none: the host): FREE, another GEN and another partition are the same
failure (R351). -/
def Dev.regionFor (d : Dev) (p? : Option Nat) (r : RegionId) : Option Region :=
  match Tab.find? d.ver.regions r.index with
  | some x => if x.gen = r.gen ∧ r.index < d.regCount ∧ (p?.all (· == x.part)) then some x else none
  | none => none

/-! ## Charges (R358) -/

def Dev.charge (d : Dev) (p tier : Nat) : Nat := Tab.get 0 d.ver.charge (p * 4 + tier)

def Dev.addCharge (d : Dev) (p tier n : Nat) : Dev := { d with ver := { d.ver with charge := Tab.set 0 d.ver.charge (p * 4 + tier) (d.charge p tier + n) } }

def Dev.subCharge (d : Dev) (p tier n : Nat) : Dev := { d with ver := { d.ver with charge := Tab.set 0 d.ver.charge (p * 4 + tier) (d.charge p tier - n) } }

/-- QUOTA and RESERVE of a partition in a tier. -/
def Dev.quota (d : Dev) (p tier : Nat) : Nat :=
  match tier with
  | 0 => d.regFld (VER_QN + 8 * p) 0 14
  | 1 => d.regFld (VER_QS + 8 * p) 0 19
  | _ => d.regFld (VER_QP + 8 * p) 0 30

def Dev.reserveOf (d : Dev) (p tier : Nat) : Nat := if tier = 0 then d.regFld (VER_QN + 8 * p) 14 14 else d.regFld (VER_QS + 8 * p) 19 19

/-! ## Frames (R354, R355) -/

def frameKey (tier f : Nat) : Nat := tier * 2 ^ 20 + f

/-- Device address of a frame. -/
def frameAddr (tier f : Nat) : Nat := (tier + 1) * 2 ^ 60 + f * 2 ^ 21

/-- The frames of a tier's shared range. -/
def Dev.poolFrames (d : Dev) (tier : Nat) : List Nat :=
  let v := d.reg (if tier = 0 then VER_POOL_N else VER_POOL_S)
  let first := if tier = 0 then fld v 0 14 else fld v 0 19
  (List.range (if tier = 0 then fld v 14 14 else fld v 19 19)).map (· + first)

/-- The frames that no copy holds. -/
def Dev.freeFrames (d : Dev) (tier : Nat) : List Nat := (d.poolFrames tier).filter (fun f => (Tab.find? d.ver.frames (frameKey tier f)).isNone)

/-- Lines of NEAR that agents hold or that are busy. -/
def Dev.liveLines (d : Dev) : List Nat := d.coh.filter.map (fun e => e.2.line) ++ (d.coh.lines.filter (fun e => !d.lineIdle e.1)).map (·.1)

/-- The free frames of which no agent holds a line any more: they may be given to another copy. [DEDUCED: log 200] -/
def Dev.readyFrames (d : Dev) (tier : Nat) : List Nat :=
  let held := if tier = 0 then d.liveLines.map (· / 16384) else []
  (d.freeFrames tier).filter (fun f => f ∉ held)

/-- The lines of NEAR frames that agents still hold are called back, and their dirty data written, before the frames are used again.
[DEDUCED: log 200] -/
def Dev.flushFrames (d : Dev) (fs : List Nat) : Dev :=
  Dev.asParty 0 (fun d => ((d.liveLines.filter (fun l => (l / 16384) ∈ fs)).foldl setIns []).foldl (fun d l => d.syncLine .store l) d) d

/-- A frame becomes all zeros with fresh check bits and no dirty bit. -/
def Dev.clearFrame (d : Dev) (tier f : Nat) : Dev :=
  let a := frameAddr tier f
  let out := fun (k lo n : Nat) => k < lo || lo + n ≤ k
  { d with mem := { d.mem with
      bytes := d.mem.bytes.filter (fun e => out e.1 a (2 ^ 21)), marks := d.mem.marks.filter (fun e => out e.1 (a / 64) 32768)
      ecc := d.mem.ecc.filter (fun e => out e.1 (a / 64) 32768), writeBack := d.mem.writeBack.filter (fun k => out k (a / 64) 32768)
      dirty := Tab.set false d.mem.dirty (frameOf a) false } }

def Dev.clearFrames (d : Dev) (tier : Nat) : List Nat → Dev
  | [] => d
  | f :: fs => (d.clearFrame tier f).clearFrames tier fs

/-- An MMAP frame (R416, R417). -/
def Dev.sendMmap (d : Dev) (ri part tier f : Nat) (unmap : Bool) : Dev := d.pairSend (ri % 12) 3 (tier + f * 2 + b2n unmap * 2 ^ 20 + part * 2 ^ 21) []

/-- Whether frames of a copy still wait in the bulk load: new frames of it then follow them there, so that its list keeps its order. -/
def Dev.bulkCopy (d : Dev) (ri slot : Nat) : Bool :=
  d.pair.bulkQueue.any (fun b => match b with
    | .map t f => Tab.find? d.ver.frames (frameKey t f) == some (ri, slot)
    | _ => false)

/-- Adds frames to the bulk load. -/
def Dev.bulkFrames (d : Dev) (tier : Nat) (fs : List Nat) : Dev :=
  { d with pair := { d.pair with bulkQueue := d.pair.bulkQueue ++ fs.map (fun f => .map tier f) ++ fs.map (fun f => .pages f tier 0) } }

/-- A frame is unmapped at the partner, unless it still waits in the bulk load. -/
def Dev.unmapFrame (d : Dev) (ri part tier f : Nat) : Dev :=
  let waits := BulkItem.map tier f ∈ d.pair.bulkQueue
  let keep := fun (b : BulkItem) => match b with | .map t g => !(t == tier && g == f) | .pages g t _ => !(t == tier && g == f) | _ => true
  let d := { d with pair := { d.pair with bulkQueue := d.pair.bulkQueue.filter keep } }
  if waits then d else d.sendMmap ri part tier f true

/-- Whether the frame lists of a region's copies are sent. -/
def Dev.sendsMaps (d : Dev) (r : Region) : Bool := d.mirrors && r.mirrored

/-- Gives frames to a copy: owned, charged, zeroed and mapped at the partner. -/
def Dev.takeFrames (d : Dev) (ri slot : Nat) (r : Region) (tier : Nat) (fs : List Nat) : Dev :=
  let d := (d.clearFrames tier fs).addCharge r.part tier fs.length
  let d := { d with ver := { d.ver with frames := fs.foldl (fun t f => Tab.insert t (frameKey tier f) (ri, slot)) d.ver.frames } }
  if !d.sendsMaps r then d else if d.bulkCopy ri slot then d.bulkFrames tier fs else fs.foldl (fun d f => d.sendMmap ri r.part tier f false) d

/-- Frees the frames of a copy. -/
def Dev.dropFrames (d : Dev) (ri : Nat) (r : Region) (tier : Nat) (fs : List Nat) : Dev :=
  let d := (if tier = 0 then d.flushFrames fs else d).subCharge r.part tier fs.length
  let d := { d with ver := { d.ver with frames := fs.foldl (fun t f => Tab.erase t (frameKey tier f)) d.ver.frames } }
  if d.sendsMaps r then fs.foldl (fun d f => d.unmapFrame ri r.part tier f) d else d

/-- Number of a frame in the mirror map: NEAR frames, then STRATUM frames. -/
def mapIndex (key : Nat) : Nat := if key < 2 ^ 20 then key else 15360 + (key - 2 ^ 20)

/-- Sets or clears an entry of the mirror map, in memory too; an entry holds its own frame number plus 1. -/
def Dev.setMirror (d : Dev) (key own part : Nat) : Dev :=
  let d := { d with pair := { d.pair with mirror := Tab.set 0 d.pair.mirror key own, mirrorPart := Tab.set 0 d.pair.mirrorPart key part } }
  d.storeTable (d.reg PAIR_MAP_BASE + 4 * mapIndex key) (leBytes 4 (if own = 0 then 0 else (own - 1) % 2 ^ 20 + 1))

/-- Removes a copy held for the partner: nothing is sent, and its frames leave the mirror map. -/
def Dev.dropMirrorCopy (d : Dev) (ri slot : Nat) (r : Region) (w : WCopy) : Dev :=
  let keys := w.frames.map (frameKey w.tier)
  let d := d.subCharge r.part w.tier w.frames.length
  let d := { d with ver := { d.ver with frames := keys.foldl (fun (t : Tab (Nat × Nat)) k => Tab.erase t k) d.ver.frames
                                        regions := Tab.insert d.ver.regions ri { r with copies := Tab.erase r.copies slot } } }
  ((d.pair.mirror.filter (fun (e : Nat × Nat) => (e.2 - 1) ∈ keys)).map (·.1)).foldl (fun (d : Dev) k => d.setMirror k 0 0) d

/-- Removes a working copy. -/
def Dev.dropWCopy (d : Dev) (ri slot : Nat) : Dev :=
  match Tab.find? d.ver.regions ri with
  | none => d
  | some r =>
    match Tab.find? r.copies slot with
    | none => d
    | some w =>
      if w.mirror then d.dropMirrorCopy ri slot r w
      else (d.dropFrames ri r w.tier w.frames).putRegion ri { r with copies := Tab.erase r.copies slot } slot

/-- Changes a working copy's record. -/
def Dev.putWCopy (d : Dev) (ri slot : Nat) (w : WCopy) : Dev :=
  match Tab.find? d.ver.regions ri with
  | none => d
  | some r => { d with ver := { d.ver with regions := Tab.insert d.ver.regions ri { r with copies := Tab.insert r.copies slot w } } }

def Dev.copyOf (d : Dev) (ri slot : Nat) : Option WCopy := (Tab.find? d.ver.regions ri).bind (fun r => Tab.find? r.copies slot)

/-- Whether some frame of a copy is dirty (R357). -/
def Dev.copyDirty (d : Dev) (w : WCopy) : Bool := w.frames.any (fun f => Tab.get false d.mem.dirty (frameOf (frameAddr w.tier f)))

/-- Content byte x of a copy (R355). -/
def WCopy.addr (w : WCopy) (x : Nat) : Nat := frameAddr w.tier (w.frames.getD (x / 2 ^ 21) 0) + x % 2 ^ 21

/-! ## Trays (R373, R378) -/

def Dev.trayCfgPieces (d : Dev) (t : Nat) : Nat := d.regFld (VER_TRAY_CFG + 8 * t) 1 26

/-- Tray extents that this device allocates from: of a paired device, those of its parity (R413). -/
def Dev.trayExtents (d : Dev) (t : Nat) : List Nat :=
  (List.range (ceilDiv (d.trayCfgPieces t) 256)).filter (fun x => d.pair.state == .unpaired || x % 2 == d.regFld PAIR_CFG 0 1)

def Dev.pieceFree (d : Dev) (t k : Nat) : Bool := k < d.trayCfgPieces t && !Tab.get false (d.trayRec t).used k

/-- The lowest place of a tray extent: a free piece, or 8 aligned free pieces for mirroring. -/
def Dev.roomIn (d : Dev) (t x n : Nat) : Option Nat :=
  ((List.range (256 / n)).map (fun i => x * 256 + i * n)).find? (fun k => (List.range n).all (fun j => d.pieceFree t (k + j)))

def Dev.extRooms (d : Dev) (t n : Nat) : List Nat := (d.trayExtents t).filter (fun x => (d.roomIn t x n).isSome)

def leastOf (l : List Nat) (cost : Nat → Nat) : Option Nat :=
  l.foldl (fun b x => match b with | none => some x | some y => if cost x < cost y then some x else some y) none

def Dev.extCountOf (d : Dev) (t x : Nat) : Nat := Tab.get 0 (d.trayRec t).counts x

/-- wear[t] of R378. -/
def Dev.wear (d : Dev) (t n : Nat) : Nat := ((leastOf (d.extRooms t n) (d.extCountOf t)).map (d.extCountOf t)).getD 0

def Dev.freePieces (d : Dev) (t : Nat) : Nat := d.trayCfgPieces t - (d.trayRec t).used.length

/-- Whether tray t stands before tray u in the order of R378. -/
def Dev.trayBefore (d : Dev) (n t u : Nat) : Bool :=
  d.wear t n < d.wear u n || (d.wear t n == d.wear u n && (d.freePieces u < d.freePieces t || (d.freePieces u == d.freePieces t && t < u)))

/-- HEALTHY trays with room, in the order of R378. [DESIGN CHOICE: log 165] -/
def Dev.candTrays (d : Dev) (n : Nat) (not : List Nat) : List Nat :=
  ((List.range 64).filter (fun t => (d.trayRec t).state == .healthy && !(t ∈ not) && d.extRooms t n != [])).foldl
    (fun l t => l.filter (fun u => !d.trayBefore n t u) ++ t :: l.filter (fun u => d.trayBefore n t u)) []

/-- Takes n pieces on a tray: the first of them. -/
def Dev.takePieces (d : Dev) (t n : Nat) : Dev × Nat :=
  match leastOf (d.extRooms t n) (d.extCountOf t) with
  | none => (d, 0)
  | some x =>
    let k := (d.roomIn t x n).getD 0
    let r := d.trayRec t
    (d.setTray t { r with used := (List.range n).foldl (fun u j => Tab.insert u (k + j) true) r.used
                          counts := Tab.set 0 r.counts x (min (2 ^ 32 - 1) (Tab.get 0 r.counts x + n)) }, k)

def Dev.freePiecesOf (d : Dev) (n : Nat) (pieces : List (Nat × Nat)) : Dev :=
  pieces.foldl (fun d p =>
    let r := d.trayRec p.1
    d.setTray p.1 { r with used := (List.range n).foldl (fun u j => Tab.erase u (p.2 / 64 + j)) r.used }) d

/-- Pieces per list position: 1 under RS(10,8), 8 under mirroring. -/
def piecesPer (policy : Nat) : Nat := if policy = 0 then 1 else 8

/-- Distinct trays that an extent needs. -/
def traysNeeded (policy : Nat) : Nat := match policy with | 0 => 10 | 1 => 2 | _ => 3

/-- Places the pieces of one extent: (tray, first slot) in list position order. -/
def Dev.placeExtent (d : Dev) (policy : Nat) : Dev × Option (List (Nat × Nat)) :=
  let c := d.candTrays (piecesPer policy) []
  if c.length < traysNeeded policy then (d, none)
  else
    let y := (c.take (traysNeeded policy)).foldl (fun (z : Dev × List (Nat × Nat)) t =>
      let k := z.1.takePieces t (piecesPer policy)
      (k.1, z.2 ++ [(t, k.2 * 64)])) (d, [])
    (y.1, some y.2)

def placeExtents (d : Dev) (policy : Nat) : Nat → Dev × Option (List (List (Nat × Nat)))
  | 0 => (d, some [])
  | n + 1 =>
    match d.placeExtent policy with
    | (d, none) => (d, none)
    | (d, some l) =>
      match placeExtents d policy n with
      | (d', some ls) => (d', some (l :: ls))
      | (_, none) => (d, none)

/-! ## Content (R363, R373) -/

/-- The blocks of an extent of a copy: none for POISON; what lies beyond LEN reads as 0. -/
def extentBlocks (d : Dev) (w : WCopy) (ext : Nat) : Nat → Dev × Option (List Bytes)
  | 0 => (d, some [])
  | n + 1 =>
    let b := 512 - (n + 1)
    let x := (ext * 512 + b) * 4096
    if w.len ≤ x then
      let y := extentBlocks d w ext n
      (y.1, y.2.map (zeros 4096 :: ·))
    else
      let r := d.read (w.addr x) 4096
      let y := extentBlocks r.1 w ext n
      (y.1, if r.2.2 = [] then y.2.map (fun l => (slice r.2.1 0 (min 4096 (w.len - x)) ++ zeros (4096 - min 4096 (w.len - x))) :: l) else none)

/-- The blocks of n extents of a copy. -/
def copyExtents (d : Dev) (w : WCopy) : Nat → Nat → Dev × Option (List (List Bytes))
  | 0, _ => (d, some [])
  | n + 1, i =>
    let x := extentBlocks d w i 512
    let y := copyExtents x.1 w n (i + 1)
    (y.1, match x.2, y.2 with | some a, some b => some (a :: b) | _, _ => none)

/-- The slots that lie at list position i of an extent whose sealed blocks are given. -/
def positionSlots (policy i : Nat) (slots : List Bytes) : List Bytes :=
  if policy = 0 then
    (List.range 64).map (fun s =>
      let row := (List.range 8).map (fun j => slots.getD (s * 8 + j) [])
      if i < 8 then row.getD i [] else if i = 8 then checkP (row.map fullSlot) else checkQ (row.map fullSlot))
  else slots

/-! ## Piece writes (R373, R442) -/

def pieceKey (tray piece : Nat) : Nat := tray * 2 ^ 26 + piece

/-- The WRs of a slot: its granules, at most 4,096 B each. [DESIGN CHOICE: log 177] -/
def slotWrites (w : PieceWrite) (tray piece slot : Nat) (bs : Bytes) : List Purpose :=
  .pieceWr w.ext w.pos tray piece slot false :: (if 4096 < bs.length then [.pieceWr w.ext w.pos tray piece slot true] else [])

/-- The slots of a list position are to be written to their pieces on a tray. -/
def Dev.queuePiece (d : Dev) (w : PieceWrite) (tray piece : Nat) (slots : List Bytes) : Dev :=
  let ws := slots.zipIdx.flatMap (fun e => slotWrites w tray piece e.2 e.1)
  let d := slots.zipIdx.foldl (fun (d : Dev) e => d.slotWrite tray (piece * 64 + e.2) e.1) d
  { d with ver := { d.ver with writes := d.ver.writes ++ ws, pieceWrs := Tab.insert d.ver.pieceWrs (pieceKey tray piece) { w with left := ws.length, bad := false } } }

/-- Sends one WR of a piece. False where no tag is free. [DESIGN CHOICE: log 177] -/
def Dev.sendPiece (d : Dev) (p : Purpose) : Dev × Bool :=
  match p with
  | .pieceWr _ _ tray piece slot tail =>
    let bs := Tab.get [] d.ver.outgoing (slotKey tray (piece * 64 + slot))
    let part := if tail then bs.drop 4096 else bs.take 4096
    d.trayReq tray 1 ((piece * 64 + slot) * 4352 + if tail then 4096 else 0) part.length part p
  | _ => (d, true)

/-- Sends the WRs that wait, as far as the tags of their trays go. -/
def Dev.pumpWrites (d : Dev) : Dev :=
  d.ver.writes.foldl (fun (d : Dev) p =>
    let y := d.sendPiece p
    if y.2 then y.1 else { y.1 with ver := { y.1.ver with writes := y.1.ver.writes ++ [p] } }) { d with ver := { d.ver with writes := [] } }

/-- A WR of a piece that is no longer wanted: its answer finds nothing. -/
def Purpose.unwanted (tray piece : Nat) (p : Purpose) : Purpose :=
  match p with
  | .pieceWr _ pos t k slot tail => if t = tray ∧ k = piece then .pieceWr (2 ^ 29) pos t k slot tail else p
  | _ => p

/-- The write of a list position of n pieces ends, or is given up: what it kept goes. -/
def Dev.dropPieceWr (d : Dev) (n tray piece : Nat) : Dev :=
  let ours := fun (p : Purpose) => match p with | .pieceWr _ _ t k _ _ => t == tray && k == piece | _ => false
  { d with
    ver := { d.ver with
      pieceWrs := Tab.erase d.ver.pieceWrs (pieceKey tray piece), writes := d.ver.writes.filter (fun p => !ours p)
      outgoing := d.ver.outgoing.filter (fun e => e.1 < slotKey tray (piece * 64) || slotKey tray ((piece + n) * 64) ≤ e.1) }
    txn := { d.txn with req := d.txn.req.map (fun e => (e.1, { e.2 with purpose := e.2.purpose.unwanted tray piece })) } }

/-- Seals an extent's blocks and lays them on the trays; each block counts once, with its granules (R462). [DEDUCED: log 179] -/
def Dev.writeExtent (d : Dev) (r : Region) (ri num base ext : Nat) (pieces : List (Nat × Nat)) (blocks : List Bytes) : Dev :=
  let name := fun b => ({ part := r.part, shared := r.shared, region := regionWord { index := ri, gen := r.gen }, version := num,
                          block := ext * 512 + b } : BlockName)
  let slots := blocks.zipIdx.map (fun e => d.sealNamed (name e.2) e.1)
  let d := ((d.bumpBy VER_SEAL_BLK_CNT slots.length).bumpBy VER_SEAL_RAW_CNT (slots.countP (fun s => leAt s 1 1 == 1))).bumpBy VER_SEAL_GRAN_CNT
    (slots.map (fun s => leAt s 0 1)).sum
  pieces.zipIdx.foldl (fun d p =>
    d.queuePiece { region := ri, version := num, ext := base + ext, pos := p.2, left := 0, bad := false, rebuild := false } p.1.1 (p.1.2 / 64)
      (positionSlots r.policy p.2 slots)) d

/-! ## Draining (R370 to R372) -/

/-- The extents of a version, by index. -/
def versionExtents (v : Version) : List Nat := (List.range (ceilDiv v.len (2 ^ 21))).map (· + v.base)

def Dev.verEvent (d : Dev) (bit : Nat) : Dev := d.event VER_EVT bit (d.regFld VER_CFG 0 1 == 1)

/-- Whether some extent of a version is LIVE. -/
def Dev.someLive (d : Dev) (v : Version) : Bool := (versionExtents v).any (fun i => (Tab.find? d.ver.extents i).any (fun e => e.state == .live))

/-- A version is to drain; who asked waits for its end. [DEDUCED: log 169] -/
def Dev.drain (d : Dev) (ri num : Nat) (a : Asker) (body : Bytes) : Dev :=
  match d.version ri num, Tab.find? d.ver.regions ri with
  | some v, some r =>
    if v.state = .draining then d.putVersion ri num { v with askers := v.askers ++ [(a, body)] }
    else
      let d := (d.bump VER_REVOKE_CNT).putVersion ri num { v with state := .draining, askers := v.askers ++ [(a, body)] }
      if v.state = .head then d.putRegion ri { r with head := 0 } 16 else d
  | _, _ => d

/-- The extents of a version that is to drain enter DRAINING, at a cue boundary, and agents are told (R370, R372). [DEDUCED: log 169] -/
def Dev.drainBegin (d : Dev) (v : Version) : Dev :=
  let part := ((Tab.find? d.ver.extents v.base).map (·.part)).getD 16
  let d := (versionExtents v).foldl (fun d i => match Tab.find? d.ver.extents i with
    | some e => if e.state = .live then d.putExtent i (some { e with state := .draining }) else d
    | none => d) d
  d.startEvt ((d.upLinks 1).filter (fun k => d.linkCarries k part)) 4 (v.base + (ceilDiv v.len (2 ^ 21) - 1) * 2 ^ 29) 2 8

/-- The boundary of every version that is to drain. -/
def Dev.drainCue (d : Dev) : Dev :=
  (d.ver.versions.filter (fun e => e.2.state == .draining && d.someLive e.2)).foldl (fun d e => d.drainBegin e.2) d

/-- Whether a read of a version is in flight (R371): a block read, an access that waits for its blocks, or a gather's fetch. -/
def Dev.verInFlight (d : Dev) (ri num : Nat) (v : Version) : Bool :=
  let lo := v.base * 512
  let hi := (v.base + ceilDiv v.len (2 ^ 21)) * 512
  d.gth.fetches.any (fun f => (d.gslot f.slot).region.index == ri && f.version == num) || d.ver.blks.any (fun b => lo ≤ b.2.blk && b.2.blk < hi) ||
    d.ver.reads.any (fun r => (blocksOf r.off r.n).any (fun k => lo ≤ k && k < hi))

/-- The record of a region that is being destroyed becomes FREE once no version is left (R353). -/
def Dev.settleRegion (d : Dev) (ri : Nat) : Dev :=
  match Tab.find? d.ver.regions ri with
  | some r =>
    match r.dying with
    | some a => if d.ver.versions.any (fun e => e.1 / 2 ^ 32 == ri) then d else (d.freeRegion ri).answer d a .ok []
    | none => d
  | none => d

/-- Nothing of a draining version is in flight any more: its extents are REVOKED, its pieces and its record freed (R370). -/
def Dev.drainDoneVer (d : Dev) (ri num : Nat) : Dev :=
  match d.version ri num with
  | some v =>
    if v.state = .draining ∧ !d.someLive v ∧ !d.verInFlight ri num v then
      let x := (versionExtents v).foldl (fun d i => match Tab.find? d.ver.extents i with
        | some e => (d.freePiecesOf (piecesPer e.policy) e.pieces).putExtent i (some { e with state := .revoked, pieces := [], revokedAt := d.tb.cueCount })
        | none => d) d
      let x := x.freeVersion ri num
      let x := v.askers.foldl (fun y a => y.answer d a.1 .ok a.2) x
      x.settleRegion ri
    else d
  | none => d

/-- An extent leaves REVOKED 4,000,000 cues after it entered it (R368). -/
def Dev.quarantine (d : Dev) (i : Nat) : Dev :=
  match Tab.find? d.ver.extents i with
  | some e => if e.state = .revoked ∧ e.revokedAt + 4000000 ≤ d.tb.cueCount then (d.putExtent i none).subCharge e.part 2 1 else d
  | none => d

/-! ## PUBLISH, OPEN and CLOSE (R364 to R366) -/

/-- The compare-and-set on HEAD. -/
def Dev.publish (d : Dev) (ri num expect : Nat) : Dev × Status :=
  match Tab.find? d.ver.regions ri with
  | none => (d, .badRequest)
  | some r =>
    let x := d.version ri num
    if num = 0 ∨ r.next ≤ num ∨ x.any (·.state == .sealing) then (d, .badRequest)
    else match x with
    | none => (d, .revoked)
    | some v =>
      if v.state = .draining then (d, .revoked)
      else if r.head ≠ expect then (d.bump VER_CONFLICT_CNT, .versionConflict)
      else if r.head = num then (d, .ok)
      else
        let d := match d.version ri r.head with
          | some o =>
            let d := d.putVersion ri r.head { o with state := .superseded }
            if o.holders = 0 then d.drain ri r.head .none [] else d
          | none => d
        let r := (Tab.find? d.ver.regions ri).getD r
        ((d.putRegion ri { r with head := num } 16).putVersion ri num { v with state := .head }, .ok)

def Dev.headOf (d : Dev) (ri : Nat) : Nat := ((Tab.find? d.ver.regions ri).map (·.head)).getD 0

/-- Adds a holder: the version, or why not. Version 0 is HEAD. -/
def Dev.openVer (d : Dev) (ri num : Nat) : Dev × Status × Nat :=
  match Tab.find? d.ver.regions ri with
  | none => (d, .badRequest, 0)
  | some r =>
    let n := if num = 0 then r.head else num
    if n = 0 ∨ r.next ≤ n then (d, .badRequest, 0)
    else match d.version ri n with
    | none => (d, .revoked, 0)
    | some v =>
      if v.state = .sealing then (d, .badRequest, 0)
      else if v.state = .draining then (d, .revoked, 0)
      else if 65535 ≤ v.holders then (d, .busy, 0)
      else (d.putVersion ri n { v with holders := v.holders + 1 }, .ok, n)

/-- Removes a holder; a SUPERSEDED version without holders drains, and then its CLOSE completes with it. -/
def Dev.closeVer (d : Dev) (ri num : Nat) (a : Asker) : Dev :=
  match d.version ri num with
  | some v =>
    if v.holders = 0 then d.tell a .badRequest []
    else
      let x := d.putVersion ri num { v with holders := v.holders - 1 }
      if v.state = .superseded ∧ v.holders = 1 then x.drain ri num a (leBytes 8 0) else x.answer d a .ok (leBytes 8 (v.holders - 1))
  | none =>
    let n := Tab.get 0 d.ver.gone (d.goneKey ri num)
    if n = 0 then d.tell a .badRequest []
    else ({ d with ver := { d.ver with gone := Tab.set 0 d.ver.gone (d.goneKey ri num) (n - 1) } } : Dev).tell a .ok (leBytes 8 (n - 1))

/-- The same for a holder that names the region by its ID: one that has been reused since holds none (R351). -/
def Dev.closeHeld (d : Dev) (r : RegionId) (num : Nat) : Dev :=
  match Tab.find? d.ver.regions r.index with
  | some x => if x.gen = r.gen then d.closeVer r.index num .none else d
  | none => d

/-! ## SEAL (R361 to R363, R373) -/

/-- The copy that a version is sealed from is no longer being sealed. -/
def Dev.unsealCopy (d : Dev) (ri slot num : Nat) (base : Option Nat) : Dev :=
  match d.copyOf ri slot with
  | some w => if w.sealing = some num then d.putWCopy ri slot { w with sealing := none, base := base.getD w.base } else d
  | none => d

/-- The frames that a failed SEAL cleared are dirty again, so that a clean copy still equals BASE_VER (R357). [DEDUCED: log 178] -/
def Dev.redirty (d : Dev) (v : Version) : Dev :=
  { d with mem := { d.mem with dirty := v.cleaned.foldl (fun t f => Tab.set false t f true) d.mem.dirty } }

/-- A SEAL fails: what it wrote and its records are freed, and nothing is kept (R362). [DEDUCED: log 178] -/
def Dev.sealFail (d : Dev) (ri num : Nat) (st : Status) : Dev :=
  match d.version ri num, Tab.find? d.ver.regions ri with
  | some v, some r =>
    let x := (versionExtents v).foldl (fun d i => match Tab.find? d.ver.extents i with
      | some e =>
        let d := e.pieces.foldl (fun (d : Dev) p => d.dropPieceWr (piecesPer e.policy) p.1 (p.2 / 64)) d
        (d.freePiecesOf (piecesPer e.policy) e.pieces).putExtent i none
      | none => d) d
    let x := (x.subCharge r.part 2 (versionExtents v).length).freeVersion ri num
    let x := (x.unsealCopy ri v.slot num none).redirty v
    let x := { x with ver := { x.ver with gone := Tab.erase x.ver.gone (d.goneKey ri num), seals := x.ver.seals.filter (· ≠ (ri, num)) } }
    let x := match x.copyOf ri v.slot with
      | some w => x.putWCopy ri v.slot { w with evicting := false }
      | none => x
    v.askers.foldl (fun y a => y.answer d a.1 st []) x
  | _, _ => d

/-- Every piece of a version is written: it is SEALED, and PUB or an eviction goes on (R360, R363). [DEDUCED: log 178] -/
def Dev.sealDone (d : Dev) (ri num : Nat) : Dev :=
  match d.version ri num with
  | none => d
  | some v =>
    let evicting := (d.copyOf ri v.slot).any (fun w => w.evicting && w.sealing == some num)
    let base := ((d.copyOf ri v.slot).map (·.base)).getD 0
    let x := d.putVersion ri num { v with state := .sealed, askers := [], cleaned := [] }
    let ok := fun (x : Dev) => x.unsealCopy ri v.slot num (some num)
    if evicting then
      let y := (ok x).publish ri num base
      let z := if y.2 = .versionConflict then
          (y.1.verEvent 1).report 0x52 1 (mkOrigin 7 (ri % 12) 0 0 (((Tab.find? d.ver.regions ri).map (·.part)).getD 0))
            (regionWord { index := ri, gen := ((Tab.find? d.ver.regions ri).map (·.gen)).getD 0 }) num 0
        else y.1
      (z.dropWCopy ri v.slot).bump VER_EVICT_CNT
    else match v.pub with
      | none => v.askers.foldl (fun y a => y.answer d a.1 .ok (leBytes 8 num)) (ok x)
      | some e =>
        let y := x.publish ri num e
        if y.2 = .ok then v.askers.foldl (fun z a => z.answer d a.1 .ok (leBytes 8 num)) (ok y.1)
        else
          let z := ((y.1.unsealCopy ri v.slot num none).redirty v).drain ri num .none []
          v.askers.foldl (fun z a => z.answer d a.1 y.2 (leBytes 8 (z.headOf ri))) z

/-- A tray for the pieces of an extent's list position, other than those that hold the extent. -/
def Dev.otherTray (d : Dev) (e : Extent) : Option Nat := (d.candTrays (piecesPer e.policy) (e.pieces.map (·.1))).head?

/-- The pieces of a list position lie at a new place from now on. -/
def Dev.movePiece (d : Dev) (ext pos tray piece : Nat) (e : Extent) : Dev :=
  d.putExtent ext (some { e with pieces := e.pieces.set pos (tray, piece * 64) })

/-- The slots of a piece as they were to be written. -/
def Dev.pieceSlots (d : Dev) (policy tray piece : Nat) : List Bytes :=
  (List.range (64 * piecesPer policy)).map (fun s => Tab.get [] d.ver.outgoing (slotKey tray (piece * 64 + s)))

/-- The rebuild of a list position of an extent ends. -/
def Dev.dropRebuild (d : Dev) (ext pos : Nat) : Dev :=
  { d with ver := { d.ver with rebuilds := d.ver.rebuilds.filter (fun r => !(r.ext == ext && r.pos == pos)) } }

def Dev.setRebuild (d : Dev) (r : Rebuild) : Dev :=
  { d with ver := { d.ver with rebuilds := d.ver.rebuilds.map (fun x => if x.tray = r.tray ∧ x.piece = r.piece then r else x) } }

/-- A tray from which no piece must be moved any more is EMPTY (R377). -/
def Dev.rebuildEnd (d : Dev) (t : Nat) : Dev :=
  if (d.trayRec t).state = .rebuilding ∧ !d.ver.extents.any (fun e => e.2.pieces.any (fun p => p.1 == t)) then
    (d.setTray t { (d.trayRec t) with state := .empty, misses := 0 }).verEvent 3
  else d

/-- The new piece of a rebuild is written: the extent record, and reads with it, are switched to it (R377). -/
def Dev.rebuilt (d : Dev) (w : PieceWrite) (tray piece : Nat) (e : Extent) : Dev :=
  let old := e.pieces.getD w.pos (0, 0)
  let n := piecesPer e.policy
  ((((d.dropPieceWr n tray piece).movePiece w.ext w.pos tray piece e).freePiecesOf n [old]).dropRebuild w.ext w.pos).rebuildEnd old.1

/-- The writes of a list position cannot be made: its SEAL fails, or the piece stays where it was. -/
def Dev.pieceLost (d : Dev) (w : PieceWrite) (tray piece : Nat) (e : Extent) : Dev :=
  let n := piecesPer e.policy
  if w.rebuild then ((d.dropPieceWr n tray piece).freePiecesOf n [(tray, piece * 64)]).dropRebuild w.ext w.pos
  else d.sealFail w.region w.version .busy

/-- The writes of a list position are all answered: OK, or they are made again on another tray (R373, R377). -/
def Dev.pieceDone (d : Dev) (w : PieceWrite) (tray piece : Nat) : Dev :=
  match Tab.find? d.ver.extents w.ext with
  | none => d.dropPieceWr 1 tray piece
  | some e =>
    let n := piecesPer e.policy
    if e.pieces.length ≤ w.pos then d.pieceLost w tray piece e
    else if !w.bad then
      if w.rebuild then d.rebuilt w tray piece e
      else match d.version w.region w.version with
        | none => d.dropPieceWr n tray piece
        | some v =>
          let d := (d.dropPieceWr n tray piece).putVersion w.region w.version { v with pending := v.pending - 1 }
          if v.pending ≤ 1 then d.sealDone w.region w.version else d
    else match d.otherTray e with
    | none => d.pieceLost w tray piece e
    | some t =>
      let slots := d.pieceSlots e.policy tray piece
      let k := d.takePieces t n
      let d := (k.1.dropPieceWr n tray piece).freePiecesOf n [(tray, piece * 64)]
      let d := if w.rebuild then
          { d with ver := { d.ver with rebuilds := d.ver.rebuilds.map (fun r =>
              if r.ext = w.ext ∧ r.pos = w.pos then { r with toTray := t, toPiece := k.2 } else r) } }
        else d.movePiece w.ext w.pos t k.2 e
      (d.queuePiece w t k.2 slots).pumpWrites

/-- The answer to a WR of a piece. [DESIGN CHOICE: log 177] -/
def Dev.pieceAnswer (d : Dev) (ext pos tray piece : Nat) (ok : Bool) : Dev :=
  match Tab.find? d.ver.pieceWrs (pieceKey tray piece) with
  | none => d
  | some w =>
    if w.ext ≠ ext ∨ w.pos ≠ pos then d
    else
      let w := { w with left := w.left - 1, bad := w.bad || !ok }
      if w.left = 0 then d.pieceDone w tray piece
      else { d with ver := { d.ver with pieceWrs := Tab.insert d.ver.pieceWrs (pieceKey tray piece) w } }

/-- Bases of runs of n FREE extent indices. -/
def Dev.freeRuns (d : Dev) (n : Nat) : List Nat :=
  (d.ownHalf d.extCount).filter (fun b => (List.range n).all (fun i => (b + i) ∈ d.ownHalf d.extCount && (Tab.find? d.ver.extents (b + i)).isNone))

/-- Free version-table records. -/
def Dev.freeVerRecs (d : Dev) : List Nat := (d.ownHalf d.verCount).filter (fun i => !d.ver.versions.any (fun e => e.2.index == i))

/-- A SEAL of len bytes of a copy is decided: a new version in SEALING with its extents and pieces, or why not. -/
def Dev.sealNew (d : Dev) (ri slot : Nat) (r : Region) (w : WCopy) (pub : Option Nat) (force : Bool) (askers : List (Asker × Bytes)) (len : Nat) : Dev × Status :=
  let n := ceilDiv len (2 ^ 21)
  let full := d.quota r.part 2 < d.charge r.part 2 + n
  if full ∧ !force then (d, .quota)
  else if r.shared ∧ d.sec.seed.isNone then (d, .busy)
  else if 0xFFFFFFFF ≤ r.next then (d, .limit)
  else
    let b := d.pickOne 2 (d.freeRuns n)
    let i := b.1.pickOne 3 (b.1.freeVerRecs)
    let p := placeExtents i.1 r.policy n
    match b.2, i.2, p.2 with
    | some base, some index, some places =>
      let x := if full then p.1.verEvent 4 else p.1
      let x := x.addCharge r.part 2 n
      let x := x.putRegion ri { r with next := r.next + 1, copies := Tab.insert r.copies slot { w with sealing := some r.next } } slot
      let x := x.putVersion ri r.next { state := .sealing, base := base, len := len, holders := 0, pending := n * (places.getD 0 []).length, slot := slot,
                                        pub := pub, askers := askers, index := index, cleaned := [] }
      (places.zipIdx.foldl (fun d e =>
        d.putExtent (base + e.2) (some { state := .live, part := r.part, region := ri, version := r.next, policy := r.policy, pieces := e.1, revokedAt := 0 })) x, .ok)
    | _, _, _ => (d, .busy)

/-- The content of a version in SEALING is read: it is sealed and goes to the trays; the dirty bits of the frames read are cleared. -/
def Dev.sealFill (d : Dev) (ri num : Nat) (clean : List Nat) (blocks : List (List Bytes)) : Dev :=
  match d.version ri num, Tab.find? d.ver.regions ri with
  | some v, some r =>
    let x := d.putVersion ri num { v with cleaned := clean.filter (Tab.get false d.mem.dirty) }
    let x := { x with mem := { x.mem with dirty := clean.foldl (fun t f => Tab.set false t f false) x.mem.dirty } }
    (blocks.zipIdx.foldl (fun d e => d.writeExtent r ri num v.base e.2 (((Tab.find? d.ver.extents (v.base + e.2)).map (·.pieces)).getD []) e.1) x).pumpWrites
  | _, _ => d

/-- A SEAL whose content a party of the device puts together at once; none: it is lost. -/
def Dev.startSealOf (d : Dev) (ri slot : Nat) (r : Region) (w : WCopy) (len : Nat) (clean : List Nat) (content : Dev → Dev × Option (List (List Bytes))) :
    Dev × Status :=
  let x := d.sealNew ri slot r w none false [] len
  if x.2 ≠ .ok then x
  else
    let c := content x.1
    match c.2 with
    | none => (c.1.sealFail ri r.next .poison, .poison)
    | some blocks => (c.1.sealFill ri r.next clean blocks, .ok)

/-- The ranges of a copy's frames. -/
def WCopy.ranges (w : WCopy) : List (Nat × Nat) := w.frames.map (fun f => (frameAddr w.tier f, 2 ^ 21))

/-- The keys of a copy's dirty bits. -/
def WCopy.dirtyKeys (w : WCopy) : List Nat := w.frames.map (fun f => frameOf (frameAddr w.tier f))

/-- The party that a SEAL of a slot reads as, and that a LOAD into it reads and writes as. -/
def sealParty (ri slot : Nat) : Nat := 8 * (ri * 16 + slot) + 5
def placeParty (ri slot : Nat) : Nat := 8 * (ri * 16 + slot) + 6

/-- The content of a version in SEALING is read once the lines that agents hold have come (R189). -/
def Dev.sealRead (d : Dev) (ri num : Nat) : Dev :=
  match d.version ri num with
  | none => { d with ver := { d.ver with seals := d.ver.seals.filter (· ≠ (ri, num)) } }
  | some v =>
    match d.copyOf ri v.slot with
    | none => d.sealFail ri num .aborted
    | some w =>
      Dev.asParty (sealParty ri v.slot) (fun d => d.whenReady w.ranges [] (fun d =>
        let c := copyExtents d w (ceilDiv w.len (2 ^ 21)) 0
        let x := { c.1 with ver := { c.1.ver with seals := c.1.ver.seals.filter (· ≠ (ri, num)) } }
        match c.2 with
        | none => x.sealFail ri num .poison
        | some blocks => x.sealFill ri num w.dirtyKeys blocks)) d

/-- The SEAL of a whole copy: decided now, its content read as soon as it can be. [DEDUCED: log 69] -/
def Dev.startSeal (d : Dev) (ri slot : Nat) (r : Region) (w : WCopy) (pub : Option Nat) (force : Bool) (askers : List (Asker × Bytes)) : Dev × Status :=
  let x := d.sealNew ri slot r w pub force askers w.len
  if x.2 ≠ .ok then x
  else (({ x.1 with ver := { x.1.ver with seals := x.1.ver.seals ++ [(ri, r.next)] } } : Dev).sealRead ri r.next, .ok)

/-- SEAL of a slot. [DEDUCED: log 69] -/
def Dev.sealSlot (d : Dev) (ri slot : Nat) (pub : Option Nat) (a : Asker) : Dev :=
  match Tab.find? d.ver.regions ri, d.copyOf ri slot with
  | some r, some w =>
    if w.sealing.isSome ∨ w.evicting then d.tell a .busy []
    else
      let z := d.startSeal ri slot r w pub false [(a, [])]
      if z.2 = .ok then z.1 else z.1.tell a z.2 []
  | _, _ => d.tell a .badRequest []

/-! ## Eviction (R359, R360) -/

/-- Copies that may be evicted from a tier: (AGE, region, slot), for the partitions that a test admits. -/
def Dev.evictable (d : Dev) (tier : Nat) (ok : Nat → Bool) : List (Nat × Nat × Nat) :=
  d.ver.regions.flatMap (fun e =>
    if ok e.2.part then
      (e.2.copies.filter (fun c => c.2.tier == tier && c.2.pins == 0 && !c.2.evicting && c.2.sealing.isNone && !c.2.mirror)).map (fun c => (c.2.age, e.1, c.1))
    else [])

def oldest (l : List (Nat × Nat × Nat)) : Option (Nat × Nat × Nat) :=
  l.foldl (fun b x => match b with
    | none => some x
    | some y => if x.1 < y.1 || (x.1 == y.1 && (x.2.1 < y.2.1 || (x.2.1 == y.2.1 && x.2.2 < y.2.2))) then some x else some y) none

/-- Copies of a tier that are EVICTING: (region, slot). -/
def Dev.evicting (d : Dev) (tier : Nat) : List (Nat × Nat) :=
  d.ver.regions.flatMap (fun e => (e.2.copies.filter (fun c => c.2.evicting && c.2.tier == tier)).map (fun c => (e.1, c.1)))

/-- Frames of a list of copies, of the partitions that a test admits. -/
def Dev.framesIn (d : Dev) (l : List (Nat × Nat)) (ok : Nat → Bool) : Nat :=
  (l.map (fun v => if ok (((Tab.find? d.ver.regions v.1).map (·.part)).getD 16) then ((d.copyOf v.1 v.2).map (·.frames.length)).getD 0 else 0)).sum

/-- The victims of R359 in order, or none for BUSY: taken are the copies whose frames are on their way, those already EVICTING among them, with
the charges that follow; short is how many frames are wanting. The number bounds the copies. [DEDUCED: log 71] -/
def Dev.planEvict (d : Dev) (p tier n short : Nat) : Nat → List (Nat × Nat) → Option (List (Nat × Nat))
  | 0, _ => none
  | fuel + 1, taken =>
    if short ≤ d.framesIn taken (fun _ => true) then some taken
    else
      let ch := fun q => d.charge q tier - d.framesIn taken (· == q)
      let own := d.reserveOf p tier < ch p + n
      let l := (d.evictable tier (fun q => if own then q == p else q != p && d.reserveOf q tier < ch q)).filter (fun v => !((v.2.1, v.2.2) ∈ taken))
      match oldest l with
      | none => none
      | some v => d.planEvict p tier n short fuel (taken ++ [(v.2.1, v.2.2)])

/-- Evicts a copy: a clean one is dropped, a dirty one is sealed first; false says that its SEAL cannot start. [DEDUCED: log 71] -/
def Dev.evict (d : Dev) (ri slot : Nat) : Dev × Bool :=
  match Tab.find? d.ver.regions ri, d.copyOf ri slot with
  | some r, some w =>
    if !d.copyDirty w then ((d.dropWCopy ri slot).bump VER_EVICT_CNT, true)
    else
      let w : WCopy := { w with evicting := true }
      let s := d.startSeal ri slot { r with copies := Tab.insert r.copies slot w } w none true []
      if s.2 = .ok then (s.1, true) else (d, false)
  | _, _ => (d, true)

/-- Frames of a tier promised to the first k PLACEs and LOADs in progress, as far as they still wait for them, in the partitions that a test admits. -/
def Dev.promised (d : Dev) (tier k : Nat) (ok : Nat → Bool) : Nat :=
  ((d.ver.places.take k).map (fun j =>
    if !j.built && j.tier == tier && ok (((Tab.find? d.ver.regions j.region).map (·.part)).getD 16) then ceilDiv j.len (2 ^ 21) else 0)).sum

/-- Makes room for n frames of a tier, beside those promised to the first k PLACEs and LOADs: true once they are free; else the status, or OK where
evictions are under way. Copies already EVICTING count as on their way, and a request that has had its evictions chooses no more. [DEDUCED: log 71] -/
def Dev.makeRoom (d : Dev) (p tier n k : Nat) (waited : Bool) : Dev × Bool × Status :=
  let want := n + d.promised tier k (fun _ => true)
  if d.quota p tier < d.charge p tier + d.promised tier k (· == p) + n then (d, false, .quota)
  else if want ≤ (d.readyFrames tier).length then (d, true, .ok)
  else match d.planEvict p tier n (want - (d.freeFrames tier).length) ((d.evictable tier (fun _ => true)).length + 1) (d.evicting tier) with
    | none => (d, false, .busy)
    | some l =>
      let new := l.drop (d.evicting tier).length
      if waited ∧ new ≠ [] then (d, false, .busy)
      else
        let y := new.foldl (fun (z : Dev × Bool) v => if z.2 then z.1.evict v.1 v.2 else z) (d, true)
        (y.1, y.2 && want ≤ (y.1.readyFrames tier).length, if y.2 then .ok else .busy)

/-! ## PLACE and LOAD (R353, R355) -/

/-- Whether LIST may be written: the partition's fixed space, or LOCAL of the asking context (R355). [DEDUCED: log 74] -/
def Dev.listStatus (d : Dev) (p : Nat) (a : Asker) (list n : Nat) : Status :=
  if spaceOf list = 0 then
    (match a with
     | .prim _ _ _ _ _ _ => if list + n ≤ 0x30000 then .ok else .badRequest
     | _ => .badRequest)
  else joinStatus (d.checkAccess p list n true) (if d.inFixed list n then .ok else .badRequest)

def Dev.writeList (d : Dev) (a : Asker) (list : Nat) (bs : Bytes) : Dev :=
  match a with
  | .prim c _ _ _ _ _ => if spaceOf list = 0 then d.setCtx c ((d.ctx c).setLocal list bs) else (d.write list bs).1
  | .session _ => d
  | _ => (d.write list bs).1

/-- Builds an empty copy on free frames. -/
def Dev.buildCopy (d : Dev) (ri slot : Nat) (r : Region) (tier len base pins : Nat) : Dev × WCopy :=
  let n := ceilDiv len (2 ^ 21)
  let f := d.pickMany 1 n (d.readyFrames tier)
  let w : WCopy := { tier := tier, len := len, frames := f.2, base := base, pins := pins, age := d.tb.cueCount, sealing := none, evicting := false, mirror := false }
  ((f.1.putRegion ri { r with copies := Tab.insert r.copies slot w } slot).takeFrames ri slot r tier f.2, w)

/-- Clears the dirty bits of a copy. -/
def Dev.cleanCopy (d : Dev) (w : WCopy) : Dev :=
  { d with mem := { d.mem with dirty := w.dirtyKeys.foldl (fun t f => Tab.set false t f false) d.mem.dirty } }

def listBytes (w : WCopy) : Bytes := w.frames.flatMap (fun f => leBytes 8 (frameAddr w.tier f))

def PlaceJob.party (j : PlaceJob) : Nat := placeParty j.region j.slot

def PlaceJob.same (j i : PlaceJob) : Bool := j.region == i.region && j.slot == i.slot

def Dev.setPlace (d : Dev) (j : PlaceJob) : Dev :=
  { d with ver := { d.ver with places := d.ver.places.map (fun i => if i.same j then j else i) } }

/-- A PLACE or LOAD ends: one that succeeded here waits for the partner, which places its own frames (R416). [DESIGN CHOICE: log 203] -/
def Dev.placeEnd (d : Dev) (j : PlaceJob) (st : Status) : Dev :=
  let d := ({ d with ver := { d.ver with places := d.ver.places.filter (fun i => !i.same j) } } : Dev).dropSyncOf j.party
  if st = .ok ∧ d.awaits j.mack then { d with pair := { d.pair with waits := d.pair.waits ++ [(j.mack, .placed j.asker j.region j.slot)] } }
  else d.answerAfter j.mack j.asker st []

/-- The partner has acknowledged the frames of a PLACE or LOAD; whether it could place them, or failed with QUOTA or BUSY, is free, because
no frame brings its status (R416). [DESIGN CHOICE: log 203] -/
def Dev.placedThere (d : Dev) (a : Asker) (ri slot : Nat) : Dev :=
  if d.waitsMack then
    let x := d.pickOne 9 [0, 1, 2]
    match x.2 with
    | some 1 => (x.1.dropWCopy ri slot).tell a .quota []
    | some 2 => (x.1.dropWCopy ri slot).tell a .busy []
    | _ => x.1.tell a .ok []
  else d.tell a .ok []

/-- One that fails after its copy was built leaves no copy. -/
def Dev.placeFail (d : Dev) (j : PlaceJob) (st : Status) : Dev :=
  let x := d.dropWCopy j.region j.slot
  x.placeEnd { j with mack := j.mack ++ newFrames d x } st

/-- The content is there: LIST is written and the copy may be used; where LIST lies in a granule whose data is lost, POISON. [DEDUCED: log 74] -/
def Dev.placeList (d : Dev) (j : PlaceJob) (w : WCopy) : Dev :=
  let list := [(j.list.toNat, 8 * w.frames.length)]
  let near := list.filter (fun r => spaceOf r.1 = 1)
  let y := d.ready [] near
  if !y.2 then y.1
  else if y.1.writeStops list ≠ [] then y.1.placeFail j .poison
  else
    let x := (if j.version = 0 then y.1 else y.1.cleanCopy w).writeList j.asker j.list.toNat (listBytes w)
    (x.putWCopy j.region j.slot { w with pins := 0 }).placeEnd { j with mack := j.mack ++ newFrames d x } .ok

/-- Blocks of a version are brought into a copy one after another; a block is read while its extent is LIVE (R369, R371, R454). The number bounds the
blocks taken at once. [DEDUCED: log 73] -/
def Dev.loadSome (d : Dev) (j : PlaceJob) (w : WCopy) : Nat → Dev
  | 0 => d.setPlace j
  | fuel + 1 =>
    let blk := j.base * 512 + j.next
    let off := blk * 4096
    let last := ceilDiv j.len 4096
    if last ≤ j.next then (d.setPlace j).placeList j w
    else
      let live := d.poolLive (3 * 2 ^ 60 + off) 1
      let d := if live then (d.wantPool j.party off (4096 * min bulkSlots (last - j.next)) true).1 else d
      match Tab.find? d.ver.held (blkKey j.party blk) with
      | none => if live || d.blkBusy j.party blk then d.setPlace j else d.placeFail j .revoked
      | some [] => d.placeFail j .poison
      | some bs =>
        let n := min 4096 (w.len - j.next * 4096)
        let r := d.ready [] [(w.addr (j.next * 4096), n)]
        if !r.2 then r.1.setPlace j
        else
          let x := (r.1.write (w.addr (j.next * 4096)) (slice bs 0 n)).1
          let x := { x with ver := { x.ver with held := Tab.erase x.ver.held (blkKey j.party blk) } }
          x.loadSome { j with next := j.next + 1, mack := j.mack ++ newFrames d x } w fuel

/-- A PLACE or LOAD goes on: it takes its frames once they are free, then its content, then LIST. [DEDUCED: log 167] -/
def Dev.placeStep (d : Dev) (j : PlaceJob) : Dev :=
  match Tab.find? d.ver.regions j.region with
  | none => d.placeEnd j .badRequest
  | some r =>
    let before := (d.ver.places.takeWhile (fun i => !i.same j)).length
    Dev.asParty j.party (fun d =>
      if j.built then
        (match d.copyOf j.region j.slot with
         | some w => if j.version = 0 then d.placeList j w else d.loadSome j w bulkSlots
         | none => d.placeEnd j .busy)
      else match d.makeRoom r.part j.tier (ceilDiv j.len (2 ^ 21)) before j.waited with
        | (x, true, _) =>
          let y := x.buildCopy j.region j.slot ((Tab.find? x.ver.regions j.region).getD r) j.tier j.len j.version 1
          let j : PlaceJob := { j with built := true, mack := newFrames x y.1 }
          if j.version = 0 then (y.1.setPlace j).placeList j y.2 else (y.1.setPlace j).loadSome j y.2 bulkSlots
        | (x, false, .ok) => x.setPlace { j with waited := true }
        | (x, false, st) => x.placeEnd j st) d

/-- PLACE and LOAD start. -/
def Dev.startPlace (d : Dev) (r : Region) (j : PlaceJob) : Dev :=
  let n := ceilDiv j.len (2 ^ 21)
  let st := d.listStatus r.part j.asker j.list.toNat (8 * n)
  if st ≠ .ok then d.tell j.asker st []
  else ({ d with ver := { d.ver with places := d.ver.places ++ [j] } } : Dev).placeStep j

/-- PLACE. [DEDUCED: log 167] -/
def Dev.place (d : Dev) (ri slot tier len : Nat) (list : Word) (a : Asker) : Dev :=
  match Tab.find? d.ver.regions ri with
  | none => d.tell a .badRequest []
  | some r =>
    if 16 ≤ slot ∨ 2 ≤ tier ∨ (Tab.find? r.copies slot).isSome ∨ len = 0 ∨ 2 ^ 38 < len then d.tell a .badRequest []
    else d.startPlace r { asker := a, region := ri, slot := slot, tier := tier, len := len, list := list, version := 0, base := 0, waited := false,
                          built := false, next := 0, mack := [] }

/-- LOAD. [DEDUCED: log 73, 167] -/
def Dev.load (d : Dev) (ri slot tier version : Nat) (list : Word) (a : Asker) : Dev :=
  match Tab.find? d.ver.regions ri with
  | none => d.tell a .badRequest []
  | some r =>
    let num := if version = 0 then r.head else version
    if 16 ≤ slot ∨ 2 ≤ tier ∨ (Tab.find? r.copies slot).isSome ∨ num = 0 ∨ r.next ≤ num then d.tell a .badRequest []
    else match d.version ri num with
    | none => d.tell a .revoked []
    | some v =>
      if v.state = .sealing then d.tell a .badRequest []
      else if v.state = .draining then d.tell a .revoked []
      else if r.shared ∧ d.sec.seed.isNone then d.tell a .busy []
      else d.startPlace r { asker := a, region := ri, slot := slot, tier := tier, len := v.len, list := list, version := num, base := v.base, waited := false,
                            built := false, next := 0, mack := [] }

/-! ## The other operations (R353) -/

/-- CREATE. A record whose GEN is 0x7FFF is not allocated again (R452). [DESIGN CHOICE: log 68] -/
def Dev.regionNew (d : Dev) (part policy : Nat) (mirrored : Bool) (session : Nat) : Dev × Option Nat :=
  let free := (d.ownHalf d.regCount).filter (fun i => (Tab.find? d.ver.regions i).isNone && Tab.get 0 d.ver.gens i < 32768)
  let x := d.pickOne 0 (if (mirrored ∨ session ≠ 0) ∧ d.sec.seed.isNone then [] else free)
  match x.2 with
  | none => (x.1, none)
  | some i =>
    let g := Tab.get 0 d.ver.gens i
    let y := { x.1 with ver := { x.1.ver with gens := Tab.set 0 x.1.ver.gens i (g + 1) } }
    (y.putRegion i { part := part, gen := g % 32768, policy := policy, mirrored := mirrored, head := 0, next := 1, session := session, copies := [], dying := none } 16,
      some i)

def Dev.createOp (d : Dev) (part policy : Nat) (mirrored : Bool) (a : Asker) : Dev :=
  if 16 ≤ part ∨ 3 ≤ policy then d.tell a .badRequest []
  else match d.regionNew part policy mirrored 0 with
    | (x, some i) => x.answer d a .ok (leBytes 8 (regionWord { index := i, gen := ((Tab.find? x.ver.regions i).map (·.gen)).getD 0 }))
    | (x, none) => x.tell a .busy []

/-- Destroys a region: its copies go, every version drains, and the record is freed with the last. -/
def Dev.destroyRegion (d : Dev) (ri : Nat) (a : Asker) : Dev :=
  match Tab.find? d.ver.regions ri with
  | none => d
  | some r =>
    let x := (r.copies.map (·.1)).foldl (fun d s => d.dropWCopy ri s) d
    let x := match Tab.find? x.ver.regions ri with
      | some r => { x with ver := { x.ver with regions := Tab.insert x.ver.regions ri { r with dying := some a } } }
      | none => x
    let vs := (d.ver.versions.filter (fun e => e.1 / 2 ^ 32 == ri && e.2.state != .draining)).map (fun e => e.1 % 2 ^ 32)
    (vs.foldl (fun d v => d.drain ri v .none []) x).settleRegion ri

/-- [DEDUCED: log 72] -/
def Dev.destroyOp (d : Dev) (ri : Nat) (a : Asker) : Dev :=
  match Tab.find? d.ver.regions ri with
  | none => d.tell a .badRequest []
  | some r =>
    if r.copies.any (fun c => c.2.pins ≠ 0 || c.2.sealing.isSome || c.2.evicting) ∨ d.ver.versions.any (fun e => e.1 / 2 ^ 32 == ri && e.2.state == .sealing) then
      d.tell a .busy []
    else d.destroyRegion ri a

/-- [DEDUCED: log 69] -/
def Dev.unplaceOp (d : Dev) (ri slot : Nat) (force : Bool) (a : Asker) : Dev :=
  match d.copyOf ri slot with
  | none => d.tell a .badRequest []
  | some w =>
    if w.pins ≠ 0 ∨ w.sealing.isSome ∨ w.evicting ∨ (d.copyDirty w ∧ !force) then d.tell a .busy []
    else (d.dropWCopy ri slot).answer d a .ok []

def Dev.pinOp (d : Dev) (ri slot : Nat) (a : Asker) : Dev :=
  match d.copyOf ri slot with
  | none => d.tell a .busy []
  | some w => if w.evicting then d.tell a .busy [] else (d.putWCopy ri slot { w with pins := w.pins + 1 }).tell a .ok (leBytes 8 (w.pins + 1))

/-- [DEDUCED: log 69] -/
def Dev.unpinOp (d : Dev) (ri slot : Nat) (a : Asker) : Dev :=
  match d.copyOf ri slot with
  | none => d.tell a .badRequest []
  | some w =>
    if w.pins = 0 then d.tell a .badRequest []
    else (d.putWCopy ri slot { w with pins := w.pins - 1, age := d.tb.cueCount }).tell a .ok (leBytes 8 (w.pins - 1))

def Dev.publishOp (d : Dev) (ri num expect : Nat) (a : Asker) : Dev :=
  let y := d.publish ri num expect
  y.1.answer d a y.2 (if y.2 = .versionConflict then leBytes 8 (d.headOf ri) else [])

def Dev.openOp (d : Dev) (ri num : Nat) (a : Asker) : Dev :=
  let y := d.openVer ri num
  match y.2.1, y.1.version ri y.2.2 with
  | .ok, some v => y.1.answer d a .ok (leBytes 8 y.2.2 ++ leBytes 8 v.base ++ leBytes 8 v.len)
  | st, _ => y.1.tell a st []

def Dev.discardOp (d : Dev) (ri num : Nat) (a : Asker) : Dev :=
  match d.version ri num with
  | some v => if v.state = .sealed then d.drain ri num a [] else d.tell a .badRequest []
  | none => d.tell a .badRequest []

/-- [DEDUCED: log 72] -/
def Dev.revokeOp (d : Dev) (ri num : Nat) (a : Asker) : Dev :=
  match d.version ri num with
  | some v => if v.state = .sealing then d.tell a .badRequest [] else d.drain ri num a []
  | none => d.tell a .badRequest []

/-! ## Order of the operations (R351 to R353, R383) -/

/-- OPEN and CLOSE: the operations that a session's region allows (R383), and those that find the versions of a region under DESTROY (R365, R371). -/
def VerReq.openClose : VerReq → Bool
  | .openVersion _ => true
  | .close _ => true
  | _ => false

/-- What an operation does on a region. -/
def Dev.verDo (d : Dev) (ri : Nat) (a : Asker) (q : VerReq) : Dev :=
  match q with
  | .destroy => d.destroyOp ri a
  | .place slot tier len list => d.place ri slot tier len list a
  | .load slot tier v list => d.load ri slot tier v list a
  | .unplace slot force => d.unplaceOp ri slot force a
  | .pin slot => d.pinOp ri slot a
  | .unpin slot => d.unpinOp ri slot a
  | .seal slot pub => d.sealSlot ri slot pub a
  | .publish v e => d.publishOp ri v e a
  | .openVersion v => d.openOp ri v a
  | .close v => d.closeVer ri v a
  | .discard v => d.discardOp ri v a
  | .revoke v => d.revokeOp ri v a

/-- An operation has its turn on its region: a region under DESTROY is gone for all but OPEN and CLOSE. -/
def Dev.verOp (d : Dev) (p? : Option Nat) (a : Asker) (r : RegionId) (q : VerReq) : Dev :=
  match d.regionFor p? r with
  | none => d.tell a .badRequest []
  | some x =>
    if x.session ≠ 0 ∧ !q.openClose then d.tell a .access []
    else if x.dying.isSome ∧ x.session = 0 ∧ !q.openClose then d.tell a .badRequest []
    else d.verDo r.index a q

/-- Whether an operation of a region is under way, or waits its turn, so that later ones wait. -/
def Dev.regionBusy (d : Dev) (ri : Nat) : Bool := d.ver.places.any (fun j => j.region == ri) || d.ver.waiting.any (fun w => w.2.1.index == ri)

/-- An operation on a region arrives at its owner tile: the operations of a region are carried out in order of arrival (R352).
[DESIGN CHOICE: log 40] -/
def Dev.regionOp (d : Dev) (p? : Option Nat) (a : Asker) (r : RegionId) (q : VerReq) : Dev :=
  if (d.regionFor p? r).isSome ∧ d.regionBusy r.index then { d with ver := { d.ver with waiting := d.ver.waiting ++ [(a, r, q)] } }
  else d.verOp p? a r q

/-- The operations that wait have their turns, as far as they go. The number bounds them. -/
def runWaiting (d : Dev) : Nat → Dev
  | 0 => d
  | n + 1 =>
    match d.ver.waiting.find? (fun w => !d.ver.places.any (fun j => j.region == w.2.1.index)) with
    | none => d
    | some w => runWaiting (({ d with ver := { d.ver with waiting := d.ver.waiting.erase w } } : Dev).verOp none w.1 w.2.1 w.2.2) n

/-- SEALs read what they wait for, PLACEs and LOADs go on, and operations that wait follow. [DESIGN CHOICE: log 14] -/
def Dev.resumeVer (d : Dev) : Dev :=
  let d := d.ver.seals.foldl (fun d s => d.sealRead s.1 s.2) d
  let d := d.ver.places.foldl (fun (d : Dev) j => match d.ver.places.find? (fun i => i.same j) with
    | some j => d.placeStep j
    | none => d) d
  runWaiting d (d.ver.waiting.length + 1)

end Sys2Proof.Machine
end

