-- ==== Sys2Proof/Machine/VersionOps.lean ====
section
/-! DEFINITION. The commands on regions and versions (R353), trays and rebuild (R376, R377), the settings of capacity (R379), and the
gather table directory (R263, R268, R289). -/

namespace Sys2Proof.Machine

/-! ## Mailbox commands (R477, R536, R548) -/

/-- A mailbox command of a kind that waits for READY (R548); after a fatal declaration nothing but PB_READ is served. [DEDUCED: log 114] -/
def Dev.mailbox (d : Dev) (op : Nat) (body : Dev → Dev) : Dev :=
  if d.flt.fatal then d.emit (.mailbox op .poison [])
  else if !d.pwr.ready then d.emit (.mailbox op .busy [])
  else body d

/-- A region operation of the host. -/
def Dev.hostRegionOp (d : Dev) (op : Nat) (r : RegionId) (q : VerReq) : Dev := d.mailbox op (·.regionOp none (.mailbox op) r q)

/-! ## Trays (R376, R377) -/

/-- A tray is declared FAILED; the reads in flight to it are reissued at once (R375, R376). -/
def Dev.trayFail (d : Dev) (t : Nat) : Dev :=
  let r := d.trayRec t
  if r.state = .healthy ∨ r.state = .rebuilding then
    (((d.setTray t { r with state := .failed }).verEvent 2).report 0x32 1 (mkOrigin 5 15 t 0 0) t r.misses 0).dropTrayReads t
  else d

/-- A tray whose every TRAY link is down is FAILED. -/
def Dev.checkTrayLinks (d : Dev) : Dev :=
  (List.range 64).foldl (fun d t => if (d.trayLink t).isNone then d.trayFail t else d) d

/-- A read missed the tray time; 16 in a window fail the tray. -/
def Dev.trayMiss (d : Dev) (t : Nat) : Dev :=
  let r := d.trayRec t
  if r.state ≠ .healthy ∧ r.state ≠ .rebuilding then d
  else
    let d := d.setTray t { r with misses := r.misses + 1 }
    if 16 ≤ r.misses + 1 then d.trayFail t else d

/-- Pieces in use on a tray, as an extent, a list position and its first slot. -/
def Dev.piecesOn (d : Dev) (t : Nat) : List (Nat × Nat × Nat) :=
  d.ver.extents.flatMap (fun e => (e.2.pieces.zipIdx.filter (fun p => p.1.1 == t)).map (fun p => (e.1, p.2, p.1.2)))

/-- VER_TRAY_CTRL.REBUILD. -/
def Dev.rebuild (d : Dev) (t : Nat) : Dev :=
  let r := d.trayRec t
  if t < 64 ∧ (r.state = .failed ∨ r.state = .healthy) then (d.setTray t { r with state := .rebuilding }).rebuildEnd t else d

/-- The list positions whose slots a rebuild may read: the other trays of the extent that serve. -/
def Dev.rebuildFrom (d : Dev) (r : Rebuild) (e : Extent) : List Nat :=
  (List.range e.pieces.length).filter (fun i => i ≠ r.pos && d.trayServes (e.at i 0).1)

/-- The slot of the row under way, once what was read of the row gives it (R374, R377). -/
def rebuiltSlot (r : Rebuild) (policy : Nat) : Option Bytes :=
  if policy = 0 then
    let row := (gotRow r.got 10).set r.pos none
    if (row.filter Option.isSome).length < 8 then none
    else if r.pos < 8 then recoverSlot row r.pos
    else ((List.range 8).mapM (fun i => recoverSlot row i)).map (fun ds => if r.pos = 8 then checkP ds else checkQ ds)
  else (List.range 3).findSome? (fun i => (Tab.find? r.got i).getD none)

/-- The row is done: its slot is kept for the new piece, which is written once it is whole. -/
def Dev.rebuildRow (d : Dev) (r : Rebuild) (e : Extent) (slot : Bytes) : Dev :=
  let d := d.slotWrite r.toTray (r.toPiece * 64 + r.row) slot
  if r.row + 1 < 64 * piecesPer e.policy then d.setRebuild { r with row := r.row + 1, asked := [], got := [] }
  else
    (((d.setRebuild { r with writing := true, asked := [], got := [] }).queuePiece
      { region := e.region, version := e.version, ext := r.ext, pos := r.pos, left := 0, bad := false, rebuild := true } r.toTray r.toPiece
      (d.pieceSlots e.policy r.toTray r.toPiece))).pumpWrites

/-- A rebuild that cannot go on gives its new place up; the piece stays where it is. -/
def Dev.rebuildStop (d : Dev) (r : Rebuild) (policy : Nat) : Dev :=
  ((d.dropPieceWr (piecesPer policy) r.toTray r.toPiece).freePiecesOf (piecesPer policy) [(r.toTray, r.toPiece * 64)]).dropRebuild r.ext r.pos

/-- A rebuild goes on: it asks for the slots of its row, under mirroring for one copy after another, and takes the row once it is at hand.
[DESIGN CHOICE: log 165] -/
def Dev.rebuildStep (d : Dev) (r : Rebuild) : Dev :=
  match Tab.find? d.ver.extents r.ext with
  | none => d.rebuildStop r 0
  | some e =>
    if r.writing then d
    else match rebuiltSlot r e.policy with
    | some bs => d.rebuildRow r e bs
    | none =>
      let rest := (d.rebuildFrom r e).filter (fun i => i ∉ r.asked)
      let ask := if e.policy = 0 then rest else rest.take 1
      if r.got.length < r.asked.length then d
      else if ask = [] then d.rebuildStop r e.policy
      else
        (ask.foldl (fun (d : Dev) i =>
          let x := e.at i r.row
          d.startSlot (.rebuild r.tray r.piece i) x.1 x.2 false) (d.setRebuild { r with asked := r.asked ++ ask })).pumpSlots

/-- A piece of a rebuilding tray starts to be rebuilt onto another tray; under mirroring the 8 pieces of a copy move together.
[DESIGN CHOICE: log 165] -/
def Dev.rebuildPiece (d : Dev) (t piece : Nat) : Dev :=
  if (d.trayRec t).state ≠ .rebuilding ∨ d.ver.rebuilds.any (fun r => r.tray == t && r.piece == piece) then d
  else match (d.piecesOn t).find? (fun p => p.2.2 / 64 == piece) with
  | none => d.rebuildEnd t
  | some (ext, pos, _) =>
    match Tab.find? d.ver.extents ext with
    | none => d
    | some e =>
      match (if (d.version e.region e.version).any (·.state == .sealing) then none else d.otherTray e) with
      | none => d
      | some u =>
        let k := d.takePieces u (piecesPer e.policy)
        let r : Rebuild := { tray := t, piece := piece, ext := ext, pos := pos, toTray := u, toPiece := k.2, row := 0, asked := [], got := [], writing := false }
        ({ k.1 with ver := { k.1.ver with rebuilds := k.1.ver.rebuilds ++ [r] } } : Dev).rebuildStep r

/-- Every rebuild goes on. -/
def Dev.resumeRebuilds (d : Dev) : Dev :=
  d.ver.rebuilds.foldl (fun (d : Dev) r => match d.ver.rebuilds.find? (fun x => x.tray == r.tray && x.piece == r.piece) with
    | some r => d.rebuildStep r
    | none => d) d

/-! ## Settings (R359, R379, R486) -/

/-- Frames of a tier's shared range. -/
def Dev.poolCount (d : Dev) (tier : Nat) : Nat := if tier = 0 then d.regFld VER_POOL_N 14 14 else d.regFld VER_POOL_S 19 19

/-- Sum of the RESERVEs of a tier with one of them replaced. [DEDUCED: log 164] -/
def Dev.reserves (d : Dev) (tier p v : Nat) : Nat := ((List.range 16).map (fun q => if q = p then v else d.reserveOf q tier)).sum

/-- A write of VER_QN_p (tier 0), VER_QS_p (1) or VER_QP_p (2). [DEDUCED: log 164] -/
def Dev.writeQuota (d : Dev) (tier p v : Nat) : Dev :=
  if 16 ≤ p ∨ 3 ≤ tier then d
  else if tier = 2 then d.putReg (VER_QP + 8 * p) (v % 2 ^ 30)
  else
    let w := if tier = 0 then 14 else 19
    let quota := fld v 0 w
    let res := fld v w w
    if quota < res ∨ d.poolCount tier < d.reserves tier p res ∨ (d.isConf p ∧ res ≠ quota) then d.verEvent 0
    else d.putReg ((if tier = 0 then VER_QN else VER_QS) + 8 * p) (v % 2 ^ (2 * w))

/-- A write of VER_POOL_N (tier 0) or VER_POOL_S (1). [DEDUCED: log 164] -/
def Dev.writePool (d : Dev) (tier v : Nat) : Dev :=
  if d.pwr.ready ∨ 2 ≤ tier then d
  else
    let w := if tier = 0 then 14 else 19
    let first := fld v 0 w
    let count := fld v w w
    let top := if tier = 0 then 15360 else 294912
    let book := tier = 0 ∧ first ≤ 15359 ∧ 15352 < first + count ∧ count ≠ 0
    if top < first + count ∨ book ∨ count < d.reserves tier 16 0 then d.verEvent 0
    else d.putReg (if tier = 0 then VER_POOL_N else VER_POOL_S) (v % 2 ^ (2 * w))

/-- A write of VER_TRAY_CFG_t. -/
def Dev.writeTrayCfg (d : Dev) (t v : Nat) : Dev :=
  if 64 ≤ t then d
  else
    let off := VER_TRAY_CFG + 8 * t
    let v := v % 2 ^ 63
    let r := d.trayRec t
    if r.state ≠ .disabled ∧ r.state ≠ .empty then (d.putReg off (setFld v 0 1 (d.regFld off 0 1))).checkTrayLinks
    else
      let others := ((List.range 64).filter (fun u => u ≠ t && d.regFld (VER_TRAY_CFG + 8 * u) 0 1 == 1)).map (fun u => d.trayCfgPieces u * 278528)
      if fld v 0 1 = 1 ∧ 2 ^ 50 < others.sum + fld v 1 26 * 278528 then (d.putReg off (setFld v 0 1 0)).verEvent 0
      else ((d.putReg off v).setTray t { r with state := if fld v 0 1 = 1 then .healthy else .disabled }).checkTrayLinks

/-! ## The gather table directory (R263, R268, R289) -/

/-- Whether a descriptor holds a slot: a gather descriptor at work on it, or a fetch of its blocks. -/
def Dev.slotHolders (d : Dev) (i : Nat) : Nat :=
  (d.allDescs.filter (fun e => e.2.fl 0 4 == 2 && e.2.started && e.2.status.isNone && fld (e.2.fl 128 64) 0 12 == i)).length

def Dev.slotHeld (d : Dev) (i : Nat) : Bool := d.slotHolders i ≠ 0 || d.gth.fetches.any (fun f => f.slot == i)

/-- [DEDUCED: log 170] -/
def tableBad (a : TableAdd) : Bool :=
  a.rows == 0 || 2 ^ 32 ≤ a.rows || !(a.rowBytes ∈ [16, 32, 64, 128, 256, 512, 1024, 2048, 4096]) || 10 < a.fmt || a.dim == 0 ||
    (isMx a.fmt && a.dim % 32 != 0) || a.rowBytes < vecLen a.fmt a.dim

/-- GTH_TABLE_ADD; a region of a confidential partition may be shared with that partition alone (R513). [DEDUCED: log 170] -/
def Dev.tableAdd (d : Dev) (a : TableAdd) : Dev :=
  let who := Asker.mailbox 0xC340
  match d.regionFor none a.region with
  | none => d.tell who .badRequest []
  | some r =>
    let num := if a.version = 0 then r.head else a.version
    let len := ((d.version a.region.index num).map (·.len)).getD 0
    if tableBad a ∨ ((d.version a.region.index num).isSome ∧ len < a.rows * a.rowBytes) then d.tell who .badRequest []
    else if d.isConf r.part ∧ a.share.toNat ≠ 2 ^ r.part then d.tell who .access []
    else
      let free := (List.range 4096).filter (fun i => (d.gslot i).state == .free)
      let s := d.pickOne 4 free
      match s.2 with
      | none => s.1.tell who .busy []
      | some i =>
        match s.1.openVer a.region.index a.version with
        | (d', .ok, v) =>
          (d'.setGslot i { state := .active, region := a.region, version := v, rows := a.rows, rowBytes := a.rowBytes, fmt := a.fmt, dim := a.dim,
                           share := a.share }).answer d who .ok (leBytes 8 i ++ leBytes 8 (i + v * 2 ^ 12))
        | (d', _, _) => d'.tell who .revoked []

/-- A DRAINING slot that no descriptor holds is FREE, and its version is closed. -/
def Dev.slotFree (d : Dev) (i : Nat) : Dev :=
  let g := d.gslot i
  if g.state = .draining ∧ !d.slotHeld i then (d.setGslot i GSlot.reset).closeHeld g.region g.version else d

/-- [DEDUCED: log 169] -/
def Dev.tableRemove (d : Dev) (i : Nat) : Dev :=
  let who := Asker.mailbox 0xC341
  let g := d.gslot i
  if 4096 ≤ i ∨ g.state = .free then d.tell who .badRequest []
  else ((d.setGslot i { g with state := .draining }).cacheDrop (fun e => e.slot == i)).tell who .ok []

def slotStateCode : SlotState → Nat
  | .free => 0 | .active => 1 | .draining => 2

/-- [DESIGN CHOICE: log 40] -/
def Dev.tableQuery (d : Dev) (i : Nat) : Dev :=
  let who := Asker.mailbox 0xC342
  let g := d.gslot i
  if 4096 ≤ i then d.tell who .badRequest []
  else d.tell who .ok (leBytes 8 (slotStateCode g.state) ++ leBytes 8 (regionWord g.region) ++ leBytes 8 g.version ++ leBytes 8 g.rows ++
    leBytes 8 g.rowBytes ++ leBytes 8 g.fmt ++ leBytes 8 g.dim ++ leBytes 8 g.share.toNat ++ leBytes 8 (d.slotHolders i))

/-- A write of GTH_CACHE_CFG. BASE and UNITS are written only while EN = 0 (R269). -/
def Dev.writeCacheCfg (d : Dev) (v : Nat) : Dev :=
  let was := d.regFld GTH_CACHE_CFG 16 1
  if was = 1 then
    if fld v 16 1 = 0 then
      let d := (d.putReg GTH_CACHE_CFG (d.regFld GTH_CACHE_CFG 0 16)).cacheDrop (fun _ => true)
      { d with gth := { d.gth with nblk := [] } }
    else d
  else if fld v 16 1 = 0 then d.putReg GTH_CACHE_CFG (fld v 0 16)
  else
    let n := fun p => d.regFld (GTH_CACHE_PART + 8 * p) 0 16
    let sum := ((List.range 16).map n).sum
    if min 32768 (fld v 0 16) < sum ∨ (List.range 16).any (fun p => n p % 8 != 0) then
      (d.putReg GTH_CACHE_CFG (fld v 0 16)).setRegBit GTH_STAT 0
    else
      let d := (d.putReg GTH_CACHE_CFG (v % 2 ^ 17)).clrRegBit GTH_STAT 0
      { d with gth := { d.gth with nblk := (List.range 16).foldl (fun t p => Tab.set 0 t p (n p)) [] } }

/-! ## Meanings -/

/-- CREATE (R353). -/
def execRegionCreate (part policy : Nat) (mirrored : Bool) (s : State) : Host.Outcome State Fault Refusal :=
  s.run (·.mailbox 0xC320 (·.createOp part policy mirrored (.mailbox 0xC320)))

/-- DESTROY (R353, R370). -/
def execDestroy (r : RegionId) (s : State) : Host.Outcome State Fault Refusal := s.run (·.hostRegionOp 0xC321 r .destroy)

/-- PLACE (R353, R355, R359). -/
def execPlace (r : RegionId) (slot tier len : Nat) (list : Word) (s : State) : Host.Outcome State Fault Refusal :=
  s.run (·.hostRegionOp 0xC322 r (.place slot tier len list))

/-- LOAD (R353, R359, R365). -/
def execLoad (r : RegionId) (slot tier version : Nat) (list : Word) (s : State) : Host.Outcome State Fault Refusal :=
  s.run (·.hostRegionOp 0xC323 r (.load slot tier version list))

/-- UNPLACE (R353). -/
def execUnplace (r : RegionId) (slot : Nat) (force : Bool) (s : State) : Host.Outcome State Fault Refusal :=
  s.run (·.hostRegionOp 0xC324 r (.unplace slot force))

/-- PIN (R353, R356). -/
def execPin (r : RegionId) (slot : Nat) (s : State) : Host.Outcome State Fault Refusal :=
  s.run (·.hostRegionOp 0xC325 r (.pin slot))

/-- UNPIN (R353, R357). -/
def execUnpin (r : RegionId) (slot : Nat) (s : State) : Host.Outcome State Fault Refusal :=
  s.run (·.hostRegionOp 0xC326 r (.unpin slot))

/-- SEAL (R361, R363, R373). -/
def execSeal (r : RegionId) (slot : Nat) (pub : Bool) (expect : Nat) (s : State) : Host.Outcome State Fault Refusal :=
  s.run (·.hostRegionOp 0xC327 r (.seal slot (if pub then some expect else none)))

/-- PUBLISH (R364). -/
def execPublish (r : RegionId) (version expect : Nat) (s : State) : Host.Outcome State Fault Refusal :=
  s.run (·.hostRegionOp 0xC328 r (.publish version expect))

/-- OPEN (R365). -/
def execOpenVersion (r : RegionId) (version : Nat) (s : State) : Host.Outcome State Fault Refusal :=
  s.run (·.hostRegionOp 0xC329 r (.openVersion version))

/-- CLOSE (R365, R366). -/
def execClose (r : RegionId) (version : Nat) (s : State) : Host.Outcome State Fault Refusal :=
  s.run (·.hostRegionOp 0xC32A r (.close version))

/-- DISCARD (R353, R370). -/
def execDiscard (r : RegionId) (version : Nat) (s : State) : Host.Outcome State Fault Refusal :=
  s.run (·.hostRegionOp 0xC32B r (.discard version))

/-- REVOKE (R353, R370). -/
def execRevoke (r : RegionId) (version : Nat) (s : State) : Host.Outcome State Fault Refusal :=
  s.run (·.hostRegionOp 0xC32C r (.revoke version))

/-- The drain of a version ends (R370). -/
def execDrainComplete (r : RegionId) (version : Nat) (s : State) : Host.Outcome State Fault Refusal :=
  s.run (fun d => match Tab.find? d.ver.regions r.index with
    | some x => if x.gen = r.gen then d.drainDoneVer r.index version else d
    | none => d)

/-- An extent index leaves REVOKED (R368). -/
def execQuarantineEnd (extent : Nat) (s : State) : Host.Outcome State Fault Refusal := s.run (·.quarantine extent)

/-- A tray read misses the tray time (R376). -/
def execTrayReadMiss (tray : Nat) (s : State) : Host.Outcome State Fault Refusal := s.run (·.trayMiss tray)

/-- VER_TRAY_CTRL.REBUILD (R377). -/
def execRebuild (tray : Nat) (s : State) : Host.Outcome State Fault Refusal := s.run (·.rebuild tray)

/-- A piece is rebuilt (R377). -/
def execRebuildPiece (tray piece : Nat) (s : State) : Host.Outcome State Fault Refusal := s.run (·.rebuildPiece tray piece)

/-- A write of a quota register (R359, R379). -/
def execVerQuotaWrite (tier p : Nat) (v : Word) (s : State) : Host.Outcome State Fault Refusal := s.run (·.writeQuota tier p v.toNat)

/-- A write of VER_POOL_N or VER_POOL_S (R379, R486). -/
def execVerPoolWrite (tier : Nat) (v : Word) (s : State) : Host.Outcome State Fault Refusal := s.run (·.writePool tier v.toNat)

/-- A write of VER_TRAY_CFG_t (R379). -/
def execVerTrayCfgWrite (tray : Nat) (v : Word) (s : State) : Host.Outcome State Fault Refusal := s.run (·.writeTrayCfg tray v.toNat)

/-- GTH_TABLE_ADD (R262, R263). -/
def execGthTableAdd (a : TableAdd) (s : State) : Host.Outcome State Fault Refusal := s.run (·.mailbox 0xC340 (·.tableAdd a))

/-- GTH_TABLE_REMOVE (R263, R268). -/
def execGthTableRemove (slot : Nat) (s : State) : Host.Outcome State Fault Refusal := s.run (·.mailbox 0xC341 (·.tableRemove slot))

/-- GTH_TABLE_QUERY (R263). -/
def execGthTableQuery (slot : Nat) (s : State) : Host.Outcome State Fault Refusal := s.run (·.mailbox 0xC342 (·.tableQuery slot))

/-- A DRAINING slot becomes FREE (R263). -/
def execGthSlotFree (slot : Nat) (s : State) : Host.Outcome State Fault Refusal := s.run (·.slotFree slot)

/-- A write of GTH_CACHE_CFG (R269, R271, R289). -/
def execGthCacheCfgWrite (v : Word) (s : State) : Host.Outcome State Fault Refusal := s.run (·.writeCacheCfg v.toNat)

end Sys2Proof.Machine
end

