-- ==== Sys2Proof/Machine/EngineCtl.lean ====
section
/-! DEFINITION. The end of tickets and the limits on descriptors: TICKET_COMPLETE (R74, R106, R571), CUE_CAP (R78, R230), and a work unit
that overruns its cue (R38, R470). -/

namespace Sys2Proof.Machine

/-- A descriptor whose work has ended, that is the first of its queue and waits for no MACK, completes its ticket (R74, R77). [DESIGN CHOICE: log 42] -/
def Dev.descComplete (d : Dev) (key : Nat) (x : DescEntry) : Dev :=
  let first := (Tab.get [] d.eng.queue (key / 16 * 16 + x.part)).head?.any (fun y => y.id == x.id)
  match x.status with
  | some st =>
    if first ∧ !d.awaits x.waitMack then
      let tile := key / 16 / 128
      let d := if x.fl 0 4 = 0 then (d.countEligible tile x).releaseJob tile x else d
      let d := [x.topk, x.att.topk].foldl (fun d t => match t with | some i => d.releaseTopk tile i | none => d) d
      let d := d.dropDesc x.id
      let d := if x.fl 20 1 = 1 then d.setEvent x.ctx 4 else d
      d.ticketDone x.ctx x.slot x.gen st
    else d
  | none => d

/-- A primitive whose operation has ended: its result block is stored, NOTE sets event bit 3, and the ticket completes (R390, R571).
[DEDUCED: log 112] -/
def Dev.primComplete (d : Dev) (p : Prim) : Dev :=
  let d := { d with thr := { d.thr with prims := d.thr.prims.filter (fun q => !(q.ctx == p.ctx && q.slot == p.slot && q.gen == p.gen)) } }
  let d := match p.result with
    | some r => d.setCtx p.ctx ((d.ctx p.ctx).setLocal r.1 r.2)
    | none => d
  let d := if p.note then d.setEvent p.ctx 3 else d
  d.ticketDone p.ctx p.slot p.gen p.status

/-- A descriptor whose work has ended and whose ticket was lost with its context (R471) leaves its queue. -/
def Dev.orphanEnd (d : Dev) (c : CtxId) (slot : Nat) : Dev :=
  match d.allDescs.find? (fun e => e.2.ctx == c && e.2.slot == slot && e.2.status.isSome && !(d.ctx c).ticketRuns slot e.2.gen) with
  | some e => d.descComplete e.1 { e.2 with word := e.2.word &&& ~~~(1#512 <<< 20) }
  | none => d

/-- The work behind a ticket comes to its end: the next step of a COPY, the end of a descriptor or of a primitive. -/
def Dev.ticketEnd (d : Dev) (c : CtxId) (slot : Nat) : Dev :=
  match Tab.find? (d.ctx c).tickets slot with
  | none => d.orphanEnd c slot
  | some t =>
    match t.kind with
    | .copy =>
      match d.thr.copies.find? (fun j => j.ctx == c && j.slot == slot && j.gen == t.gen) with
      | some j => d.copyStep j
      | none => d
    | .desc =>
      match d.allDescs.find? (fun e => e.2.ctx == c && e.2.slot == slot && e.2.gen == t.gen) with
      | some e => d.descComplete e.1 e.2
      | none => d
    | .prim =>
      match d.thr.prims.find? (fun j => j.ctx == c && j.slot == slot && j.gen == t.gen) with
      | some j => d.primComplete j
      | none => d
    | .msg => d

/-! ## CUE_CAP -/

/-- The descriptors of a queue whose CUE_CAP has passed. [DEDUCED: log 96] -/
def Dev.capped (d : Dev) (e : EngId) (p : Nat) : List DescEntry :=
  (d.engQ e p).filter (fun x => x.started && x.status.isNone && x.fl 32 16 != 0 && x.firstCue + x.fl 32 16 ≤ d.tb.cueCount)

/-- A descriptor ends early with a status; the group of an OPEN fails with it (R230, R256). [DEDUCED: log 96] -/
def Dev.cutDesc (d : Dev) (x : DescEntry) (st : Status) : Dev :=
  let open' := if x.fl 0 4 = 1 ∧ x.op = 1 then
      d.rdc.groups.find? (fun (g : Group) => g.live && g.owner == x.ctx && g.slot == x.slot && g.gen == x.gen)
    else none
  match open' with
  | some g => d.groupFail g st
  | none => d.failDesc x st

/-- A descriptor's CUE_CAP passes: TIMEOUT (R78). -/
def Dev.capEnd (d : Dev) (x : DescEntry) : Dev := d.cutDesc x .timeout

/-- [DEDUCED: log 96] -/
def Dev.cueCap (d : Dev) (e : EngId) (p : Nat) : Dev := (d.capped e p).foldl (fun d x => d.capEnd x) d

/-! ## Overrun -/

/-- Partitions whose descriptor the engine works on. [DESIGN CHOICE: log 95] -/
def Dev.workingParts (d : Dev) (e : EngId) : List Nat := (List.range 16).filter (fun p => (d.atWork e p).any (·.started))

/-- FLT_CFG.AUTO_MAX; 6 and 7 read as 5. -/
def Dev.autoMax (d : Dev) : Nat := min 5 (d.regFld FLT_CFG 32 3)

/-- A recovery step is due: above AUTO_MAX an ESCALATE report is written and the host must command it (R472). -/
def Dev.stepNeeded (d : Dev) (origin : BitVec 32) (step taken : Nat) : Dev :=
  if d.autoMax < step then (d.report 0x12 1 origin step taken 0 0 (min 3 taken)).setRegBit FLT_EVT 4 else d

/-- An engine is hung over a partition's descriptor: it starts no work unit until it is reset, and step 2 is due. [DESIGN CHOICE: log 95] -/
def Dev.hang (d : Dev) (e : EngId) (p : Nat) : Dev :=
  ({ d with eng := { d.eng with hung := if e ∈ d.eng.hung then d.eng.hung else d.eng.hung ++ [e], hungPart := Tab.set 0 d.eng.hungPart (engKey e) (p + 1) } } : Dev).stepNeeded (engOrigin e p) 2 0

/-- The header word of a descriptor. -/
def DescEntry.header (x : DescEntry) : Nat := x.fl 0 64

/-- A work unit runs past the cue boundary: reported against its engine, which is hung, and its result does not count (R38, R470).
[DESIGN CHOICE: log 95] -/
def Dev.overrun (d : Dev) (e : EngId) : Dev :=
  let y := d.pickOne 4 (d.workingParts e)
  match y.2 with
  | none => d
  | some p =>
    match d.atWork e p with
    | none => d
    | some x =>
      let d := (y.1.putDesc { x with work := x.work - 1 }).hang e p
      d.report 0x10 1 (engOrigin e p) p x.header 0

/-! ## Work units (R37, R77, R575) -/

/-- A work unit of an engine for a partition: the next step of its front descriptor, or of the shadow that is due. -/
def Dev.workUnit (d : Dev) (e : EngId) (p : Nat) : Dev :=
  match d.atWork e p with
  | none => if e.cls = 0 then d.runShadow e p else d
  | some x =>
    match e.cls, x.op with
    | 0, op =>
      if d.shadowDue e p then d.runShadow e p
      else
        (match op, x.phase with
         | 1, _ => d.runDense e p
         | 2, .fresh => d.runSketch e p
         | 2, .loaded => d.runScore e p
         | 2, .scored => d.runPick e p
         | 2, _ => d.runExact e p
         | _, _ => d.runMerge e p)
    | 1, 1 => d.runOpen e p
    | 1, 2 => d.runContrib e p
    | 1, _ => d.runAbort e p
    | 2, op => d.runGather (op == 2) e p
    | 3, 1 => d.runSelect e p
    | 3, _ => d.runTopk e p
    | 4, op => d.runCodec (op == 2) e p
    | _, 1 => d.runCompute e p
    | _, 2 => d.runSnoopEngine e p
    | _, _ => d.runSnoopPort e p

/-! ## Meanings -/

/-- A work unit runs on an engine (R37, R77, R80, R575). -/
def execWorkUnit (e : EngId) (part : Nat) (s : State) : Host.Outcome State Fault Refusal := s.run (·.workUnit e part)

/-- The work behind a ticket ends (R74). -/
def execTicketComplete (c : CtxId) (slot : Nat) (s : State) : Host.Outcome State Fault Refusal := s.run (·.ticketEnd c slot)

/-- A descriptor's CUE_CAP passes (R78). -/
def execCueCapExpiry (e : EngId) (part : Nat) (s : State) : Host.Outcome State Fault Refusal := s.run (·.cueCap e part)

/-- A work unit overruns its cue (R38). -/
def execWuOverrun (e : EngId) (s : State) : Host.Outcome State Fault Refusal := s.run (·.overrun e)

end Sys2Proof.Machine
end

