-- ==== Sys2Proof/Machine/Session.lean ====
section
/-! DEFINITION. The session table and its operations on one device (R380 to R403): records, the checks, CREATE, APPEND and the input log,
PARK, CHECKPOINT and REVIVE by phases, FORK, DELETE and QUERY. -/

namespace Sys2Proof.Machine

/-! ## Records (R381) -/

/-- Sends a record to the partner (R415, R426). -/
def Dev.sendSes (d : Dev) (id : Nat) (r : SesRec) : Dev := if d.mirrors then d.sendRec (id % 12) 0 id (sesBytes r) else d

/-- The map copy of a session's region. -/
def Dev.mapCopy (d : Dev) (r : SesRec) : Option WCopy := d.copyOf r.region.index 1

/-- Address of the KV map. [DESIGN CHOICE: log 99] -/
def Dev.mapBase (d : Dev) (r : SesRec) : Nat := ((d.mapCopy r).map (fun w => w.addr 0)).getD 0

/-- The slice writes a record: MAP is given while ACTIVE and 0 otherwise, and STAMP follows a change of STATE. -/
def Dev.setSes (d : Dev) (id : Nat) (r : SesRec) : Dev :=
  let r := { r with map := if r.state = .active then d.mapBase r else 0 }
  let x := if r.state = (d.sesRec id).state then (d, r) else
    let s := d.stampNow
    (s.1, { r with stamp := s.2 })
  (x.1.keepSes id x.2).sendSes id x.2

def Dev.sesLimit (d : Dev) : Nat := min 16777216 (d.reg SES_TBL_CNT)

/-- Records of a partition that are not FREE. -/
def Dev.sesUsed (d : Dev) (p : Nat) : Nat := d.sessions.countP (fun e => e.2.part == p)

def Dev.sesFull (d : Dev) (p : Nat) : Bool := d.regFld (SES_QUOTA + 8 * p) 0 25 ≤ d.sesUsed p

def Dev.sesEvent (d : Dev) (bit : Nat) : Dev := d.event SES_EVT bit (d.regFld SES_CFG 40 1 == 1)

def Dev.sesOp (d : Dev) (id : Nat) : Option SesOp := Tab.find? d.ses.ops id
def Dev.putOp (d : Dev) (id : Nat) (o : SesOp) : Dev := { d with ses := { d.ses with ops := Tab.insert d.ses.ops id o } }
def Dev.dropOp (d : Dev) (id : Nat) : Dev := { d with ses := { d.ses with ops := Tab.erase d.ses.ops id } }

def SesLog.reset : SesLog := { used := 0, dirty := false, sealedAt := 0, sealing := none, waitNow := [], waitNext := [] }
def Dev.sesLog (d : Dev) (id : Nat) : SesLog := (Tab.find? d.ses.logs id).getD SesLog.reset
def Dev.putLog (d : Dev) (id : Nat) (l : SesLog) : Dev := { d with ses := { d.ses with logs := Tab.insert d.ses.logs id l } }
def Dev.dropLog (d : Dev) (id : Nat) : Dev := { d with ses := { d.ses with logs := Tab.erase d.ses.logs id } }

/-- The party that a session's slice reads and writes pages as. -/
def sesParty (id : Nat) : Nat := 8 * id + 3

/-! ## Checks and ends (R390 to R393, R432) -/

/-- The partition of who asks; the host has none. -/
def Dev.askerPart (d : Dev) : Asker → Option Nat
  | .prim c _ _ _ _ _ => some (d.ctx c).part
  | _ => none

/-- An operation on a session ends; a failure is kept in SES_LAST. -/
def Dev.sesTell (d before : Dev) (a : Asker) (id op phase : Nat) (st : Status) (body : Bytes) : Dev :=
  let d := if st = .ok then d else d.putReg SES_LAST (id % 2 ^ 24 + op * 2 ^ 24 + statusCode st * 2 ^ 28 + phase * 2 ^ 36)
  d.answer before a st body

def Dev.partner (d : Dev) : Nat := d.regFld PAIR_CFG 1 12

/-- Checks 2 to 5 of R391, and that a takeover has reached the record (R430). [DEDUCED: log 97] -/
def Dev.sesCheck (d : Dev) (p? : Option Nat) (id : Nat) : Status :=
  let r := d.sesRec id
  if d.sesLimit ≤ id ∨ r.state = .free then .badRequest
  else if !p?.all (· == r.part) then .access
  else if d.pair.state = .solo ∧ !d.pair.takeoverDone ∧ d.pair.scanPos ≤ id ∧ r.owner = d.partner then .busy
  else if r.owner ≠ d.devId then .notOwner
  else .ok

/-- The table of R392: none says that the operation runs. Operations are the codes of SES_LAST. [DEDUCED: log 97] -/
def stateRule (op : Nat) (s : SesState) : Option Status :=
  if op = 9 then (if s = .parked then none else some .busy)
  else match s with
  | .active => if op = 2 then some .ok else if op = 7 then some .badRequest else none
  | .parked => if op = 12 then some .busy else if op = 1 ∨ op = 3 then some .ok else if op = 7 then some .badRequest else none
  | .orphaned => if op = 11 ∨ op = 7 then none else some .notOwner
  | .failed => if op = 11 then none else if op = 7 then some .badRequest else some .poison
  | .free => some .badRequest
  | _ => if op = 7 then some .badRequest else some .busy

/-- The start of an operation: its checks in order, then the operation. An APPEND may meet another operation; no other may (R408). -/
def Dev.sesStart (d : Dev) (a : Asker) (id op : Nat) (bad : Bool) (k : Dev → SesRec → Dev) : Dev :=
  let r := d.sesRec id
  let st := if bad then .badRequest else d.sesCheck (d.askerPart a) id
  if st ≠ .ok then d.sesTell d a id op 0 st []
  else if r.op = 8 ∧ op ≠ 7 ∧ op ≠ 11 then
    ((d.setSes id { r with op := 0 }).bump PAIR_RETRY_CNT).sesTell d a id op 0 .retryFromStart []
  else if (d.sesOp id).isSome ∧ op ≠ 12 then d.sesTell d a id op 0 .busy []
  else match stateRule op r.state with
    | some st => d.sesTell d a id op 0 st []
    | none => k d r

/-- A session enters FAILED (R393). -/
def Dev.enterFailed (d : Dev) (id op : Nat) : Dev :=
  let r := d.sesRec id
  ((d.setSes id { r with state := .failed, op := 0, phase := 0 }).sesEvent 0).report 0x50 1 (mkOrigin 8 (id % 12) 0 0 r.part) id op 0

/-! ## The working copies (R383 to R386) -/

def SesRec.lg (r : SesRec) : Nat := r.layers * r.groups
def SesRec.ppf (r : SesRec) : Nat := 2093056 / max 1 r.geom.page

/-- Page rows of a number of positions. [DEDUCED: log 100] -/
def rowsOf (len : Nat) : Nat := ceilDiv len 256

def Dev.kvCopy (d : Dev) (r : SesRec) : Option WCopy := d.copyOf r.region.index 0

/-- [DEDUCED: log 100] -/
def mapLen (r : SesRec) : Nat := 4096 + r.lg * 8 * r.maxRows

/-- Frames of a bed: its version's length. -/
def Dev.bedFrames (d : Dev) (b : Bed) : Nat := ((d.version b.region.index b.version).map (fun v => ceilDiv v.len (2 ^ 21))).getD 0

/-- Frames of the KV copy that hold beds; the tail frames follow. [DEDUCED: log 100] -/
def Dev.bedTotal (d : Dev) (r : SesRec) : Nat := (r.beds.map d.bedFrames).sum

def Dev.tailFrames (d : Dev) (r : SesRec) : List Nat := ((d.kvCopy r).map (fun w => w.frames.drop (d.bedTotal r))).getD []

/-- Address of the k-th page of the tail frames, which are packed from (TAIL0, 0). [DEDUCED: log 102] -/
def tailPage (r : SesRec) (frames : List Nat) (k : Nat) : Nat := frameAddr r.tier (frames.getD (k / r.ppf) 0) + k % r.ppf * r.geom.page

/-- Address of a page table entry. -/
def ptEntry (r : SesRec) (w : WCopy) (row lg : Nat) : Nat := w.addr (4096 + lg * 8 * r.maxRows + 8 * row)

def Dev.getPt (d : Dev) (r : SesRec) (row lg : Nat) : Nat := ((d.mapCopy r).map (fun w => leNat (d.mem.bytesAt (ptEntry r w row lg) 8))).getD 0

def Dev.setPt (d : Dev) (r : SesRec) (row lg a : Nat) : Dev :=
  match d.mapCopy r with
  | some w => (d.write (ptEntry r w row lg) (leBytes 8 a)).1
  | none => d

/-- Puts a copy on frames. -/
def Dev.copyOn (d : Dev) (ri slot tier len : Nat) (frames : List Nat) : Dev :=
  match Tab.find? d.ver.regions ri with
  | none => d
  | some g =>
    let w : WCopy := { tier := tier, len := len, frames := frames, base := 0, pins := 1, age := d.tb.cueCount, sealing := none, evicting := false, mirror := false }
    let g := { g with copies := Tab.insert g.copies slot w }
    (d.putRegion ri g slot).takeFrames ri slot g tier frames

/-- Firsts of runs of n consecutive free STRATUM frames: the map copy lies on such a run, so that each page table is one range (R293).
[DESIGN CHOICE: log 99] -/
def Dev.frameRuns (d : Dev) (n : Nat) : List Nat :=
  let free := d.readyFrames 1
  free.filter (fun f => (List.range n).all (fun i => (f + i) ∈ free))

/-- Room for the copies of a session: KV frames in its tier, the map and the log in STRATUM. -/
def Dev.sesRoom (d : Dev) (r : SesRec) (kv : Nat) : Dev × Bool × Status :=
  let n := ceilDiv (mapLen r) (2 ^ 21) + 1
  let room := fun (d : Dev) (tier n : Nat) => if n = 0 then (d, true, Status.ok) else d.makeRoom r.part tier n d.ver.places.length false
  if r.tier = 1 then room d 1 (kv + n)
  else match room d 0 kv with
    | (d, true, _) => room d 1 n
    | y => y

/-- Places the three copies, and fills the KV map; false where no run of frames is free for the map. [DESIGN CHOICE: log 99] -/
def Dev.sesPlace (d : Dev) (r : SesRec) (kv : Nat) : Dev × Bool :=
  let ri := r.region.index
  let nm := ceilDiv (mapLen r) (2 ^ 21)
  let m := d.pickOne 5 (d.frameRuns nm)
  match m.2 with
  | none => (d, false)
  | some f0 =>
    let d := m.1.copyOn ri 1 1 (mapLen r) ((List.range nm).map (· + f0))
    let l := d.pickMany 1 1 (d.readyFrames 1)
    let d := l.1.copyOn ri 2 1 (2 ^ 21) l.2
    let k := d.pickMany 1 kv (d.readyFrames r.tier)
    let d := k.1.copyOn ri 0 r.tier (kv * 2 ^ 21) k.2
    let base := frameAddr 1 f0
    ((List.range r.lg).foldl (fun d i => (d.write (base + 16 * i) (leBytes 8 (base + 4096 + i * 8 * r.maxRows) ++ leBytes 8 r.maxRows)).1) d, true)

/-- Frees the three copies. -/
def Dev.sesUnplace (d : Dev) (r : SesRec) : Dev := [0, 1, 2].foldl (fun d s => d.dropWCopy r.region.index s) d

/-- Extends the KV copy by frames. -/
def Dev.growKv (d : Dev) (r : SesRec) (n : Nat) : Dev × Bool × Status :=
  if n = 0 then (d, true, .ok)
  else match d.makeRoom r.part r.tier n d.ver.places.length false with
    | (d, true, _) =>
      match Tab.find? d.ver.regions r.region.index, d.kvCopy r with
      | some g, some w =>
        let f := d.pickMany 1 n (d.readyFrames r.tier)
        let g := { g with copies := Tab.insert g.copies 0 { w with frames := w.frames ++ f.2, len := w.len + n * 2 ^ 21 } }
        ((f.1.putRegion r.region.index g 0).takeFrames r.region.index 0 g r.tier f.2, true, .ok)
      | _, _ => (d, false, .busy)
    | y => y

/-- Takes frames out of the KV copy. -/
def Dev.cutKv (d : Dev) (r : SesRec) (fs : List Nat) : Dev :=
  match Tab.find? d.ver.regions r.region.index, d.kvCopy r with
  | some g, some w =>
    let keep := w.frames.filter (fun f => !(f ∈ fs))
    let g := { g with copies := Tab.insert g.copies 0 { w with frames := keep, len := keep.length * 2 ^ 21 } }
    if fs = [] then d else (d.putRegion r.region.index g 0).dropFrames r.region.index g r.tier fs
  | _, _ => d

/-- Adds a holder to a bed's version (R365, R403). [DEDUCED: log 101] -/
def Dev.holdBed (d : Dev) (b : Bed) : Dev :=
  match d.version b.region.index b.version with
  | some v => d.putVersion b.region.index b.version { v with holders := v.holders + 1 }
  | none => d

/-- Releases a bed; a version without holders is discarded (R403). [DEDUCED: log 101] -/
def Dev.closeBed (d : Dev) (b : Bed) : Dev :=
  match d.version b.region.index b.version with
  | some v =>
    let x := d.putVersion b.region.index b.version { v with holders := v.holders - 1 }
    if v.holders ≤ 1 then x.drain b.region.index b.version .none [] else x
  | none => d

/-- Discards a version of a region that the session engine sealed. -/
def Dev.discardVer (d : Dev) (ri num : Nat) : Dev :=
  match d.version ri num with
  | some v => if v.state = .sealing then d.sealFail ri num .aborted else if v.state = .draining then d else d.drain ri num .none []
  | none => d

/-- The region of a session that is gone: destroyed once its last version is discarded (R403). -/
def Dev.leaveRegion (d : Dev) (ri : Nat) : Dev :=
  match Tab.find? d.ver.regions ri with
  | some g => ({ d with ver := { d.ver with regions := Tab.insert d.ver.regions ri { g with dying := some .none } } } : Dev).settleRegion ri
  | none => d

/-- Everything a session holds is let go and its record is FREE (R390, R405). -/
def Dev.freeSession (d : Dev) (id : Nat) : Dev :=
  let r := d.sesRec id
  let d := r.beds.foldl (fun d b => d.closeBed b) d
  let d := if r.logVer = 0 then d else d.discardVer r.region.index r.logVer
  let d := (d.sesUnplace r).leaveRegion r.region.index
  let d := { d with ses := { d.ses with windows := Tab.erase d.ses.windows id, moveCue := Tab.erase d.ses.moveCue id } }
  ((d.dropLog id).dropSyncOf (sesParty id)).setSes id SesRec.reset

/-! ## Windows (R394, R395) -/

def Dev.discardWindow (d : Dev) (id : Nat) : Dev :=
  match Tab.find? d.ses.windows id with
  | some _ => ({ d with ses := { d.ses with windows := Tab.erase d.ses.windows id } } : Dev).bump SES_WIN_DROP_CNT |>.sesEvent 4
  | none => d

/-! ## Operations (R398, R399) -/

/-- An operation in progress that has done nothing yet. -/
def newOp (a : Asker) (deadline : Nat) (was : SesState) : SesOp :=
  { asker := a, deadline := deadline, was := was, started := false, sealed := [], newBed := none, replaces := false, child := 0, proj := 0, tier := 0,
    mode := 0, sent := 0, acked := 0, loaded := 0, serial := 0, reply := none }

def Dev.deadlineAt (d : Dev) (n : Nat) : Nat := if n = 0 then 0 else d.tb.cueCount + n

/-- Tells the APPENDs that a CHECKPOINT for their entry was to precede, when it fails. -/
def Dev.failAppends (d : Dev) (id : Nat) (st : Status) : Dev :=
  let mine := d.ses.appends.filter (fun e => e.2.1.id == id)
  let d' := { d with ses := { d.ses with appends := d.ses.appends.filter (fun e => e.2.1.id != id) } }
  mine.foldl (fun x e => x.sesTell d e.1 id 12 0 st []) d'

/-- An operation ends: its record of progress goes, and who asked is told. -/
def Dev.endOp (d before : Dev) (id code phase : Nat) (o : SesOp) (st : Status) : Dev :=
  let d := ((d.dropOp id).dropSyncOf (sesParty id)).sesTell before o.asker id code phase st []
  if st ≠ .ok ∧ o.asker = .session id then d.failAppends id st else d

/-- An operation fails before its commit point and is undone (R399). -/
def Dev.undoOp (d : Dev) (id : Nat) (o : SesOp) (st : Status) : Dev :=
  let r := d.sesRec id
  let x := o.sealed.foldl (fun d v => d.discardVer r.region.index v) d
  let x := if r.op = 2 then x.sesUnplace r else x
  (x.setSes id { r with state := o.was, op := 0, phase := 0 }).endOp d id r.op r.phase o st

/-- The same where the session enters FAILED (R400). -/
def Dev.failOp (d : Dev) (id : Nat) (o : SesOp) : Dev :=
  let r := d.sesRec id
  let x := o.sealed.foldl (fun d v => d.discardVer r.region.index v) d
  let x := if r.op = 2 then x.sesUnplace r else x
  (x.enterFailed id r.op).endOp d id r.op r.phase o .poison

/-! ## Sealing a bed (R386 to R388, R398) -/

/-- A frame to be sealed: its address, the row and group index of its first page, and its pages. -/
structure BedFrame where
  addr : Nat
  row : Nat
  lgi : Nat
  pages : Nat
deriving DecidableEq, Repr

/-- The frames of the tail that hold rows below ceil(LEN / 256). -/
def Dev.tailBed (d : Dev) (r : SesRec) : List BedFrame :=
  let np := (rowsOf r.len - r.tail0) * r.lg
  (List.range (ceilDiv np (max 1 r.ppf))).map (fun i =>
    { addr := frameAddr r.tier ((d.tailFrames r).getD i 0), row := r.tail0 + i * r.ppf / max 1 r.lg, lgi := i * r.ppf % max 1 r.lg,
      pages := min r.ppf (np - i * r.ppf) })

/-- The frames of the last of four beds, by the trailers in their frames. -/
def Dev.lastBed (d : Dev) (r : SesRec) : List BedFrame :=
  match d.kvCopy r, r.beds[3]? with
  | some w, some b =>
    let n := d.bedFrames b
    ((w.frames.drop (d.bedTotal r - n)).take n).map (fun f =>
      let t := d.mem.bytesAt (frameAddr r.tier f + 2093056) 40
      { addr := frameAddr r.tier f, row := leAt t 8 4, lgi := leAt t 12 4, pages := leAt t 16 2 })
  | _, _ => []

/-- A trailer block. [DEDUCED: log 105] -/
def trailerOf (body : Bytes) (f : BedFrame) (version len : Nat) : Bytes :=
  leBytes 8 (crc64xz body) ++ leBytes 4 f.row ++ leBytes 4 f.lgi ++ leBytes 2 f.pages ++ zeros 2 ++ leBytes 4 version ++ leBytes 4 len ++ zeros 4068

/-- The content of frames for the version that seals them: their pages, zeros, and the trailers, which are written to the frames too. -/
def bedContent (d : Dev) (page version len : Nat) : List BedFrame → Dev × Option (List (List Bytes))
  | [] => (d, some [])
  | f :: fs =>
    let y := d.read f.addr (f.pages * page)
    if y.2.2 ≠ [] then (y.1, none)
    else
      let body := slice y.2.1 0 2093056
      let t := trailerOf body f version len
      let z := bedContent (y.1.write (f.addr + 2093056) t).1 page version len fs
      (z.1, z.2.map (((List.range 511).map (fun i => slice body (4096 * i) 4096) ++ [t]) :: ·))

/-- The next version of a region. -/
def Dev.nextVer (d : Dev) (ri : Nat) : Nat := ((Tab.find? d.ver.regions ri).map (·.next)).getD 0

/-- Seals frames of the KV copy as a bed: its version's number is the one that the SEAL has just taken. -/
def Dev.sealBed (d : Dev) (r : SesRec) (fs : List BedFrame) : Dev × Status :=
  let ri := r.region.index
  match Tab.find? d.ver.regions ri, d.kvCopy r with
  | some g, some w =>
    d.startSealOf ri 0 g w (fs.length * 2 ^ 21) [] (fun d => bedContent d r.geom.page (d.nextVer ri - 1) r.len fs)
  | _, _ => (d, .busy)

/-- Seals the log copy, which lies in STRATUM. -/
def Dev.sealLogCopy (d : Dev) (r : SesRec) : Dev × Status :=
  let ri := r.region.index
  match Tab.find? d.ver.regions ri, d.copyOf ri 2 with
  | some g, some w => d.startSealOf ri 2 g w w.len w.dirtyKeys (fun d => copyExtents d w (ceilDiv w.len (2 ^ 21)) 0)
  | _, _ => (d, .busy)

/-- The state of the versions an operation seals: none while one is being sealed, false where one was given up. -/
def Dev.sealsDone (d : Dev) (ri : Nat) (l : List Nat) : Option Bool :=
  if l.any (fun v => (d.version ri v).isNone) then some false
  else if l.any (fun v => (d.version ri v).any (·.state == .sealing)) then none
  else some true

/-- Starts phase 2 of PARK, CHECKPOINT or FORK: the bed, where there are tail rows, and the closing log version. [DEDUCED: log 104] -/
def Dev.startSeals (d : Dev) (id : Nat) (o : SesOp) : Dev :=
  let r := d.sesRec id
  let ri := r.region.index
  let tail := d.tailBed r
  let four := r.beds.length == 4
  let fs := if tail = [] then [] else if four then d.lastBed r ++ tail else tail
  let near := fun (l : List (Nat × Nat)) => l.filter (fun x => spaceOf x.1 == 1)
  let ry := d.ready (near (fs.map (fun f => (f.addr, 2 ^ 21)))) (near (fs.map (fun f => (f.addr + 2093056, 4096))))
  if !ry.2 ∨ (d.sesLog id).sealing.isSome then ry.1
  else
    let first := if four then ((r.beds[3]?).map (·.first)).getD 0 else r.tail0
    let v := ry.1.nextVer ri
    let b := if fs = [] then (ry.1, Status.ok) else ry.1.sealBed r fs
    if b.2 = .poison then b.1.failOp id o
    else if b.2 ≠ .ok then b.1.undoOp id o b.2
    else
      let vs := if fs = [] then [] else [v]
      let v2 := b.1.nextVer ri
      let l := b.1.sealLogCopy r
      let o := { o with started := true, sealed := vs,
                        newBed := if fs = [] then none else some { region := r.region, version := v, first := first, rows := rowsOf r.len - first },
                        replaces := four && fs != [] }
      if l.2 ≠ .ok then l.1.undoOp id o l.2
      else l.1.putOp id { o with sealed := vs ++ [v2] }

/-- The page rows that hold positions of an open window, and those that a discarded window may have left (R394, R395). -/
def Dev.windowTop (d : Dev) (id : Nat) (r : SesRec) : Nat :=
  match Tab.find? d.ses.windows id with
  | some w => rowsOf (max r.len (w.pos + w.count))
  | none => rowsOf r.len

/-- Rows from one on are no longer allocated: their entries become 0 (R385). A window holds at most 4,096 positions past LEN. -/
def Dev.clearRows (d : Dev) (r : SesRec) (first : Nat) : Dev :=
  ((List.range (min r.maxRows (rowsOf (r.len + 4096)) - first)).flatMap (fun i => (List.range r.lg).map (fun lg => (first + i, lg)))).foldl
    (fun d e => if d.getPt r e.1 e.2 = 0 then d else d.setPt r e.1 e.2 0) d

/-- Copies the rows from the new TAIL0 on into fresh tail frames, switches their page table entries, and drops the tail frames that
are neither in the bed nor new. False with OK: evictions are under way, or lines of the pages are being fetched. -/
def Dev.moveTail (d : Dev) (id : Nat) (r : SesRec) (sealed : Nat) : Dev × Bool × Status :=
  let t0 := r.len / 256
  let top := d.windowTop id r
  let np := (top - t0) * r.lg
  let old := (d.tailFrames r).drop sealed
  let had := (d.tailFrames r).length
  let reads := ((List.range np).map (fun k => (d.getPt r (t0 + k / r.lg) (k % r.lg), r.geom.page))).filter (fun x => spaceOf x.1 = 1)
  let ry := d.ready reads []
  if !ry.2 then (ry.1, false, .ok)
  else match ry.1.growKv r (ceilDiv np (max 1 r.ppf)) with
  | (d, true, _) =>
    let fresh := (d.tailFrames r).drop had
    let r' := { r with tail0 := t0 }
    let y := (List.range np).foldl (fun (z : Dev × Bool) k =>
      let row := t0 + k / r.lg
      let lg := k % r.lg
      let a := z.1.getPt r row lg
      if a = 0 then z
      else
        let b := z.1.read a r.geom.page
        let w := b.1.write (tailPage r' fresh k) b.2.1
        (w.1.setPt r row lg (tailPage r' fresh k), z.2 && b.2.2 == [])) (d, true)
    if y.2 then ((y.1.clearRows r top).cutKv r old, true, .ok) else (y.1, false, .poison)
  | y => y

/-- The record and what it holds once a bed is sealed. -/
def bedsAfter (r : SesRec) (o : SesOp) : List Bed :=
  match o.newBed with
  | none => r.beds
  | some b => if o.replaces then r.beds.take 3 ++ [b] else r.beds ++ [b]

/-- After the commit of a new bed: it is held, a bed it replaces is closed, and the log versions are discarded. -/
def Dev.afterBed (d : Dev) (r : SesRec) (o : SesOp) : Dev :=
  let d := match o.newBed with | some b => d.holdBed b | none => d
  let d := if o.replaces then (match r.beds[3]? with | some b => d.closeBed b | none => d) else d
  let logs := (o.sealed.drop (if o.newBed.isSome then 1 else 0)) ++ (if r.logVer = 0 then [] else [r.logVer])
  logs.foldl (fun d v => d.discardVer r.region.index v) d

/-- APPENDs with SYNC = 1 whose entries a sealed log version holds complete. [DEDUCED: log 104] -/
def Dev.tellSync (d before : Dev) (id : Nat) (l : List Asker) : Dev := l.foldl (fun d a => d.sesTell before a id 12 0 .ok []) d

/-! ## FORK (R401, R402) -/

/-- Writes the child of a parent. [DESIGN CHOICE: log 103] -/
def Dev.forkChild (d : Dev) (id child : Nat) : Dev × Status :=
  let r := d.sesRec id
  if (d.sesRec child).state ≠ .free then (d, .busy)
  else if d.sesFull r.part then (d, .quota)
  else if r.beds.any (fun b => (d.version b.region.index b.version).any (fun v => 65535 ≤ v.holders)) then (d, .busy)
  else match d.regionNew r.part r.policy r.kvmir (child + 1) with
    | (_, none) => (d, .busy)
    | (x, some ri) =>
      let g := ((Tab.find? x.ver.regions ri).map (·.gen)).getD 0
      let x := r.beds.foldl (fun d b => d.holdBed b) x
      let f := x.nextFree
      (f.1.setSes child { r with state := .parked, owner := d.devId, op := 0, phase := 0, epoch := 1, region := { index := ri, gen := g },
                                 peerDev := 0, peerPart := 0, peerSes := 0, logVer := 0, logPos := r.len,
                                 tail0 := (Config.free64 f.2).toNat % 16385, prior := 0, unconf := false }, .ok)

/-! ## PARK, CHECKPOINT and REVIVE by phases (R398) -/

/-- Phase 3 of PARK. -/
def Dev.parkEnd (d : Dev) (id : Nat) (o : SesOp) : Dev :=
  let r := d.sesRec id
  let x := d.setSes id { r with beds := bedsAfter r o, logPos := r.len, logVer := 0, state := .parked, op := 0, phase := 0 }
  let x := (x.afterBed r o).sesUnplace r
  let l := d.sesLog id
  let x := ((x.dropLog id).tellSync d id (l.waitNow ++ l.waitNext)).bump SES_PARK_CNT
  x.endOp d id 1 3 o .ok

/-- A log copy is emptied: its entries become zeros (R397). [DEDUCED: log 104] -/
def Dev.emptyLog (d : Dev) (id : Nat) (r : SesRec) : Dev :=
  let l := d.sesLog id
  let x := match d.copyOf r.region.index 2 with
    | some w => (d.write (w.addr 0) (zeros l.used)).1
    | none => d
  x.putLog id { SesLog.reset with sealedAt := d.tb.cueCount }

/-- Phase 3 of CHECKPOINT, and of a FORK of an ACTIVE parent. [DEDUCED: log 102] -/
def Dev.checkpointEnd (d : Dev) (id : Nat) (o : SesOp) : Dev :=
  let r := d.sesRec id
  match d.moveTail id r (d.tailBed r).length with
  | (x, true, _) =>
    let x := x.setSes id { r with beds := bedsAfter r o, logPos := r.len, logVer := 0, tail0 := r.len / 256, op := 0, phase := 0 }
    let x := x.afterBed r o
    let l := d.sesLog id
    let x := (x.emptyLog id r).tellSync d id (l.waitNow ++ l.waitNext)
    if r.op = 4 then
      let y := x.forkChild id o.child
      if y.2 = .ok then (y.1.bump SES_FORK_CNT).endOp d id 4 3 o .ok else y.1.endOp d id 4 3 o y.2
    else (x.bump SES_CKPT_CNT).endOp d id 3 3 o .ok
  | (x, false, .ok) => x
  | (x, false, .poison) => x.failOp id o
  | (x, false, st) => x.undoOp id o st

/-- Whether an APPEND of a session is running: come before any CHECKPOINT, and waiting for frames or lines. -/
def Dev.appendRuns (d : Dev) (id : Nat) : Bool := d.ses.appends.any (fun e => e.2.1.id == id && !e.2.2)

/-- PARK, CHECKPOINT or FORK goes on. -/
def Dev.sealStep (d : Dev) (id : Nat) (o : SesOp) : Dev :=
  let r := d.sesRec id
  match r.phase with
  | 0 =>
    if d.appendRuns id ∨ (r.op = 1 ∧ d.sesPinned id) then d
    else
      let d := if r.op = 1 then d.discardWindow id else d
      d.setSes id { r with phase := 1 }
  | 1 =>
    if !o.started then d.startSeals id o
    else match d.sealsDone r.region.index o.sealed with
      | none => d
      | some false => d.undoOp id o .busy
      | some true => d.setSes id { r with phase := 2 }
  | _ => if r.op = 1 then d.parkEnd id o else d.checkpointEnd id o

/-- Whether every extent of a version is LIVE. -/
def Dev.verLive (d : Dev) (b : Bed) : Bool :=
  match d.version b.region.index b.version with
  | some v => v.state != .draining && (versionExtents v).all (fun i => (Tab.find? d.ver.extents i).any (fun e => e.state == .live))
  | none => false

/-- Whether a frame's trailer agrees with the frame and its bed (R400). -/
def frameOk (r : SesRec) (b : Bed) (bs : Bytes) : Bool :=
  let t := slice bs 2093056 4096
  let row := leAt t 8 4
  let lgi := leAt t 12 4
  let n := leAt t 16 2
  leAt t 0 8 == crc64xz (slice bs 0 2093056) && leAt t 20 4 == b.version && n != 0 && n ≤ r.ppf && lgi < r.lg && b.first ≤ row &&
    row + (lgi + n - 1) / max 1 r.lg < b.first + b.rows

/-- Enters the pages of a frame into the page tables. -/
def Dev.pageFrame (d : Dev) (r : SesRec) (a : Nat) (bs : Bytes) : Dev :=
  let t := slice bs 2093056 4096
  (List.range (leAt t 16 2)).foldl (fun d k =>
    let i := leAt t 12 4 + k
    d.setPt r (leAt t 8 4 + i / max 1 r.lg) (i % max 1 r.lg) (a + k * r.geom.page)) d

/-- Every frame of every bed, with its extent and its place in the KV copy. -/
def Dev.bedList (d : Dev) (r : SesRec) : List (Bed × Nat × Nat) :=
  let l := r.beds.flatMap (fun b => match d.version b.region.index b.version with
    | some v => (versionExtents v).map (fun i => (b, i))
    | none => [])
  let w := ((d.kvCopy r).map (·.frames)).getD []
  l.zipIdx.map (fun e => (e.1.1, e.1.2, frameAddr r.tier (w.getD e.2 0)))

/-- Brings the frames of the beds in, one after another from o.loaded on (R400, R454): OK with true once all are in, and with false while blocks or
lines are awaited; POISON with the loss of a block, VERSION_CONFLICT for a frame that fails its check. -/
def loadBeds (d : Dev) (id : Nat) (r : SesRec) (o : SesOp) : List (Bed × Nat × Nat) → Dev × Status × Bool
  | [] => (d, .ok, true)
  | (b, ext, a) :: fs =>
    let off := ext * 2 ^ 21
    let y := d.wantPool d.coh.party off (2 ^ 21) true
    if !y.2 then (y.1.putOp id o, .ok, false)
    else match y.1.heldPool y.1.coh.party off (2 ^ 21) with
    | none => (y.1, .poison, false)
    | some bs =>
      let w := y.1.ready [] (if spaceOf a = 1 then [(a, 2 ^ 21)] else [])
      if !w.2 then (w.1.putOp id o, .ok, false)
      else if frameOk r b bs then
        loadBeds (((w.1.write a bs).1.pageFrame r a bs).dropSync) id r { o with loaded := o.loaded + 1 } fs
      else (w.1, .versionConflict, false)

/-- REVIVE goes on. [DEDUCED: log 102] -/
def Dev.reviveStep (d : Dev) (id : Nat) (o : SesOp) : Dev :=
  let r := d.sesRec id
  match r.phase with
  | 0 =>
    if d.sesPinned id then d
    else if !r.beds.all d.verLive then d.undoOp id o .revoked
    else if d.sec.seed.isNone then d.undoOp id o .busy
    else match d.sesRoom r (d.bedTotal r) with
      | (x, true, _) =>
        let y := x.sesPlace r (d.bedTotal r)
        if y.2 then y.1.setSes id { r with phase := 1 } else y.1.undoOp id o .busy
      | (x, false, .ok) => x
      | (x, false, st) => x.undoOp id o st
  | 1 =>
    if !r.beds.all d.verLive then d.undoOp id o .revoked
    else
      let y := loadBeds d id r o ((d.bedList r).drop o.loaded)
      match y.2.1 with
      | .ok => if y.2.2 then y.1.setSes id { r with phase := 2 } else y.1
      | .poison => y.1.failOp id o
      | _ => ((y.1.bump SES_CHECK_FAIL_CNT).sesEvent 2).undoOp id o .poison
  | _ =>
    match d.moveTail id r 0 with
    | (x, true, _) =>
      let x := x.setSes id { r with tail0 := r.len / 256, state := .active, op := 0, phase := 0 }
      let x := (x.putLog id { SesLog.reset with sealedAt := d.tb.cueCount }).bump SES_REVIVE_CNT
      x.endOp d id 2 3 o .ok
    | (x, false, .ok) => x
    | (x, false, st) => x.undoOp id o st

/-! ## The start of the operations -/

def opBad (id deadline : Nat) : Bool := 2 ^ 24 ≤ id || 65536 ≤ deadline

def Dev.parkOp (d : Dev) (id deadline : Nat) (a : Asker) : Dev :=
  d.sesStart a id 1 (opBad id deadline) (fun d r =>
    (d.setSes id { r with state := .parking, op := 1, phase := 0 }).putOp id (newOp a (d.deadlineAt deadline) .active))

/-- [DEDUCED: log 102] -/
def Dev.checkpointOp (d : Dev) (id deadline : Nat) (a : Asker) : Dev :=
  d.sesStart a id 3 (opBad id deadline) (fun d r =>
    (d.setSes id { r with op := 3, phase := 0 }).putOp id (newOp a (d.deadlineAt deadline) .active))

def Dev.reviveOp (d : Dev) (id deadline : Nat) (a : Asker) : Dev :=
  d.sesStart a id 2 (opBad id deadline) (fun d r =>
    (d.setSes id { r with state := .reviving, op := 2, phase := 0 }).putOp id (newOp a (d.deadlineAt deadline) .parked))

def Dev.forkOp (d : Dev) (id child : Nat) (a : Asker) : Dev :=
  d.sesStart a id 4 (2 ^ 24 ≤ id || 2 ^ 24 ≤ child || id == child || d.sesLimit ≤ child) (fun d r =>
    if (d.sesRec child).state ≠ .free then d.sesTell d a id 4 0 .busy []
    else if d.sesFull r.part then d.sesTell d a id 4 0 .quota []
    else if r.state = .parked then
      let y := d.forkChild id child
      if y.2 = .ok then (y.1.bump SES_FORK_CNT).sesTell d a id 4 0 .ok [] else y.1.sesTell d a id 4 0 y.2 []
    else (d.setSes id { r with op := 4, phase := 0 }).putOp id { newOp a 0 .active with child := child })

def Dev.deleteOp (d : Dev) (id : Nat) (a : Asker) : Dev :=
  d.sesStart a id 11 (2 ^ 24 ≤ id) (fun d _ =>
    let l := d.sesLog id
    let x := (l.waitNow ++ l.waitNext).foldl (fun x b => x.sesTell d b id 12 0 .aborted []) (d.freeSession id)
    (x.failAppends id .aborted).sesTell d a id 11 0 .ok [])

/-- QUERY. A context of a confidential partition reads STAMP quantised (R514). [DESIGN CHOICE: log 40] -/
def Dev.queryOp (d : Dev) (id : Nat) (a : Asker) : Dev :=
  let st := if 2 ^ 24 ≤ id then .badRequest else d.sesCheck (d.askerPart a) id
  let r := d.sesRec id
  let shown := if (d.askerPart a).isSome then { r with stamp := d.seenTime r.part r.stamp } else r
  d.sesTell d a id 13 0 st (if st = .ok then sesBytes shown else [])

/-! ## CREATE (R382, R390) -/

/-- Bytes of a projection table. -/
def projTable (r : SesRec) : Nat := r.lg * (64 + 128 * r.dim)

/-- [DEDUCED: log 98] -/
def geomBad (layers groups dim fmt tier policy : Nat) : Bool :=
  layers == 0 || 256 < layers || groups == 0 || 256 < groups || dim == 0 || 256 < dim || dim % 32 != 0 || !kvFmtOk fmt || 2 ≤ tier || 3 ≤ policy

def createRec (c : SesCreate) : SesRec :=
  { SesRec.reset with part := c.part, kvmir := c.kvmir, tier := c.tier, policy := c.policy, layers := c.layers, groups := c.groups, dim := c.d, fmt := c.fmt,
                      maxRows := ceilDiv c.maxlen 256, proj := c.proj }

/-- [DEDUCED: log 98] -/
def Dev.createBad (d : Dev) (c : SesCreate) : Bool :=
  2 ^ 24 ≤ c.id || 16 ≤ c.part || geomBad c.layers c.groups c.d c.fmt c.tier c.policy || c.maxlen == 0 || 4194304 < c.maxlen ||
    c.proj.toNat % 64 != 0 || !inMem c.proj.toNat (projTable (createRec c)) || d.sesLimit ≤ c.id

/-- Creates a session once its copies have room; it waits while evictions are under way. [DEDUCED: log 98] -/
def Dev.createNow (d : Dev) (c : SesCreate) (a : Asker) : Dev :=
  let r := createRec c
  let fail := fun (x : Dev) st => x.sesTell d a c.id 10 0 st []
  if d.createBad c then fail d .badRequest
  else if (d.sesRec c.id).state ≠ .free ∨ d.pair.state = .joining then fail d .busy
  else if !d.owns c.part c.proj.toNat (projTable r) then fail d .access
  else if d.sesFull c.part then fail d .quota
  else match d.sesRoom r 0 with
    | (x, false, .ok) => { x with ses := { x.ses with creates := x.ses.creates ++ [(a, c)] } }
    | (x, false, st) => fail x st
    | (x, true, _) =>
      match x.regionNew c.part c.policy c.kvmir (c.id + 1) with
      | (_, none) => fail x .busy
      | (y, some ri) =>
        let r := { r with region := { index := ri, gen := ((Tab.find? y.ver.regions ri).map (·.gen)).getD 0 }, owner := d.devId, epoch := 1, state := .active }
        let z := y.sesPlace r 0
        if !z.2 then (fail (z.1.leaveRegion ri) .busy)
        else
          let z := (z.1.setSes c.id r).putLog c.id { SesLog.reset with sealedAt := d.tb.cueCount }
          z.sesTell d a c.id 10 0 .ok []

/-! ## APPEND (R326, R394 to R396) -/

def appendBad (x : SesAppend) : Bool :=
  2 ^ 24 ≤ x.id || 2 ^ 23 ≤ x.pos || x.count == 0 || 4096 < x.count || 256 ≤ x.layerLo || x.nLayer == 0 || 256 < x.nLayer || 4096 < x.inLen

/-- Whether an APPEND commits its window. -/
def commits (r : SesRec) (w : Option Window) (x : SesAppend) : Bool := ((w.map (fun w => w.layers.length)).getD 0) + x.nLayer == r.layers

/-- The rules of R394 and R396. [DEDUCED: log 97] -/
def appendRule (r : SesRec) (w : Option Window) (x : SesAppend) : Status :=
  let fits := match w with
    | none => x.pos == r.len
    | some w => x.pos == w.pos && x.count == w.count && (List.range x.nLayer).all (fun i => !((x.layerLo + i) ∈ w.layers))
  if r.layers < x.layerLo + x.nLayer ∨ !fits ∨ (x.inLen ≠ 0 ∧ !commits r w x) then .badRequest
  else if 4194304 < x.pos + x.count ∨ r.maxRows * 256 < x.pos + x.count then .limit
  else .ok

/-- A stand-in for the rights and the LOCAL of who asks. -/
def askerDesc (a : Asker) (part : Nat) : DescEntry :=
  newDesc 0 (match a with | .prim c _ _ _ _ _ => c | _ => { tile := 15, core := 15, ctx := 15 }) 0 0 part 0 []

def Dev.askerCheck (d : Dev) (a : Asker) (part addr n : Nat) : Status :=
  match a with
  | .prim _ _ _ _ _ _ => d.engCheck (askerDesc a part) addr n false
  | _ => if spaceOf addr = 0 then .badRequest else d.checkAccess part addr n false

/-- One element of a key sketch. [DEDUCED: log 106] -/
def sketchElem (u kscale : Nat) : Int :=
  match fpDec fp32 u with
  | .nan => 0
  | _ => match fpDec fp32 (fmul32 u kscale) with
    | .inf true => -8
    | .inf false => 7
    | v => clampInt (-8) 7 (fpToInt v)

/-- [DEDUCED: log 106] -/
def keySketch (g : Geom) (proj krow : Bytes) : Bytes :=
  let k := vecVals g.fmt g.d krow
  let e := (List.range 64).map (fun i => intFld 4 (sketchElem (dot32 (projRow g.d proj i) k) (leAt proj 0 4)))
  (List.range 32).map (fun i => BitVec.ofNat 8 (e.getD (2 * i) 0 + 16 * e.getD (2 * i + 1) 0))

/-- Whether the head of a projection entry is valid: KSCALE positive and finite, reserved bytes 0. -/
def projOk (proj : Bytes) : Bool :=
  (match fpDec fp32 (leAt proj 0 4) with | .fin false m _ => m != 0 | _ => false) && leNat (slice proj 4 60) == 0

/-- (layer, group) pairs of an APPEND, in the order of SRC. -/
def appendPairs (r : SesRec) (x : SesAppend) : List (Nat × Nat) :=
  (List.range x.nLayer).flatMap (fun l => (List.range r.groups).map (fun g => (x.layerLo + l, g)))

/-- Reads the projection entries; the status of the first that is bad. -/
def readProj (d : Dev) (g : Geom) : List (Nat × Nat) → Dev × List Bytes × Status
  | [] => (d, [], .ok)
  | p :: ps =>
    let y := d.read (projAt g p.1 p.2) (projLen' g)
    if y.2.2 ≠ [] then (y.1, [], .poison)
    else if !projOk y.2.1 then (y.1, [], .badRequest)
    else
      let z := readProj y.1 g ps
      (z.1, y.2.1 :: z.2.1, z.2.2)

/-- Writes the rows of one pair. -/
def Dev.writeRows (d : Dev) (r : SesRec) (tail : List Nat) (x : SesAppend) (pair : Nat × Nat) (proj src : Bytes) : Dev × Bool :=
  let g := r.geom
  let lg := pair.1 * r.groups + pair.2
  let rows := (List.range (rowsOf (x.pos + x.count) - x.pos / 256)).map (· + x.pos / 256)
  let d := rows.foldl (fun d row => d.setPt r row lg (tailPage r tail ((row - r.tail0) * r.lg + lg))) d
  (List.range x.count).foldl (fun (z : Dev × Bool) j =>
    let p := x.pos + j
    let a := tailPage r tail ((p / 256 - r.tail0) * r.lg + lg)
    let k := slice src (j * g.stride) g.stride
    let v := slice src ((x.count + j) * g.stride) g.stride
    let y1 := z.1.write (a + p % 256 * g.stride) k
    let y2 := y1.1.write (a + 256 * g.stride + p % 256 * g.stride) v
    let y3 := y2.1.write (a + 512 * g.stride + p % 256 * 32) (keySketch g proj k)
    (y3.1, z.2 && y1.2 && y2.2 && y3.2)) (d, true)

/-- Writes a log entry and counts it; a confidential partition's TBASE is quantised (R514). [DEDUCED: log 106] -/
def Dev.logEntry (d : Dev) (id : Nat) (r : SesRec) (x : SesAppend) (input : Bytes) : Dev :=
  let l := d.sesLog id
  let s := d.stampNow
  let bs := leBytes 8 (x.pos + (x.count - 1) * 2 ^ 23 + x.inLen * 2 ^ 35) ++ leBytes 8 (d.seenTime r.part s.2) ++ input ++ zeros ((16 - input.length % 16) % 16)
  let d := match s.1.copyOf r.region.index 2 with
    | some w => (s.1.write (w.addr l.used) bs).1
    | none => s.1
  d.putLog id { l with used := l.used + bs.length, dirty := true }

/-- The window after an APPEND, or its commit. -/
def Dev.windowStep (d before : Dev) (a : Asker) (r : SesRec) (x : SesAppend) (input : Bytes) : Dev :=
  let w := Tab.find? d.ses.windows x.id
  if commits r w x then
    let d := ({ d with ses := { d.ses with windows := Tab.erase d.ses.windows x.id } } : Dev).logEntry x.id r x input
    let d := (d.setSes x.id { r with len := x.pos + x.count }).bump SES_APPEND_CNT
    if x.sync then
      let l := d.sesLog x.id
      d.putLog x.id { l with waitNext := l.waitNext ++ [a] }
    else d.sesTell before a x.id 12 0 .ok []
  else
    let w' : Window := { pos := x.pos, count := x.count, layers := ((w.map (·.layers)).getD []) ++ (List.range x.nLayer).map (· + x.layerLo),
                         lastCue := d.tb.cueCount }
    ({ d with ses := { d.ses with windows := Tab.insert d.ses.windows x.id w' } } : Dev).sesTell before a x.id 12 0 .ok []

/-- Whether an APPEND commits its window and its entry does not fit in the log copy (R396). -/
def Dev.logFull (d : Dev) (x : SesAppend) : Bool :=
  commits (d.sesRec x.id) (Tab.find? d.ses.windows x.id) x && decide (2 ^ 21 < (d.sesLog x.id).used + 16 + ceilDiv x.inLen 16 * 16)

/-- An APPEND whose session is ACTIVE goes on; false: it waits for frames, lines, or a CHECKPOINT that empties the log. -/
def Dev.appendWork (d : Dev) (a : Asker) (x : SesAppend) : Dev × Bool :=
  let r := d.sesRec x.id
  let g := r.geom
  let w := Tab.find? d.ses.windows x.id
  let fail := fun (y : Dev) st => (y.sesTell d a x.id 12 0 st [], true)
  let st := appendRule r w x
  let n := x.nLayer * r.groups * 2 * x.count * g.stride
  let src := x.src.toNat
  let input := x.input.toNat
  if st = .limit then fail ((d.bump ATT_LIMIT_CNT).event ATT_EVT 1 (d.regFld ATT_CFG 5 1 == 1)) .limit
  else if st ≠ .ok then fail d st
  else
    let st := joinStatus (d.askerCheck a r.part src n) (if x.inLen = 0 then .ok else d.askerCheck a r.part input x.inLen)
    if st ≠ .ok then fail d st
    else if d.logFull x then
      (if (d.sesOp x.id).isSome then d else d.checkpointOp x.id 0 (.session x.id), false)
    else
      let pairs := appendPairs r x
      let last := (rowsOf (x.pos + x.count) - 1 - r.tail0) * r.lg + (x.layerLo + x.nLayer) * r.groups - 1
      let near := fun (l : List (Nat × Nat)) => l.filter (fun y => spaceOf y.1 == 1)
      let h := d.hostFetch [(src, n), (input, x.inLen)]
      let q := h.1.poolFetch [(src, n), (input, x.inLen)]
      let ry := q.1.ready (near ([(src, n), (input, x.inLen)] ++ pairs.map (fun p => (projAt g p.1 p.2, projLen' g))))
        (near ((d.tailFrames r).map (fun f => (frameAddr r.tier f, 2 ^ 21))))
      if !h.2 ∨ !q.2 ∨ !ry.2 then (ry.1, false)
      else
        let pr := readProj ry.1 g pairs
        if pr.2.2 ≠ .ok then fail pr.1 pr.2.2
        else
          let s := pr.1.engRead (askerDesc a r.part) src n
          let i := if x.inLen = 0 then (s.1, ([] : Bytes), Status.ok) else s.1.engRead (askerDesc a r.part) input x.inLen
          let st := joinStatus s.2.2 i.2.2
          if st ≠ .ok then fail i.1 st
          else match i.1.growKv r (last / max 1 r.ppf + 1 - (i.1.tailFrames r).length) with
            | (y, false, .ok) => (y, false)
            | (y, false, st) => fail y st
            | (y, true, _) =>
              let tail := y.tailFrames r
              let each := 2 * x.count * g.stride
              let z := (pairs.zip pr.2.1).zipIdx.foldl (fun (z : Dev × Bool) e =>
                let v := z.1.writeRows r tail x e.1.1 e.1.2 (slice s.2.1 (e.2 * each) each)
                (v.1, z.2 && v.2)) (y, true)
              if z.2 then (z.1.windowStep d a r x i.2.1, true) else fail z.1 .poison

/-- Runs an APPEND whose session is ACTIVE, as the session's party; what was fetched for it is forgotten once it ends. -/
def Dev.tryAppend (d : Dev) (a : Asker) (x : SesAppend) : Dev × Bool :=
  let y := ({ d with coh := { d.coh with party := sesParty x.id } } : Dev).appendWork a x
  let e := if y.2 then y.1.dropSyncOf (sesParty x.id) else y.1
  ({ e with coh := { e.coh with party := d.coh.party } }, y.2)

/-- APPEND: one that comes during a CHECKPOINT, or behind another that waits, waits (R408). -/
def Dev.appendOp (d : Dev) (x : SesAppend) (a : Asker) : Dev :=
  let hold := fun (d : Dev) (b : Bool) => { d with ses := { d.ses with appends := d.ses.appends ++ [(a, x, b)] } }
  d.sesStart a x.id 12 (appendBad x) (fun d _ =>
    if (d.sesOp x.id).isSome then hold d true
    else if d.ses.appends.any (fun e => e.2.1.id == x.id) then hold d false
    else
      let y := d.tryAppend a x
      if y.2 then y.1 else hold y.1 (d.logFull x))

/-- Whether an APPEND that waits may go on as it is: its session is ACTIVE, or leaves ACTIVE only once the APPENDs that run have ended
(R395, R408). -/
def Dev.appendStays (d : Dev) (id : Nat) (held : Bool) : Bool :=
  let s := (d.sesRec id).state
  s == .active || (!held && (s == .parking || s == .movingOut))

/-- APPENDs of a session that wait go on in order. The number bounds them. -/
def Dev.resumeAppends (d : Dev) (id : Nat) : Nat → Dev
  | 0 => d
  | n + 1 =>
    match d.ses.appends.find? (fun e => e.2.1.id == id && (!e.2.2 || (d.sesOp id).isNone)) with
    | none => d
    | some e =>
      let rest := d.ses.appends.filter (fun f => !(f == e))
      if !d.appendStays id e.2.2 then
        ({ d with ses := { d.ses with appends := rest } } : Dev).appendOp e.2.1 e.1 |>.resumeAppends id n
      else
        let y := ({ d with ses := { d.ses with appends := rest } } : Dev).tryAppend e.1 e.2.1
        if y.2 then y.1.resumeAppends id n
        else { y.1 with ses := { y.1.ses with appends := (e.1, e.2.1, e.2.2 || d.logFull e.2.1) :: y.1.ses.appends } }

/-! ## The log (R397) -/

/-- A log seal that has ended: LOGVER takes the version and the old one is discarded. [DEDUCED: log 104] -/
def Dev.settleLog (d : Dev) (id : Nat) : Dev :=
  let l := d.sesLog id
  let r := d.sesRec id
  match l.sealing with
  | none => d
  | some v =>
    match d.sealsDone r.region.index [v] with
    | none => d
    | some false => d.putLog id { l with sealing := none, dirty := true, waitNow := [], waitNext := l.waitNow ++ l.waitNext }
    | some true =>
      let x := (d.setSes id { r with logVer := v }).putLog id { l with sealing := none, waitNow := [] }
      let x := if r.logVer = 0 then x else x.discardVer r.region.index r.logVer
      x.tellSync d id l.waitNow

def Dev.settleLogs (d : Dev) : Dev := (d.ses.logs.map (·.1)).foldl (fun d id => d.settleLog id) d

/-- The log copy is sealed when entries were added and LOG_PERIOD has passed. -/
def Dev.logSeal (d : Dev) (id : Nat) : Dev :=
  let d := d.settleLog id
  let l := d.sesLog id
  let r := d.sesRec id
  if r.state = .active ∧ l.dirty ∧ l.sealing.isNone ∧ (d.sesOp id).isNone ∧ l.sealedAt + max 1 (d.regFld SES_CFG 0 16) ≤ d.tb.cueCount then
    let v := d.nextVer r.region.index
    let y := d.sealLogCopy r
    if y.2 = .ok then
      y.1.putLog id { l with dirty := false, sealedAt := d.tb.cueCount, sealing := some v, waitNow := l.waitNext, waitNext := [] }
    else y.1
  else d

/-- A window without an APPEND for WIN_TMO cues is discarded (R395). -/
def Dev.windowTimeout (d : Dev) (id : Nat) : Dev :=
  match Tab.find? d.ses.windows id with
  | some w => if w.lastCue + max 1 (d.regFld SES_CFG 32 8) ≤ d.tb.cueCount ∧ !d.ses.appends.any (fun e => e.2.1.id == id) then d.discardWindow id else d
  | none => d

/-- CREATEs that wait for evictions go on. -/
def Dev.resumeCreates (d : Dev) (id : Nat) : Dev :=
  let l := d.ses.creates.filter (fun e => e.2.id == id)
  l.foldl (fun d e => d.createNow e.2 e.1) { d with ses := { d.ses with creates := d.ses.creates.filter (fun e => e.2.id != id) } }

end Sys2Proof.Machine
end

