-- ==== Sys2Proof/Machine/Move.lean ====
section
/-! DEFINITION. Sessions between devices (R404 to R408, R426): MOVE at its source, the notices at its target, CLAIM, HANDOVER; the steps
of the operations in progress; and the primitives ses and ver (R571). -/

namespace Sys2Proof.Machine

/-! ## Notices (R404) -/

/-- A notice about session id to the session that its record's PEER fields name. The manual gives no class, HOPS, core or context for
it: class 0, 7 hops, core 0 and context 0 of the slice's tile. [DESIGN CHOICE: log 107] -/
def Dev.sesNotice (d : Dev) (id : Nat) (r : SesRec) (serial kind addr : Nat) (data : Bytes) : Dev × Bool :=
  let t : Txn := { blankTxn with
    len := BitVec.ofNat 13 data.length, addr := BitVec.ofNat 64 addr, data := data
    route := { dstDev := BitVec.ofNat 12 r.peerDev, srcDev := BitVec.ofNat 12 d.devId, dstPart := BitVec.ofNat 4 r.peerPart,
               dstTile := BitVec.ofNat 4 (r.peerSes % 12), dstCore := 0, dstCtx := 0, hops := 7,
               notify := BitVec.ofNat 64 (r.peerSes + kind * 2 ^ 24 + id * 2 ^ 28 + 0xB * 2 ^ 60) } }
  let y := d.sendMsg r.part t (.sesNotice id (kind + 8 * serial))
  (y.1, y.2.isSome)

/-- [DESIGN CHOICE: log 108] -/
def Dev.newSerial (d : Dev) : Dev × Nat := ({ d with txn := { d.txn with nextId := d.txn.nextId + 1 } }, d.txn.nextId + 1)

/-! ## MOVE at the source (R405) -/

/-- The start of MOVE. -/
def Dev.moveOp (d : Dev) (m : SesMove) (a : Asker) : Dev :=
  let bad := opBad m.id m.deadline || 4096 ≤ m.dev || 16 ≤ m.part || 2 ^ 24 ≤ m.tid || 2 ≤ m.tier || 2 ≤ m.mode || m.proj.toNat % 64 != 0 ||
    m.dev == d.devId || (d.pair.state != .unpaired && m.dev == d.partner)
  d.sesStart a m.id 5 bad (fun d r =>
    if r.unconf then d.sesTell d a m.id 5 0 .busy []
    -- a confidential partition needs a link that its notices may use (R513)
    else if d.isConf r.part ∧ (d.msgLink r.part m.dev).isNone then d.sesTell d a m.id 5 0 .access []
    else
      let s := d.newSerial
      let x := s.1.setSes m.id { r with state := .movingOut, op := 5, phase := 0, prior := if r.state = .parked then 1 else 0, peerDev := m.dev,
                                        peerPart := m.part, peerSes := m.tid }
      x.putOp m.id { newOp a (d.deadlineAt m.deadline) r.state with proj := m.proj, tier := m.tier, mode := m.mode, serial := s.2 })

/-- Blocks of the stream: the rows below ceil(LEN / 256). -/
def streamBlocks (r : SesRec) : Nat := rowsOf r.len * r.lg * r.geom.page / 4096

/-- POOL offset of a block of an extent. -/
def blockAt (ext b : Nat) : Nat := (ext * 512 + b) * 4096

/-- Asks for the trailers of bed frames (R387, R454); true once all have come. -/
def Dev.wantTrailers (d : Dev) (l : List (Bed × Nat × Nat)) : Dev × Bool :=
  l.foldl (fun (z : Dev × Bool) f =>
    let y := z.1.wantPool z.1.coh.party (blockAt f.2.1 511) 4096 true
    (y.1, z.2 && y.2)) (d, true)

/-- The bed frame that governs a page, by the trailers at hand: the last one that holds it (R386): extent and first page. -/
def Dev.findPage (d : Dev) (r : SesRec) (k : Nat) (l : List (Bed × Nat × Nat)) : Option (Nat × Nat) :=
  (l.filterMap (fun f => (d.heldBlock d.coh.party (f.2.1 * 512 + 511)).bind (fun t =>
    let first := leAt t 8 4 * r.lg + leAt t 12 4
    if first ≤ k ∧ k < first + leAt t 16 2 then some (f.2.1, first) else none))).getLast?

/-- Block j of the stream, or why it cannot be read. No block and OK: blocks or lines of it are still being fetched. -/
def Dev.streamBlock (d : Dev) (r : SesRec) (j : Nat) : Dev × Option Bytes × Status :=
  let page := r.geom.page
  let k := j * 4096 / page
  let off := j * 4096 % page
  if r.prior = 1 then
    let l := d.bedList r
    if !r.beds.all d.verLive then (d, none, .revoked)
    else
      let y := d.wantTrailers l
      if !y.2 then (y.1, none, .ok)
      else if l.any (fun f => (y.1.heldBlock y.1.coh.party (f.2.1 * 512 + 511)).isNone) then (y.1, none, .poison)
      else match y.1.findPage r k l with
        | none => (y.1, none, .poison)
        | some (ext, first) =>
          let b := ((k - first) * page + off) / 4096
          let z := y.1.wantPool y.1.coh.party (blockAt ext b) 4096 true
          if !z.2 then (z.1, none, .ok)
          else match z.1.heldBlock z.1.coh.party (ext * 512 + b) with
            | some bs => (z.1, some bs, .ok)
            | none => (z.1, none, .poison)
  else
    let a := d.getPt r (k / r.lg) (k % r.lg) + off
    let ry := d.ready (if spaceOf a = 1 then [(a, 4096)] else []) []
    if !ry.2 then (ry.1, none, .ok)
    else
      let y := ry.1.read a 4096
      (y.1.dropSync, if y.2.2 = [] then some y.2.1 else none, if y.2.2 = [] then .ok else .poison)

/-- Sends blocks of the stream while tags are free; a page read that returns POISON fails the session (R393). The number bounds them. -/
def Dev.sendBlocks (d : Dev) (id : Nat) : Nat → Dev
  | 0 => d
  | n + 1 =>
    match d.sesOp id with
    | none => d
    | some o =>
      let r := d.sesRec id
      if streamBlocks r ≤ o.sent ∨ o.reply.isSome then d
      else match d.streamBlock r o.sent with
        | (x, none, .ok) => x
        | (x, none, .poison) => (x.sesNotice id r o.serial 3 0 []).1.failOp id o
        | (x, none, st) => x.putOp id { o with reply := some st }
        | (x, some bs, _) =>
          let y := x.sesNotice id r o.serial 1 (o.sent * 4096) bs
          if y.2 then (y.1.putOp id { o with sent := o.sent + 1 }).sendBlocks id n else y.1

/-- The move fails before COMMIT: ABORT is sent and the move undone (R399, R405). -/
def Dev.moveFail (d : Dev) (id : Nat) (o : SesOp) (st : Status) : Dev :=
  let r := d.sesRec id
  (d.sesNotice id r o.serial 3 0 []).1.undoOp id o st

/-- COMMIT was answered OK: the session belongs to the target. -/
def Dev.moveDone (d : Dev) (id : Nat) (o : SesOp) (finish : Bool) : Dev :=
  let r := d.sesRec id
  let x := (d.freeSession id).bump SES_MOVE_CNT
  let x := if finish then (x.sesNotice id r o.serial 5 0 []).1 else x
  x.endOp d id 5 3 o .ok

/-- MOVE goes on. [DESIGN CHOICE: log 107; DEDUCED: log 109] -/
def Dev.moveStep (d : Dev) (id : Nat) (o : SesOp) : Dev :=
  let r := d.sesRec id
  match r.phase, o.started, o.reply with
  | 0, false, _ =>
    if d.sesPinned id ∨ d.appendRuns id then d
    else
      let y := (d.discardWindow id).sesNotice id r o.serial 0 0 (sesBytes { r with proj := o.proj, tier := o.tier, prior := o.mode })
      if y.2 then y.1.putOp id { o with started := true } else y.1
  | 0, true, some .ok => (d.setSes id { r with phase := 1 }).putOp id { o with started := false, reply := none }
  | 1, _, none =>
    if streamBlocks r ≤ o.acked then (d.setSes id { r with phase := 2 }).putOp id { o with started := false } else d.sendBlocks id 8192
  | 2, false, _ =>
    let y := d.sesNotice id r o.serial 2 0 (leBytes 8 (r.epoch + 1))
    if y.2 then y.1.putOp id { o with started := true } else y.1
  | 2, true, some .ok => d.moveDone id o true
  | 2, true, some st => d.undoOp id o st
  | _, _, some st => d.moveFail id o st
  | _, _, none => d

/-! ## CLAIM (R407) -/

def Dev.claimOp (d : Dev) (id : Nat) (a : Asker) : Dev :=
  d.sesStart a id 7 (2 ^ 24 ≤ id) (fun d r =>
    let s := d.newSerial
    (s.1.setSes id { r with op := 7, phase := 0 }).putOp id { newOp a 0 .orphaned with serial := s.2 })

/-- CLAIM goes on: the query, then what its answer decides. [DEDUCED: log 109] -/
def Dev.claimStep (d : Dev) (id : Nat) (o : SesOp) : Dev :=
  let r := d.sesRec id
  match o.started, o.reply with
  | false, _ =>
    let y := d.sesNotice id r o.serial 4 0 []
    if y.2 then y.1.putOp id { o with started := true } else y.1
  | true, none => d
  | true, some .ok => (d.freeSession id).endOp d id 7 0 o .notOwner
  | true, some .notOwner =>
    (d.setSes id { r with state := if r.prior = 1 then .parked else .active, epoch := (r.epoch + 2) % 2 ^ 32, op := 0, phase := 0 }).endOp d id 7 0 o .ok
  | true, some st => (d.setSes id { r with op := 0, phase := 0 }).endOp d id 7 0 o st

/-! ## Answers to the device's notices -/

/-- An answer to a notice of session id, or none when its tag has entered LOST (R405 to R407). -/
def Dev.sesNoticeAnswer (d : Dev) (id code : Nat) (st? : Option Status) : Dev :=
  let kind := code % 8
  let serial := code / 8
  let r := d.sesRec id
  match d.sesOp id with
  | some o =>
    if o.serial ≠ serial ∨ serial = 0 then d
    else if kind = 1 then
      (if st? = some .ok then d.putOp id { o with acked := o.acked + 1 }
       else d.putOp id { o with reply := some ((o.reply).getD (st?.getD .timeout)) })
    else if kind = 2 ∧ st? = none then
      ((d.setSes id { r with state := .orphaned, op := 0, phase := 0 }).sesEvent 1).endOp d id 5 2 o .timeout
    else if kind = 0 ∨ kind = 2 ∨ kind = 4 then d.putOp id { o with reply := some (st?.getD .timeout) }
    else d
  | none => if kind = 4 ∧ serial = 0 ∧ st? = some .ok ∧ r.unconf then d.setSes id { r with unconf := false } else d

/-! ## The target (R404, R406, R407) -/

/-- Answers a notice once the mirror frames of its record write are acknowledged (R420). -/
def Dev.noteAnswer (d before : Dev) (q : ReqId) (t : Txn) (st : Status) (aux : Nat := 0) : Dev :=
  let fr := newFrames before d
  if fr = [] then d.msgFinish q t st aux
  else { d with pair := { d.pair with waits := d.pair.waits ++ [(fr, .note q t st aux)] } }

/-- A notice that is not answered yet. -/
def Dev.holdNote (d : Dev) (q : ReqId) (t : Txn) : Dev := { d with ses := { d.ses with notices := d.ses.notices ++ [(q, t)] } }

def noteSes (t : Txn) : Nat := fld t.route.notify.toNat 0 24
def noteKind (t : Txn) : Nat := fld t.route.notify.toNat 24 4
def noteFrom (t : Txn) : Nat := fld t.route.notify.toNat 28 24

/-- Whether a record is a move-in, or a moved-in session, from the sender of a notice. -/
def isPeer (r : SesRec) (t : Txn) : Bool := r.peerDev == t.route.srcDev.toNat && r.peerSes == noteFrom t

/-- Undoes a move-in: its frames and its region go, and a COMMIT that waits is refused (R406). -/
def Dev.undoMoveIn (d : Dev) (id : Nat) : Dev :=
  let mine := d.ses.notices.filter (fun n => noteSes n.2 == id)
  let r := d.sesRec id
  let x := match d.sesOp id with
    | some o => o.sealed.foldl (fun (d : Dev) v => d.discardVer r.region.index v) (d.dropOp id)
    | none => d
  let x := { x with ses := { x.ses with notices := x.ses.notices.filter (fun n => noteSes n.2 != id) } }
  mine.foldl (fun y n => y.noteAnswer d n.1 n.2 .notOwner) (x.freeSession id)

/-- OFFER. [DESIGN CHOICE: log 107] -/
def Dev.offerIn (d : Dev) (q : ReqId) (t : Txn) : Dev :=
  let id := noteSes t
  let s := sesOfBytes t.data
  let p := t.route.dstPart.toNat
  let r := { s with part := p }
  let bad := t.len ≠ 128 ∨ s.state = .free ∨ geomBad r.layers r.groups r.dim r.fmt r.tier r.policy ∨ r.maxRows = 0 ∨ 16384 < r.maxRows ∨
    r.maxRows * 256 < r.len ∨ r.proj.toNat % 64 ≠ 0 ∨ !inMem r.proj.toNat (projTable r) ∨ !d.owns p r.proj.toNat (projTable r)
  if bad then d.msgFinish q t .badRequest
  else if (d.sesRec id).state ≠ .free then d.msgFinish q t .busy
  else if d.sesFull p then d.msgFinish q t .quota
  else
    let kv := ceilDiv (rowsOf r.len * r.lg) (max 1 r.ppf)
    match d.sesRoom r kv with
    | (x, false, .ok) => x.holdNote q t
    | (x, false, st) => x.msgFinish q t st
    | (x, true, _) =>
      match x.regionNew p r.policy r.kvmir (id + 1) with
      | (_, none) => x.msgFinish q t .busy
      | (y, some ri) =>
        let r := { r with region := { index := ri, gen := ((Tab.find? y.ver.regions ri).map (·.gen)).getD 0 } }
        let z := y.sesPlace r kv
        if !z.2 then (z.1.leaveRegion ri).msgFinish q t .busy
        else
          let w := z.1.setSes id { r with state := .movingIn, owner := d.devId, op := 6, phase := 0, epoch := (s.epoch + 1) % 2 ^ 32,
                                          peerDev := t.route.srcDev.toNat, peerPart := s.part, peerSes := noteFrom t, logVer := 0, logPos := r.len,
                                          tail0 := 0, beds := [], unconf := false }
          let w := { w with ses := { w.ses with moveCue := Tab.insert w.ses.moveCue id d.tb.cueCount } }
          w.noteAnswer d q t .ok

/-- DATA: a block goes to its page. [DEDUCED: log 111] -/
def Dev.dataIn (d : Dev) (q : ReqId) (t : Txn) : Dev :=
  let id := noteSes t
  let r := d.sesRec id
  let off := t.addr.toNat
  if r.state ≠ .movingIn ∨ !isPeer r t then d.msgFinish q t .notOwner
  else if t.len ≠ 4096 ∨ off % 4096 ≠ 0 ∨ streamBlocks r * 4096 ≤ off then d.msgFinish q t .badRequest
  else
    let frames := ((d.kvCopy r).map (·.frames)).getD []
    let a := tailPage r frames (off / r.geom.page) + off % r.geom.page
    let ry := d.ready [] (if spaceOf a = 1 then [(a, 4096)] else [])
    if !ry.2 then ry.1.holdNote q t
    else
      let y := ry.1.write a (slice t.data 0 4096)
      let x := { y.1 with ses := { y.1.ses with moveCue := Tab.insert y.1.ses.moveCue id d.tb.cueCount } }
      x.dropSync.noteAnswer d q t (if y.2 then .ok else .poison)

/-- The page tables of a session whose pages are packed from (0, 0). -/
def Dev.buildTables (d : Dev) (r : SesRec) : Dev :=
  let frames := ((d.kvCopy r).map (·.frames)).getD []
  (List.range (rowsOf r.len * r.lg)).foldl (fun d k => d.setPt r (k / r.lg) (k % r.lg) (tailPage r frames k)) d

/-- The end of a COMMIT whose rows are sealed as one bed: the session is PARKED. -/
def Dev.commitParked (d : Dev) (id : Nat) (o : SesOp) (q : ReqId) (t : Txn) : Dev :=
  let r := d.sesRec id
  let x := d.setSes id { r with state := .parked, op := 0, phase := 0, unconf := true, logPos := r.len, beds := o.newBed.toList }
  let x := (o.newBed.toList.foldl (fun d b => d.holdBed b) x).sesUnplace r
  (x.dropOp id).noteAnswer d q t .ok

/-- COMMIT. [DEDUCED: log 111] -/
def Dev.commitIn (d : Dev) (q : ReqId) (t : Txn) : Dev :=
  let id := noteSes t
  let r := d.sesRec id
  if r.state ≠ .movingIn ∨ !isPeer r t ∨ t.len ≠ 8 ∨ leAt t.data 0 8 ≠ r.epoch then d.msgFinish q t .notOwner
  else if r.prior = 0 then
    let x := (d.buildTables r).setSes id { r with state := .active, unconf := true, op := 0, phase := 0 }
    (x.putLog id { SesLog.reset with sealedAt := d.tb.cueCount }).noteAnswer d q t .ok
  else
    let fs := d.tailBed r
    match d.sesOp id with
    | some o =>
      (match d.sealsDone r.region.index o.sealed with
       | none => d.holdNote q t
       | some true => d.commitParked id o q t
       | some false => (d.dropOp id).msgFinish q t .busy)
    | none =>
      if fs = [] then d.commitParked id (newOp .none 0 .movingIn) q t
      else
        let near := fun (l : List (Nat × Nat)) => l.filter (fun x => spaceOf x.1 == 1)
        let ry := d.ready (near (fs.map (fun f => (f.addr, 2 ^ 21)))) (near (fs.map (fun f => (f.addr + 2093056, 4096))))
        if !ry.2 then ry.1.holdNote q t
        else
        let v := d.nextVer r.region.index
        let y := ry.1.sealBed r fs
        if y.2 ≠ .ok then y.1.msgFinish q t y.2
        else (y.1.putOp id { newOp .none 0 .movingIn with
          started := true, sealed := [v], newBed := some { region := r.region, version := v, first := 0, rows := rowsOf r.len } }).holdNote q t

/-- OWNER_QUERY (R407). Where nothing is known of the move, whether this device is its source or its target does not follow from the
notice: the answer is open. [DESIGN CHOICE: log 110] -/
def Dev.queryIn (d : Dev) (q : ReqId) (t : Txn) : Dev :=
  let id := noteSes t
  let r := d.sesRec id
  if (r.state = SesState.movingOut ∨ r.state = SesState.orphaned) ∧ isPeer r t then
    let x := match d.sesOp id with
      | some o => if r.state = SesState.movingOut then d.moveDone id o false else (d.freeSession id).endOp d id 7 0 o .notOwner
      | none => d.freeSession id
    x.noteAnswer d q t .ok
  else if r.state = SesState.movingIn ∧ isPeer r t then (d.undoMoveIn id).noteAnswer d q t .notOwner
  else if r.state ≠ SesState.free ∧ r.owner = d.devId ∧ isPeer r t then d.msgFinish q t .ok r.epoch
  else
    let y := d.pickOne 6 [0, 1]
    y.1.msgFinish q t (if y.2 = some 0 then .ok else .notOwner)

/-- What a session notice does at its slice (R380, R404). -/
def Dev.noticeWork (q : ReqId) (t : Txn) (d : Dev) : Dev :=
  let id := noteSes t
  let r := d.sesRec id
  if d.sesLimit ≤ id then d.msgFinish q t .badRequest
  else match noteKind t with
  | 0 => d.offerIn q t
  | 1 => d.dataIn q t
  | 2 => d.commitIn q t
  | 3 => (if r.state = .movingIn ∧ isPeer r t then d.undoMoveIn id else d).noteAnswer d q t .ok
  | 4 => d.queryIn q t
  | 5 => (if r.unconf ∧ isPeer r t then d.setSes id { r with unconf := false } else d).noteAnswer d q t .ok
  | _ => d.msgFinish q t .badRequest

/-- A session notice reaches its slice, which works as the session's party. -/
def Dev.sesNoticeIn (d : Dev) (q : ReqId) (t : Txn) : Dev := d.asParty (sesParty (noteSes t)) (Dev.noticeWork q t)

/-- Notices that wait are looked at again. -/
def Dev.resumeNotes (d : Dev) (id : Nat) : Dev :=
  let mine := d.ses.notices.filter (fun n => noteSes n.2 == id)
  mine.foldl (fun d n => d.sesNoticeIn n.1 n.2) { d with ses := { d.ses with notices := d.ses.notices.filter (fun n => noteSes n.2 != id) } }

/-- A move-in without a notice for MOVE_TMO cues is undone (R406). -/
def Dev.moveTmo (d : Dev) : Nat := max 256 (d.regFld SES_CFG 16 16)

def Dev.moveInExpire (d : Dev) (id : Nat) : Dev :=
  if (d.sesRec id).state = .movingIn ∧ Tab.get 0 d.ses.moveCue id + d.moveTmo ≤ d.tb.cueCount ∧ (d.sesOp id).isNone then
    (d.undoMoveIn id).sesEvent 3
  else d

/-- An unconfirmed target asks the source again (R406). -/
def Dev.unconfAsk (d : Dev) (id : Nat) : Dev :=
  let r := d.sesRec id
  if r.unconf ∧ r.owner = d.devId ∧ Tab.get 0 d.ses.moveCue id + d.moveTmo ≤ d.tb.cueCount then
    let y := d.sesNotice id r 0 4 0 []
    { y.1 with ses := { y.1.ses with moveCue := Tab.insert y.1.ses.moveCue id d.tb.cueCount } }
  else d

/-! ## HANDOVER (R426) -/

def Dev.handoverOp (d : Dev) (id : Nat) (a : Asker) : Dev :=
  d.sesStart a id 9 (2 ^ 24 ≤ id) (fun d r =>
    if d.pair.state ≠ .paired then d.sesTell d a id 9 0 .busy []
    else
      let x := d.sendSes id { r with owner := d.partner, epoch := (r.epoch + 1) % 2 ^ 32 }
      let fr := newFrames d x
      { (x.putOp id (newOp a 0 .parked)) with pair := { x.pair with waits := x.pair.waits ++ [(fr, .handover id a)] } })

/-- The partner has the record: the owner writes its own, unless the partner's has come back first. [DEDUCED: log 123] -/
def Dev.handoverDone (d : Dev) (id : Nat) (a : Asker) : Dev :=
  let r := d.sesRec id
  if r.owner = d.devId then ((d.dropOp id).setSes id { r with owner := d.partner, epoch := (r.epoch + 1) % 2 ^ 32 }).tell a .ok []
  else (d.dropOp id).tell a .ok []

/-! ## The operations go on (R398) -/

/-- What the operation in progress on a session does next. -/
def Dev.opStep (id : Nat) (d : Dev) : Dev :=
  match d.sesOp id with
  | some o =>
    (match (d.sesRec id).op with
     | 1 => d.sealStep id o
     | 3 => d.sealStep id o
     | 4 => d.sealStep id o
     | 2 => d.reviveStep id o
     | 5 => d.moveStep id o
     | 7 => d.claimStep id o
     | _ => d)
  | none => d

/-- A session's operation goes on: one phase, or the end of a wait; then what waited for it. -/
def Dev.phaseStep (d : Dev) (id : Nat) : Dev :=
  let d := d.asParty (sesParty id) (Dev.opStep id)
  ((d.resumeAppends id (d.ses.appends.length + 1)).resumeCreates id).resumeNotes id

/-- The DEADLINE of an operation passes before its commit point: TIMEOUT (R399). A MOVE whose COMMIT is out is past it. [DEDUCED: log 109] -/
def Dev.opDeadline (d : Dev) (id : Nat) : Dev :=
  match d.sesOp id with
  | some o =>
    let r := d.sesRec id
    if o.deadline = 0 ∨ d.tb.cueCount < o.deadline then d
    else if r.op = 5 then (if r.phase = 2 ∧ o.started then d else d.moveFail id o .timeout)
    else d.undoOp id o .timeout
  | none => d

/-! ## The primitives (R571) -/

/-- [DEDUCED: log 112] -/
def resFields : List (Nat × Nat) := [(0, 8), (9, 1), (10, 18)]

/-- The fields a primitive uses beside the result block. -/
def primFields (op : Nat) : Option (List (Nat × Nat)) :=
  let ses := fun l => some ((8, 1) :: (64, 24) :: l)
  let ver := fun l => some ((64, 40) :: l)
  match op with
  | 0x10 => ses [(128, 53), (192, 64)]
  | 0x11 => ses []
  | 0x12 => ses [(128, 128), (256, 64), (336, 1)]
  | 0x13 => ses [(320, 16)]
  | 0x14 => ses [(320, 16)]
  | 0x15 => ses [(320, 16)]
  | 0x16 => ses [(128, 24)]
  | 0x17 => ses [(128, 42), (192, 64), (320, 16)]
  | 0x18 => ses []
  | 0x19 => ses []
  | 0x50 => ses []
  | 0x20 => some [(128, 7)]
  | 0x21 => ver []
  | 0x22 => ver [(128, 5), (256, 64), (320, 64)]
  | 0x23 => ver [(128, 5), (192, 32), (320, 64)]
  | 0x24 => ver [(128, 4), (134, 1)]
  | 0x25 => ver [(128, 4)]
  | 0x26 => ver [(128, 4)]
  | 0x27 => ver [(128, 4), (133, 1), (224, 32)]
  | 0x28 => ver [(192, 64)]
  | 0x29 => ver [(192, 32)]
  | 0x2A => ver [(192, 32)]
  | 0x2B => ver [(192, 32)]
  | 0x2C => ver [(192, 32)]
  | _ => none

/-- What refuses a primitive before its operation. [DEDUCED: log 112] -/
def primCheck (lo hi : Nat) (v : Desc) : Status :=
  let op := dfld v 0 8
  let align := if op = 0x19 then 128 else 64
  if !((lo ≤ op ∧ op ≤ hi) ∨ (lo = 0x10 ∧ op = 0x50)) then .badRequest
  else match primFields op with
  | none => .badRequest
  | some l =>
    if !onlyFields v (resFields ++ l) ∨ dfld v 10 18 % align ≠ 0 then .badRequest
    else if dfld v 9 1 = 1 ∧ 0x30000 < dfld v 10 18 + align then .access
    else .ok

/-- A session primitive runs. -/
def Dev.sesPrim (d : Dev) (p : Nat) (v : Desc) (a : Asker) : Dev :=
  let f := dfld v
  let id := f 64 24
  let w := fun lo => BitVec.ofNat 64 (f lo 64)
  match f 0 8 with
  | 0x10 =>
    if f 177 4 ≠ p then d.sesTell d a id 10 0 .access []
    else d.createNow { id := id, part := p, layers := f 128 8 + 1, groups := f 136 8 + 1, d := 32 * (f 144 3 + 1), fmt := f 147 4, tier := f 151 1,
                       policy := f 152 2, kvmir := f 154 1 == 1, proj := w 192, maxlen := f 155 22 + 1 } a
  | 0x11 => d.deleteOp id a
  | 0x12 => d.appendOp { id := id, pos := f 128 23, count := f 151 12 + 1, layerLo := f 163 8, nLayer := f 171 8 + 1, src := w 192, input := w 256,
                         inLen := f 179 13, sync := f 336 1 == 1 } a
  | 0x13 => d.parkOp id (f 320 16) a
  | 0x14 => d.checkpointOp id (f 320 16) a
  | 0x15 => d.reviveOp id (f 320 16) a
  | 0x16 => d.forkOp id (f 128 24) a
  | 0x17 => d.moveOp { id := id, dev := f 128 12, part := f 140 4, tid := f 144 24, proj := w 192, tier := f 168 1, mode := f 169 1, deadline := f 320 16 } a
  | 0x18 => d.claimOp id a
  | 0x19 => d.queryOp id a
  | _ => d.handoverOp id a

/-- A version primitive runs. -/
def Dev.verPrim (d : Dev) (p : Nat) (v : Desc) (a : Asker) : Dev :=
  let f := dfld v
  let on := fun q => d.regionOp (some p) a (regionOf (f 64 40)) q
  let w := fun lo => BitVec.ofNat 64 (f lo 64)
  match f 0 8 with
  | 0x20 => if f 128 4 ≠ p then d.tell a .access [] else d.createOp p (f 132 2) (f 134 1 == 1) a
  | 0x21 => on .destroy
  | 0x22 => on (.place (f 128 4) (f 132 1) (f 256 64) (w 320))
  | 0x23 => on (.load (f 128 4) (f 132 1) (f 192 32) (w 320))
  | 0x24 => on (.unplace (f 128 4) (f 134 1 == 1))
  | 0x25 => on (.pin (f 128 4))
  | 0x26 => on (.unpin (f 128 4))
  | 0x27 => on (.seal (f 128 4) (if f 133 1 = 1 then some (f 224 32) else none))
  | 0x28 => on (.publish (f 192 32) (f 224 32))
  | 0x29 => on (.openVersion (f 192 32))
  | 0x2A => on (.close (f 192 32))
  | 0x2B => on (.discard (f 192 32))
  | _ => on (.revoke (f 192 32))

/-- ses and ver: a ticket, and the operation that the descriptor names. -/
def primIssue (c : CtxId) (w : BitVec 32) (f : RegFnF) (lo hi : Nat) (run : Dev → Nat → Desc → Asker → Dev) : Dev → Dev :=
  issue c w [f.rd.toNat] (fun d x =>
    let v := x.dr f.ra.toNat
    if x.exhausted then d.raise c .ticketExhausted .ok x.pc w
    else
      let t := x.issueTicket .prim
      let d := d.setCtx c ((t.1.setG f.rd.toNat (BitVec.ofNat 64 (ticketVal t.2.1 t.2.2))).retire)
      let a := Asker.prim c t.2.1 t.2.2 (lo == 0x10 && dfld v 8 1 == 1) (dfld v 9 1 == 1) (dfld v 10 18)
      let st := primCheck lo hi v
      if st ≠ .ok then d.tell a st [] else run d x.part v a)

/-! ## Meanings -/

/-- CREATE (R390). -/
def execSessionCreate (c : SesCreate) (s : State) : Host.Outcome State Fault Refusal := s.run (·.mailbox 0xC310 (·.createNow c (.mailbox 0xC310)))

/-- DELETE (R390). -/
def execDelete (id : Nat) (s : State) : Host.Outcome State Fault Refusal := s.run (·.mailbox 0xC311 (·.deleteOp id (.mailbox 0xC311)))

/-- APPEND (R394). -/
def execAppend (x : SesAppend) (s : State) : Host.Outcome State Fault Refusal := s.run (·.mailbox 0xC312 (·.appendOp x (.mailbox 0xC312)))

/-- PARK (R398). -/
def execPark (id deadline : Nat) (s : State) : Host.Outcome State Fault Refusal := s.run (·.mailbox 0xC313 (·.parkOp id deadline (.mailbox 0xC313)))

/-- CHECKPOINT (R398). -/
def execCheckpoint (id deadline : Nat) (s : State) : Host.Outcome State Fault Refusal :=
  s.run (·.mailbox 0xC314 (·.checkpointOp id deadline (.mailbox 0xC314)))

/-- REVIVE (R398). -/
def execRevive (id deadline : Nat) (s : State) : Host.Outcome State Fault Refusal :=
  s.run (·.mailbox 0xC315 (·.reviveOp id deadline (.mailbox 0xC315)))

/-- FORK (R401). -/
def execFork (id child : Nat) (s : State) : Host.Outcome State Fault Refusal := s.run (·.mailbox 0xC316 (·.forkOp id child (.mailbox 0xC316)))

/-- MOVE (R405). -/
def execMove (m : SesMove) (s : State) : Host.Outcome State Fault Refusal := s.run (·.mailbox 0xC317 (·.moveOp m (.mailbox 0xC317)))

/-- CLAIM (R407). -/
def execClaim (id : Nat) (s : State) : Host.Outcome State Fault Refusal := s.run (·.mailbox 0xC318 (·.claimOp id (.mailbox 0xC318)))

/-- QUERY (R390). -/
def execQuery (id : Nat) (s : State) : Host.Outcome State Fault Refusal := s.run (·.mailbox 0xC319 (·.queryOp id (.mailbox 0xC319)))

/-- HANDOVER (R426). -/
def execHandover (id : Nat) (s : State) : Host.Outcome State Fault Refusal := s.run (·.mailbox 0xC350 (·.handoverOp id (.mailbox 0xC350)))

/-- A phase commits or a wait ends (R398). -/
def execPhaseCommit (id : Nat) (s : State) : Host.Outcome State Fault Refusal := s.run (·.phaseStep id)

/-- A DEADLINE passes (R399). -/
def execSessionDeadline (id : Nat) (s : State) : Host.Outcome State Fault Refusal := s.run (·.opDeadline id)

/-- A window times out (R395). -/
def execWindowTimeout (id : Nat) (s : State) : Host.Outcome State Fault Refusal := s.run (·.windowTimeout id)

/-- The log copy is sealed (R397). -/
def execLogSeal (id : Nat) (s : State) : Host.Outcome State Fault Refusal := s.run (·.logSeal id)

/-- A move-in times out (R406). -/
def execMoveInTimeout (id : Nat) (s : State) : Host.Outcome State Fault Refusal := s.run (·.moveInExpire id)

/-- An unconfirmed target asks (R406). -/
def execUnconfQuery (id : Nat) (s : State) : Host.Outcome State Fault Refusal := s.run (·.unconfAsk id)

/-- ses (R571). -/
def execSes (c : CtxId) (f : RegFnF) (s : State) : Host.Outcome State Fault Refusal :=
  s.run (primIssue c (encode (.ses f)) f 0x10 0x19 Dev.sesPrim)

/-- ver (R571). -/
def execVer (c : CtxId) (f : RegFnF) (s : State) : Host.Outcome State Fault Refusal :=
  s.run (primIssue c (encode (.ver f)) f 0x20 0x2C Dev.verPrim)

end Sys2Proof.Machine
end

