-- ==== Sys2Proof/Machine/Bundles.lean ====
section
/-! DEFINITION. Contexts given to partitions, and program bundles (R71, R94 to R98). -/

namespace Sys2Proof.Machine

/-! ## Images in LOCAL (R69, R71) -/

/-- What a bundle slot's 4 KiB of every LOCAL of a partition hold: the image in force, then zeros. -/
def Dev.slotImage (d : Dev) (p slot : Nat) : Bytes :=
  match d.thr.bundles.find? (fun b => b.live && b.part == p && b.slot == slot) with
  | some b => slice b.image 0 4096
  | none => zeros 4096

/-- The whole image range of a partition. -/
def Dev.imagesOf (d : Dev) (p : Nat) : Bytes := (List.range 16).flatMap (fun i => d.slotImage p i)

/-- Writes the images of a partition into every context of it. -/
def Dev.refreshImages (d : Dev) (p : Nat) : Dev :=
  let im := d.imagesOf p
  { d with thr := { d.thr with ctxs := d.thr.owner.foldl (fun t o =>
      if o.2 = p + 1 then Tab.set Ctx.reset t o.1 ((Tab.get Ctx.reset t o.1).setLocal 0x30000 im) else t) d.thr.ctxs } }

/-- A LOCAL of zeros with the images of its partition. [DESIGN CHOICE: log 37] -/
def Dev.freshLocal (d : Dev) (p : Nat) : Ctx := Ctx.reset.setLocal 0x30000 (d.imagesOf p)

/-! ## THR_CFG (R95, R96) -/

/-- Keys of the 240 contexts of a tile that partitions may be given. -/
def tileCtxKeys (tile : Nat) : List Nat := ((List.range 256).filter (fun i => i % 16 ≠ 15)).map (· + tile * 256)

/-- Whether a partition has running or queued requests. -/
def Dev.partBusy (d : Dev) (p : Nat) : Bool :=
  d.thr.owner.any (fun o => o.2 == p + 1 && (Tab.get Ctx.reset d.thr.ctxs o.1).run != .free) || d.thr.queue.any (fun q => q.1 % 16 == p && q.2 != [])

/-- Gives a partition n contexts of a tile: those it has stay, further ones are taken from those nobody has, with LOCAL zeroed.
[DESIGN CHOICE: log 37] -/
def Dev.giveCtxs (d : Dev) (p n tile : Nat) : Dev :=
  let has := (tileCtxKeys tile).filter (fun k => Tab.get 0 d.thr.owner k == p + 1)
  let drop := has.drop n
  let x := d.pickMany 7 (n - has.length) ((tileCtxKeys tile).filter (fun k => Tab.get 0 d.thr.owner k == 0))
  let d := x.1
  let fresh := d.freshLocal p
  { d with thr := { d.thr with
      owner := x.2.foldl (fun t k => Tab.set 0 t k (p + 1)) (drop.foldl (fun t k => Tab.set 0 t k 0) d.thr.owner)
      ctxs := x.2.foldl (fun t k => Tab.set Ctx.reset t k fresh) (drop.foldl (fun t k => Tab.set Ctx.reset t k Ctx.reset) d.thr.ctxs) } }

/-- The sum of a THR_CFG field over the other partitions. -/
def Dev.cfgSum (d : Dev) (p : Nat) (f : Nat × Nat × Nat → Nat) : Nat := (((List.range 16).filter (· ≠ p)).map (fun q => f (d.thrCfg q))).sum

/-- [DESIGN CHOICE: log 37] -/
def Dev.thrCfgOp (d : Dev) (p ctxs qdepth store : Nat) : Dev :=
  let tell := fun (x : Dev) st => x.tell (.mailbox 0xC300) st []
  if 16 ≤ p ∨ 240 < ctxs ∨ 1024 < qdepth then tell d .badRequest
  else if d.partBusy p then tell d .busy
  else if 240 < d.cfgSum p (·.1) + ctxs ∨ 1024 < d.cfgSum p (fun c => c.2.2) + store then tell d .quota
  else
    let x := { d with thr := { d.thr with cfg := Tab.insert d.thr.cfg p (ctxs, qdepth, store) } }
    tell ((List.range 12).foldl (fun d t => d.giveCtxs p ctxs t) x) .ok

/-! ## Loading -/

def loadKey (p slot : Nat) : Nat := p * 16 + slot

def Dev.bundleBegin (d : Dev) (p slot len : Nat) : Dev :=
  let tell := fun (x : Dev) st => x.tell (.mailbox 0xC301) st []
  if 16 ≤ p ∨ 16 ≤ slot ∨ len = 0 ∨ 524288 < len then tell d .badRequest
  else if (Tab.find? d.thr.loading (loadKey p slot)).isSome then tell d .busy
  else tell { d with thr := { d.thr with loading := Tab.insert d.thr.loading (loadKey p slot) { len := len, bytes := [] } } } .ok

/-- [DEDUCED: log 38] -/
def Dev.bundleData (d : Dev) (p slot off : Nat) (data : Bytes) : Dev :=
  let tell := fun (x : Dev) st => x.tell (.mailbox 0xC302) st []
  if 16 ≤ p ∨ 16 ≤ slot ∨ 4096 < data.length then tell d .badRequest
  else match Tab.find? d.thr.loading (loadKey p slot) with
  | none => tell d .badRequest
  | some l =>
    if l.len < off + data.length then tell d .badRequest
    else tell { d with thr := { d.thr with loading := Tab.insert d.thr.loading (loadKey p slot) { l with bytes := putBytes l.bytes off data } } } .ok

/-! ## The checks of a commit (R81, R94, R96) -/

/-- Words of a code section. -/
def codeWords (bs : Bytes) : Nat → List (BitVec 32)
  | 0 => []
  | n + 1 => BitVec.ofNat 32 (leAt bs 0 4) :: codeWords (bs.drop 4) n

/-- Where a branch at index i goes, for the branches with a target of their own (R564). -/
def branchTarget (i : Nat) (w : BitVec 32) : Option Nat :=
  if 0x0C ≤ (opOf w).toNat ∧ (opOf w).toNat ≤ 0x11 then some (branchTo i (brFOf w).off) else none

/-- Whether every word decodes and every branch stays in the code section. -/
def codeOk (words : List (BitVec 32)) : Bool :=
  words.zipIdx.all (fun e => staticOk e.1 && (match branchTarget e.2 e.1 with | some t => t < words.length | none => true))

/-- A binding table entry. -/
def bindingOf (bs : Bytes) : Binding :=
  { opcode := leAt bs 0 2, entry := leAt bs 2 4, budget := leAt bs 6 2, admitCues := leAt bs 8 1, minArg := leAt bs 9 1, roles := leAt bs 10 1 }

def bindingOk (bs : Bytes) (nWords : Nat) : Bool :=
  let b := bindingOf bs
  b.opcode ≤ 0xFEFF && b.entry < nWords && b.budget != 0 && b.admitCues != 0 && b.minArg ≤ 192 && b.roles < 4 && leAt bs 11 5 == 0

/-- The header fields of R94. [DEDUCED: log 39] -/
def headerOk (bs : Bytes) (slot len : Nat) : Bool :=
  let f := leAt bs
  let sect := fun off n => off % 64 == 0 && off + n ≤ len
  256 ≤ len && f 0 4 == 0x42524854 && f 4 2 == 1 && f 6 1 == slot && f 7 1 == 0 && f 0x0C 4 % 4 == 0 && 4 ≤ f 0x0C 4 && f 0x14 4 ≤ 4096 &&
    1 ≤ f 0x1C 2 && f 0x1C 2 ≤ 1024 && f 0x1E 2 == 0 && leNat (slice bs 0x40 192) == 0 && sect (f 0x08 4) (f 0x0C 4) && sect (f 0x10 4) (f 0x14 4) &&
    sect (f 0x18 4) (16 * f 0x1C 2)

def noRepeats : List Nat → Bool
  | [] => true
  | a :: l => !(a ∈ l) && noRepeats l

/-- The bundle that the bytes of a load spell: none for one that R96 rejects, whatever the partition holds. -/
def bundleOf (bs : Bytes) (p slot len : Nat) : Option Bundle :=
  if !headerOk bs slot len then none
  else
    let words := codeWords (slice bs (leAt bs 0x08 4) (leAt bs 0x0C 4)) (leAt bs 0x0C 4 / 4)
    let rows := (List.range (leAt bs 0x1C 2)).map (fun i => slice bs (leAt bs 0x18 4 + 16 * i) 16)
    let digest := slice bs 0x20 32
    if codeOk words && rows.all (fun r => bindingOk r words.length) && noRepeats (rows.map (fun r => (bindingOf r).opcode)) &&
       sha256 (overlay (slice bs 0 len) 0x20 (zeros 32)) == digest then
      some { uid := 0, part := p, slot := slot, words := words, image := slice bs (leAt bs 0x10 4) (leAt bs 0x14 4), binds := rows.map bindingOf,
             digest := digest, commitCue := 0, live := false }
    else none

/-- Whether some script runs a bundle. -/
def Dev.bundleRuns (d : Dev) (uid : Nat) : Bool := d.thr.ctxs.any (fun c => c.2.active && c.2.code == uid)

/-- Bytes of program store that a partition's bundles keep, those of a slot that is committed anew only while scripts run them. -/
def Dev.storeUsed (d : Dev) (p slot : Nat) : Nat :=
  let keeps := fun (b : Bundle) => b.part == p && ((b.live && b.slot != slot) || d.bundleRuns b.uid)
  (((d.thr.bundles.filter keeps) ++ d.thr.staged.filter (fun b => b.part == p && b.slot != slot)).map (fun b => 4 * b.words.length)).sum

/-- [DEDUCED: log 38] -/
def Dev.bundleCommit (d : Dev) (p slot : Nat) : Dev :=
  let tell := fun (x : Dev) st (body : Bytes) => x.tell (.mailbox 0xC303) st body
  if 16 ≤ p ∨ 16 ≤ slot then tell d .badRequest []
  else match Tab.find? d.thr.loading (loadKey p slot) with
  | none => tell d .badRequest []
  | some l =>
    match bundleOf ((List.range l.len).map (fun i => Tab.get 0 l.bytes i)) p slot l.len with
    | none => tell d .badRequest []
    | some b =>
      let others := d.thr.bundles.filter (fun x => x.live && x.part == p && x.slot != slot) ++ d.thr.staged.filter (fun x => x.part == p && x.slot != slot)
      if others.any (fun x => x.binds.any (fun e => b.binds.any (fun y => y.opcode == e.opcode))) then tell d .badRequest []
      else if (d.thrCfg p).2.2 * 1024 < d.storeUsed p slot + 4 * b.words.length then tell d .quota []
      else
        let cue := (d.tb.cueCount + 1) % 2 ^ 64
        let b := { b with uid := d.thr.nextUid, commitCue := cue }
        tell { d with thr := { d.thr with
          staged := d.thr.staged.filter (fun x => !(x.part == p && x.slot == slot)) ++ [b], nextUid := d.thr.nextUid + 1,
          loading := Tab.erase d.thr.loading (loadKey p slot) } } .ok (leBytes 8 cue)

/-- Bundles that are replaced or unloaded go with the last script that runs them (R97). -/
def Dev.pruneBundles (d : Dev) : Dev :=
  { d with thr := { d.thr with bundles := d.thr.bundles.filter (fun b => b.live || d.bundleRuns b.uid) } }

/-- Takes the bundle of a slot out of force. -/
def dropBundle (l : List Bundle) (p slot : Nat) : List Bundle := l.map (fun b => if b.part = p ∧ b.slot = slot then { b with live := false } else b)

/-- The commit cue of every staged bundle (R97). -/
def Dev.commitBundles (d : Dev) : Dev :=
  let l := d.thr.staged
  if l = [] then d.pruneBundles
  else
    let d := { d with thr := { d.thr with
      bundles := l.foldl (fun (bs : List Bundle) (b : Bundle) => dropBundle bs b.part b.slot ++ [{ b with live := true }]) d.thr.bundles, staged := [] } }
    (((List.range 16).filter (fun p => l.any (fun b => b.part == p))).foldl (fun (d : Dev) p => d.refreshImages p) d).pruneBundles

/-- [DEDUCED: log 38] -/
def Dev.bundleUnload (d : Dev) (p slot : Nat) : Dev :=
  if 16 ≤ p ∨ 16 ≤ slot then d.tell (.mailbox 0xC304) .badRequest []
  else
    let d := { d with thr := { d.thr with bundles := dropBundle d.thr.bundles p slot,
                                          staged := d.thr.staged.filter (fun b => !(b.part == p && b.slot == slot)) } }
    ((d.pruneBundles).refreshImages p).tell (.mailbox 0xC304) .ok []

/-- BUNDLE_QUERY: state 0 empty, 1 loading, 2 waiting for its commit cue, 3 in force. The manual does not lay the output out. [DESIGN CHOICE: log 40] -/
def Dev.bundleQuery (d : Dev) (p slot : Nat) : Dev :=
  if 16 ≤ p ∨ 16 ≤ slot then d.tell (.mailbox 0xC305) .badRequest []
  else
    let mine := fun (b : Bundle) => b.part == p && b.slot == slot
    let live := d.thr.bundles.find? (fun b => mine b && b.live)
    let staged := d.thr.staged.find? mine
    let st := if staged.isSome then 2 else if live.isSome then 3 else if (Tab.find? d.thr.loading (loadKey p slot)).isSome then 1 else 0
    let b := if staged.isSome then staged else live
    let runs := d.thr.ctxs.countP (fun c => c.2.active && d.thr.bundles.any (fun b => mine b && b.uid == c.2.code))
    d.tell (.mailbox 0xC305) .ok (leBytes 8 st ++ ((b.map (·.digest)).getD (zeros 32)) ++ leBytes 8 ((b.map (·.commitCue)).getD 0) ++ leBytes 8 runs)

/-! ## Meanings -/

/-- THR_CFG (R95). -/
def execThrCfg (p ctxs qdepth storeKib : Nat) (s : State) : Host.Outcome State Fault Refusal :=
  s.run (·.mailbox 0xC300 (·.thrCfgOp p ctxs qdepth storeKib))

/-- BUNDLE_BEGIN (R95). -/
def execBundleBegin (p slot len : Nat) (s : State) : Host.Outcome State Fault Refusal := s.run (·.mailbox 0xC301 (·.bundleBegin p slot len))

/-- BUNDLE_DATA (R95). -/
def execBundleData (p slot offset : Nat) (data : Bytes) (s : State) : Host.Outcome State Fault Refusal :=
  s.run (·.mailbox 0xC302 (·.bundleData p slot offset data))

/-- BUNDLE_COMMIT (R96). -/
def execBundleCommit (p slot : Nat) (s : State) : Host.Outcome State Fault Refusal := s.run (·.mailbox 0xC303 (·.bundleCommit p slot))

/-- BUNDLE_UNLOAD (R97). -/
def execBundleUnload (p slot : Nat) (s : State) : Host.Outcome State Fault Refusal := s.run (·.mailbox 0xC304 (·.bundleUnload p slot))

/-- BUNDLE_QUERY (R95). -/
def execBundleQuery (p slot : Nat) (s : State) : Host.Outcome State Fault Refusal := s.run (·.mailbox 0xC305 (·.bundleQuery p slot))

end Sys2Proof.Machine
end

