-- ==== Sys2Proof/Machine/Fatal.lean ====
section
/-! DEFINITION. The fatal declaration (R476, R477): what the device stops, and what it answers. -/

namespace Sys2Proof.Machine

/-- Requests and MSGs accepted and not completed. -/
def Dev.openRequests (d : Dev) : Nat := d.txn.tags.countP (fun e => !e.2.done) + d.txn.msgTags.countP (fun e => !e.2.done)

/-- Every access at the homes ends: its members are answered POISON, and nothing more is read or written for them. [DEDUCED: log 113] -/
def Dev.poisonAccesses (d : Dev) : Dev :=
  let l := d.coh.accs
  let d := { d with coh := { d.coh with accs := [], groups := [] } }
  l.foldl (fun (d : Dev) (e : Nat × Access) =>
    e.2.members.foldl (fun (d : Dev) (m : Origin × Bytes) => d.deliver { e.2 with status := Status.poison } m.1) d) d

/-- Coherence requests that the home holds: link, line and message. -/
def Dev.cohOpen (d : Dev) : List (Nat × Nat × CohMsg) :=
  d.coh.lines.flatMap (fun (e : Nat × HLine) =>
    (e.2.queue ++ (if e.2.phase = LinePhase.waitSnp then (e.2.txn.map (·.serves)).toList else [])).filterMap (fun f =>
      match f with
      | .coh k _ m => some (k, e.1, m)
      | _ => none)) ++
  d.coh.wayWait.map (fun w => (w.1, offOf w.2.2.addr.toNat / 128, w.2.2)) ++
  d.pair.waits.filterMap (fun w => match w.2 with
    | .cmp k _ m => some (k, offOf m.addr.toNat / 128, m)
    | _ => none)

/-- Outstanding coherence requests receive CNAK POISON; snoops and grants are abandoned. -/
def Dev.poisonLines (d : Dev) : Dev :=
  let l := d.cohOpen
  let d := { d with coh := { d.coh with lines := [], wayWait := [] } }
  l.foldl (fun (d : Dev) w => d.cnak w.1 w.2.1 w.2.2 Status.poison) d

/-- What waits for MACKs ends with POISON. -/
def Dev.poisonWaits (d : Dev) : Dev :=
  let l := d.pair.waits
  let d := { d with pair := { d.pair with waits := [] } }
  l.foldl (fun (d : Dev) w => match w.2 with
    | .ask a _ _ => d.tell a Status.poison []
    | .placed a _ _ => d.tell a Status.poison []
    | .handover _ a => d.tell a Status.poison []
    | _ => d) d

/-- Every accepted request and MSG that has no completion receives NAK POISON. [DEDUCED: log 113] -/
def Dev.poisonRequests (d : Dev) : Dev :=
  let tags := d.txn.tags.filter (fun (e : Nat × TagRec) => !e.2.done)
  let msgs := d.txn.msgTags.filter (fun (e : Nat × MsgRec) => !e.2.done)
  let d := tags.foldl (fun (d : Dev) (e : Nat × TagRec) => d.finishTag e.2.id e.2.kind Status.poison 0 []) d
  let d := msgs.foldl (fun (d : Dev) (e : Nat × MsgRec) => d.msgFinish e.2.id e.2.txn Status.poison) d
  { d with
    thr := { d.thr with queue := [], ctxs := d.thr.ctxs.map (fun (e : Nat × Ctx) => (e.1, { e.2 with req := none })) }
    ses := { d.ses with notices := [] }
    txn := { d.txn with src := d.txn.src.map (fun (e : Nat × WrfSrc) => (e.1, { e.2 with held := [] })) } }

/-- The device's own requests stop, their answers are discarded, and MSG tickets end with POISON. [DEDUCED: log 113] -/
def Dev.stopOwn (d : Dev) : Dev :=
  let l := d.txn.req
  let d := { d with txn := { d.txn with req := [], resends := [] }, ver := { d.ver with writes := [] } }
  l.foldl (fun (d : Dev) (e : Nat × ReqTag) => match e.2.purpose with
    | .ctxMsg c slot gen => d.ticketDone c slot gen Status.poison
    | _ => d) d

/-- The fatal causes of R476, and what follows each: 0 waits for the host, 4 warm chip reset, 5 power-cycle request. -/
def fatalFollows (cause : Nat) : Nat :=
  match cause with
  | 2 => 4 | 4 => 5 | 5 => 4 | 6 => 4 | _ => 0

/-- The device declares itself fatal (R477). A declaration in force absorbs a second one. DOMAIN_DOWN goes out 16 times and DOWN 4
times, 1 cue apart; viral containment shows in CXL_STAT and CXL_EVT. [DEDUCED: log 113] -/
def Dev.fatal (d : Dev) (cause after : Nat) : Dev :=
  if d.flt.fatal then d
  else
    let n := d.openRequests
    let d := { d with
      flt := { d.flt with fatal := true, cause := cause, fatalCue := d.tb.cueCount, fatalPin := true, after := after }
      cxl := { d.cxl with viral := true } }
    let d := (d.setRegBit FLT_EVT 0).setRegBit CXL_EVT 2
    let d := (d.upLinks 4).foldl (fun (d : Dev) k => d.pairPlain k 5 0 0 0) d
    let d := { d with pair := { d.pair with downLeft := 3 } }
    let d := d.report 0x001D 2 hubOrigin cause n 0
    let d := ((d.poisonWaits.poisonLines).poisonRequests).poisonAccesses.stopOwn
    d.startEvt (d.upLinks 1) 1 (d.devId % 4096 + cause * 2 ^ 12) 16 1

/-- FATAL: a fatal cause of R476. -/
def execFatal (cause : Nat) (s : State) : Host.Outcome State Fault Refusal := s.run (·.fatal cause (fatalFollows cause))

end Sys2Proof.Machine
end

