-- ==== Sys2Proof/Machine/Keys.lean ====
section
/-! DEFINITION. The device's keys (R493 to R503): derivation of the memory and link keys, the seed and its blobs. -/

namespace Sys2Proof.Machine

/-- The identity public key. -/
def identKey : Bytes := Config.identPub rootKey

/-- Bytes of the key engine's DRBG. -/
def drbgBytes (occasion n : Nat) : Bytes := (List.range n).map (Config.drbg occasion)

/-- Bytes drawn from the DRBG. -/
def Dev.draw (d : Dev) (n : Nat) : Dev × Bytes :=
  let x := d.nextFree
  (x.1, drbgBytes x.2 n)

/-- K_MEM (R501). -/
def memRoot : Bytes := hmac256 rootKey (ascii "MEMK")

/-- One key of R501: label, partition and tenant ID under a base. -/
def deriveKey (base : Bytes) (label : String) (p : Nat) (tenant : Bytes) : Bytes :=
  hmac256 base (ascii label ++ [BitVec.ofNat 8 p] ++ tenant)

/-- The key set of a partition under a base (R501). -/
def deriveSet (base : Bytes) (p : Nat) (tenant : Bytes) : KeySet :=
  { k1 := deriveKey base "K1DT" p tenant, k2 := deriveKey base "K2TW" p tenant, ka := deriveKey base "KATG" p tenant }

/-- The 16 bytes of a partition's tenant ID. -/
def Dev.tenant (d : Dev) (p : Nat) : Bytes := leBytes 8 (d.reg (SEC_TENANT_LO + 16 * p)) ++ leBytes 8 (d.reg (SEC_TENANT_HI + 16 * p))

/-- Derives both key sets of a partition; without a seed there is no shared set (R501, R502), without a root none at all (R494). -/
def Dev.deriveKeys (d : Dev) (p : Nat) : Dev :=
  if !d.sec.rootOk then d
  else
    let t := d.tenant p
    let keys := Tab.insert d.sec.keys (2 * p) (deriveSet memRoot p t)
    let keys := match d.sec.seed with
      | some s => Tab.insert keys (2 * p + 1) (deriveSet s p t)
      | none => keys
    { d with sec := { d.sec with keys := keys } }

/-- Takes a seed and derives every partition's shared set. -/
def Dev.takeSeed (d : Dev) (seed : Bytes) : Dev :=
  let keys := (List.range 16).foldl (fun (t : Tab KeySet) p => Tab.insert t (2 * p + 1) (deriveSet seed p (d.tenant p))) d.sec.keys
  { d with sec := { d.sec with seed := some seed, keys := if d.sec.rootOk then keys else d.sec.keys } }

/-- Header of a blob (R502). -/
def blobHead : Bytes := leBytes 4 0x42534453 ++ zeros 4 ++ sha256 identKey

/-- A blob of a seed. -/
def Dev.blob (d : Dev) (seed : Bytes) : Dev × Bytes :=
  let x := d.nextFree
  (x.1, blobHead ++ slice (Config.oaepSeal identKey seed x.2) 0 384)

/-- The seed that a blob holds. -/
def blobSeed (bs : Bytes) : Option Bytes :=
  if bs.length = 424 ∧ bs.take 40 = blobHead then
    match Config.oaepOpen rootKey (bs.drop 40) with
    | some s => if s.length = 32 then some s else none
    | none => none
  else none

/-- SEC_SEED_NEW (R502). A device without a root has no key to draw or wrap with. [DEDUCED: log 115] -/
def Dev.seedNew (d : Dev) : Dev :=
  d.mailbox 0xC370 (fun d =>
    if !d.sec.rootOk then d.tell (.mailbox 0xC370) .badRequest []
    else if d.sec.seed.isSome then d.tell (.mailbox 0xC370) .busy []
    else
      let x := d.draw 32
      let y := (x.1.takeSeed x.2).blob x.2
      y.1.tell (.mailbox 0xC370) .ok y.2)

/-- SEC_SEED_LOAD (R502): a device without an identity accepts no blob. [DEDUCED: log 115] -/
def Dev.seedLoad (d : Dev) (bs : Bytes) : Dev :=
  d.mailbox 0xC371 (fun d =>
    if !d.sec.rootOk ∨ !d.sec.idOk then d.tell (.mailbox 0xC371) .badRequest []
    else match blobSeed bs with
    | none => d.tell (.mailbox 0xC371) .badRequest []
    | some s => if d.sec.seed.isSome then d.tell (.mailbox 0xC371) .busy [] else (d.takeSeed s).tell (.mailbox 0xC371) .ok [])

/-- SEC_SEED_EXPORT (R502). [DEDUCED: log 115] -/
def Dev.seedExport (d : Dev) : Dev :=
  d.mailbox 0xC372 (fun d =>
    match d.sec.seed with
    | none => d.tell (.mailbox 0xC372) .badRequest []
    | some s =>
      let y := d.blob s
      y.1.tell (.mailbox 0xC372) .ok y.2)

def execSecSeedNew (s : State) : Host.Outcome State Fault Refusal := s.run (·.seedNew)
def execSecSeedLoad (blob : Bytes) (s : State) : Host.Outcome State Fault Refusal := s.run (·.seedLoad blob)
def execSecSeedExport (s : State) : Host.Outcome State Fault Refusal := s.run (·.seedExport)

end Sys2Proof.Machine
end

