-- ==== Sys2Proof/Machine/Takeover.lean ====
section
/-! DEFINITION. The survivor of a pair (R430 to R434): what it completes, the copies it adopts, the scan of the session table, and the
claims of R428. -/

namespace Sys2Proof.Machine

/-- The notices of the device's own engines (R252, R404). -/
def Dev.notice (d : Dev) (r : ReqId) (t : Txn) : Dev := if isSesNotice t then d.sesNoticeIn r t else d.rdcNotice r t

/-- What supplies Txn's operations with the late chapters. -/
def handlers : Handlers := { oper := Dev.oper, notice := Dev.notice }

/-- PAIR_EVT, routed by EVT_EN. -/
def Dev.pairEvent (d : Dev) (bit : Nat) : Dev := d.event PAIR_EVT bit (d.regFld PAIR_CFG 49 1 == 1)

/-- Whether this device is the PRIMARY. -/
def Dev.primary (d : Dev) : Bool := d.regFld PAIR_CFG 0 1 == 0

/-! ## The end of waits for MACK (R420, R430) -/

/-- What a wait was for goes on. -/
def Dev.runWait (d : Dev) (w : PairWait) : Dev :=
  match w with
  | .cmp k cmsg m => d.cohAnswer k (offOf m.addr.toNat / 128) cmsg m Status.ok
  | .ask a st body => d.tell a st body
  | .placed a ri slot => d.placedThere a ri slot
  | .handover id a => d.handoverDone id a
  | .note r t st aux => d.msgFinish r t st aux

/-- Everything that waited for frames which are now acknowledged, or no longer awaited, goes on. -/
def Dev.settleMacks (d : Dev) : Dev :=
  let ok := fun (w : List (Nat × Nat) × PairWait) => !d.awaits w.1
  let go := d.pair.waits.filter ok
  let d := { d with pair := { d.pair with waits := d.pair.waits.filter (fun w => !ok w) } }
  let d := go.foldl (fun (d : Dev) w => d.runWait w.2) d
  let d := (d.coh.accs.map (·.1)).foldl (fun (d : Dev) id => d.tryFinish id) d
  ((d.runAllStored Dev.notice).settleGroups.settleLogs).resumeVer

/-! ## The mirror map (R416) -/

/-- The own address that stands for an address of the partner: none where the frame is not mapped. -/
def Dev.mirrorAddr (d : Dev) (a : Nat) : Option Nat :=
  if !inMem a 1 then none
  else match Tab.find? d.pair.mirror ((spaceOf a - 1) * 2 ^ 20 + offOf a / 2 ^ 21) with
  | some own => some (frameAddr ((own - 1) / 2 ^ 20) ((own - 1) % 2 ^ 20) + offOf a % 2 ^ 21)
  | none => none

/-! ## Adoption (R430) -/

/-- Page-table entries of a session's map copy: translated through the mirror map, and the heads of its page tables written anew. -/
def Dev.adoptTables (d : Dev) (ri id : Nat) : Dev :=
  let r := d.sesRec id
  match d.copyOf ri 1 with
  | none => d
  | some w =>
    let d := (List.range r.lg).foldl (fun (d : Dev) i =>
      (d.write (w.addr (16 * i)) (leBytes 8 (w.addr (4096 + i * 8 * r.maxRows)) ++ leBytes 8 r.maxRows)).1) d
    (List.range (r.lg * r.maxRows)).foldl (fun (d : Dev) i =>
      let a := leNat (d.mem.bytesAt (w.addr (4096 + 8 * i)) 8)
      if a = 0 then d
      else match d.mirrorAddr a with
        | some b => (d.write (w.addr (4096 + 8 * i)) (leBytes 8 b)).1
        | none => d) d

/-- The mirror copies of a region become its copies. -/
def Dev.adoptRegion (d : Dev) (ri : Nat) : Dev :=
  match Tab.find? d.ver.regions ri with
  | none => d
  | some r =>
    if r.copies.any (fun c => c.2.mirror) then
      let l : Tab WCopy := r.copies.map (fun (c : Nat × WCopy) => (c.1, if c.2.mirror then { c.2 with mirror := false, age := d.tb.cueCount } else c.2))
      let d := { d with ver := { d.ver with regions := Tab.insert d.ver.regions ri { r with copies := l } } }
      if r.session ≠ 0 then d.adoptTables ri (r.session - 1) else d
    else d

/-- Versions that the partner was sealing never end: they are given up. [DEDUCED: log 122] -/
def Dev.dropPartnerSeals (d : Dev) : Dev :=
  let l := d.ver.versions.filter (fun (e : Nat × Version) => e.2.state == VState.sealing && !(e.2.index ∈ d.ownHalf d.verCount))
  l.foldl (fun (d : Dev) (e : Nat × Version) => d.sealFail (e.1 / 2 ^ 32) (e.1 % 2 ^ 32) Status.aborted) d

/-! ## Resuming a session by its record (R431) -/

/-- Bytes in use of an adopted log copy: its entries are walked from LOGPOS to LEN. The number bounds them. -/
def walkLog (d : Dev) (w : WCopy) (len : Nat) : Nat → Nat → Nat → Nat
  | 0, u, _ => u
  | n + 1, u, pos =>
    let h := leNat (d.mem.bytesAt (w.addr u) 8)
    if pos < len ∧ fld h 0 23 = pos then
      walkLog d w len n (u + 16 + ceilDiv (fld h 35 13) 16 * 16) (pos + fld h 23 12 + 1)
    else u

/-- The log of an adopted session. -/
def Dev.adoptLog (d : Dev) (id : Nat) : Dev :=
  let r := d.sesRec id
  let used := match d.copyOf r.region.index 2 with
    | some w => walkLog d w r.len (r.len - r.logPos) 0 r.logPos
    | none => 0
  d.putLog id { SesLog.reset with used := used, dirty := used ≠ 0, sealedAt := d.tb.cueCount }

/-- The seals of a phase 2 that was committed: the last two versions of the session's region are the bed, where there are tail rows, and
the closing log. -/
def Dev.sealsOf (d : Dev) (r : SesRec) : SesOp :=
  let next := d.nextVer r.region.index
  let tail := r.tail0 < rowsOf r.len
  let four := r.beds.length == 4
  let first := if four then ((r.beds[3]?).map (·.first)).getD 0 else r.tail0
  { newOp Asker.none 0 SesState.active with
    started := true, sealed := if tail then [next - 2, next - 1] else [next - 1]
    newBed := if tail then some { region := r.region, version := next - 2, first := first, rows := rowsOf r.len - first } else none
    replaces := four && tail }

/-- The positions from LOGPOS up are lost: PARKED, to be recomputed (R432). -/
def Dev.recompute (d : Dev) (id : Nat) (r : SesRec) : Dev :=
  ((d.sesUnplace r).dropLog id).setSes id { r with state := .parked, len := r.logPos, op := 8, phase := 0, map := 0 }

/-- An ACTIVE or PARKING session goes on where its copies are. -/
def Dev.goOn (d : Dev) (id : Nat) (r : SesRec) (op phase : Nat) (o? : Option SesOp) : Dev :=
  let d := d.setSes id { r with op := op, phase := phase, map := d.mapBase r }
  let d := d.adoptLog id
  match o? with
  | some o => d.putOp id o
  | none => d

/-- The table of R431, from the point of view of the device that now owns the session. -/
def Dev.resumeSession (d : Dev) (id : Nat) : Dev :=
  let r := d.sesRec id
  let kept := (d.kvCopy r).isSome && (d.mapCopy r).isSome
  match r.state with
  | .active =>
    if r.op = 3 ∨ r.op = 4 then
      if kept then
        if r.phase = 0 then d.goOn id r 0 0 none
        else if r.phase = 1 then d.goOn id r 3 1 (some (newOp Asker.none 0 SesState.active))
        else d.goOn id r 3 2 (some (d.sealsOf r))
      else if r.phase = 2 then
        let o := d.sealsOf r
        let x := d.setSes id { r with beds := bedsAfter r o, logPos := r.len, logVer := 0, map := 0, state := .parked, op := 0, phase := 0 }
        (x.afterBed r o).dropLog id
      else d.recompute id r
    else if kept then d.goOn id r (if r.op = 8 then 8 else 0) 0 none
    else d.recompute id r
  | .parking =>
    if r.phase = 2 then (d.setSes id { r with op := 1 }).putOp id (d.sealsOf r)
    else if kept then d.goOn id r 1 1 (some (newOp Asker.none 0 SesState.active))
    else d.recompute id r
  | .reviving =>
    if kept ∧ r.phase = 2 then (d.setSes id { r with op := 2 }).putOp id { newOp Asker.none 0 SesState.parked with started := true }
    else (d.sesUnplace r).setSes id { r with state := .parked, op := 0, phase := 0 }
  | .movingOut => (d.setSes id { r with state := .orphaned, op := 0, phase := 0 }).sesEvent 1
  | .movingIn => d.undoMoveIn id
  | _ => d

/-- A record is written with this device as its owner and the next epoch, and the session resumed (R428, R430). A device that runs the
session already goes on with it. [DEDUCED: log 122] -/
def Dev.claimSession (d : Dev) (id : Nat) : Dev :=
  let r := d.sesRec id
  let mine := r.owner == d.devId
  let d := (d.setSes id { r with owner := d.devId, epoch := (r.epoch + 1) % 2 ^ 32 }).bump PAIR_CLAIM_CNT
  let d := { d with pair := { d.pair with conflicts := Tab.erase d.pair.conflicts id } }
  if mine then d else d.resumeSession id

/-! ## SOLO (R422, R430) -/

/-- The device enters SOLO: held writes and record writes complete OK, the partner's copies are adopted, and the scan begins. [DEDUCED: log 122] -/
def Dev.enterSolo (d : Dev) : Dev :=
  let d := { d with pair := { d.pair with
    state := .solo, unacked := [], early := [], scanPos := 0, scanning := true, takeoverDone := false, takeoverCue := d.tb.cueCount,
    bulkQueue := [], conflicts := [] } }
  let d := (d.pairEvent 1).settleMacks
  (d.ver.regions.map (·.1)).foldl (fun (d : Dev) ri => d.adoptRegion ri) d.dropPartnerSeals

/-- TAKEOVER_SCAN: the next 768 records. [DEDUCED: log 122] -/
def Dev.takeoverScan (d : Dev) : Dev :=
  if d.pair.state = .solo ∧ d.pair.scanning then
    let lo := d.pair.scanPos
    let l := (d.sessions.filter (fun (e : Nat × SesRec) => lo ≤ e.1 && e.1 < lo + 768 && e.2.owner == d.partner)).map (·.1)
    let fin := d.sesLimit ≤ lo + 768
    let d := { d with pair := { d.pair with scanPos := lo + 768, scanning := !fin, takeoverDone := fin } }
    l.foldl (fun (d : Dev) id => d.claimSession id) d
  else d

/-- JOURNAL_EXPIRY: entries that no job matched are cleared 1 s after takeover (R434). -/
def Dev.journalExpire (d : Dev) : Dev :=
  if d.pair.state = .solo ∧ d.pair.takeoverCue + 4000000 ≤ d.tb.cueCount then
    (d.pair.journal.map (·.1)).foldl (fun (d : Dev) i => d.putJournal i none) d
  else d

def execTakeoverScan (s : State) : Host.Outcome State Fault Refusal := s.run (·.takeoverScan)
def execJournalExpiry (s : State) : Host.Outcome State Fault Refusal := s.run (·.journalExpire)

end Sys2Proof.Machine
end

