-- ==== Sys2Proof/Machine/Pair.lean ====
section
/-! DEFINITION. Frames of the pair as they arrive (R417 to R429), heartbeats and pair states, admission and the bulk load (R435 to R437),
and the commands of PAIR_CTRL. -/

namespace Sys2Proof.Machine

/-! ## States and admission (R422, R435) -/

def pairStateCode : PairState → Nat
  | .unpaired => 0 | .joining => 1 | .source => 2 | .paired => 3 | .lost => 4 | .solo => 5

/-- An ignored PAIR_CTRL bit (R438). -/
def Dev.ctrlErr (d : Dev) : Dev := d.setRegBit PAIR_STAT 11

/-- Streams start at MSEQ 0 when the state leaves UNPAIRED, and at an admission (R418, R222). -/
def Dev.openStreams (d : Dev) : Dev :=
  { d with
    pair := { d.pair with txSeq := [], rxSeq := [], unacked := [], early := [], lastRegion := [], bulkDone := false, bulkQueue := [], bulkBytes := 0,
                          conflicts := [], stepDue := false }
    sw := { d.sw with flows := [] } }

/-- Frees the mirror frames that the device holds for its partner, and their copies. [DEDUCED: log 119] -/
def Dev.dropMirrors (d : Dev) : Dev :=
  let l := d.ver.regions.flatMap (fun (e : Nat × Region) => (e.2.copies.filter (fun c => c.2.mirror)).map (fun c => (e.1, c.1)))
  let d := l.foldl (fun (d : Dev) c => d.dropWCopy c.1 c.2) d
  (d.pair.mirror.map (·.1)).foldl (fun (d : Dev) k => d.setMirror k 0 0) d

/-- An admission fails (R435): a SOURCE returns to its former state, a joiner to UNPAIRED. [DEDUCED: log 119] -/
def Dev.admissionFail (d : Dev) (reason : Nat) : Dev :=
  let back := match d.pair.state with | .source => d.pair.former | .joining => PairState.unpaired | s => s
  let d := if d.pair.state = .joining then d.dropMirrors else d
  let d := { d with pair := { d.pair with state := back, joinFail := reason, admStep := 0, unacked := [], early := [], bulkQueue := [], stepDue := false } }
  (d.pairEvent 3).settleMacks

/-- LINKS holds 2 to 4 links (R438). [DEDUCED: log 120] -/
def Dev.linksOk (d : Dev) : Bool := 2 ≤ (bitsSet 36 (d.regFld PAIR_CFG 13 36)).length && (bitsSet 36 (d.regFld PAIR_CFG 13 36)).length ≤ 4

/-- JOIN. A device without an identity fails with ATTEST (R497). -/
def Dev.join (d : Dev) : Dev :=
  if d.pair.state ≠ .unpaired ∨ !d.pwr.ready ∨ !d.linksOk then d.ctrlErr
  else
    let d := d.openStreams
    let d := { d with pair := { d.pair with state := .joining, admStep := 1, joinFail := 0 } }
    if d.sec.idOk then d else d.admissionFail 2

/-- ADMIT. -/
def Dev.admitPair (d : Dev) : Dev :=
  if (d.pair.state ≠ .unpaired ∧ d.pair.state ≠ .solo) ∨ !d.linksOk then d.ctrlErr
  else
    let d := { d.openStreams with pair := { d.openStreams.pair with state := .source, former := d.pair.state, admStep := 2, joinFail := 0 } }
    if d.sec.idOk then d else d.admissionFail 2

/-- TAKEOVER: LOST to SOLO. -/
def Dev.takeover (d : Dev) : Dev := if d.pair.state = .lost then d.enterSolo else d.ctrlErr

/-- YIELD: a LOST device declares itself fatal. -/
def Dev.yield (d : Dev) : Dev := if d.pair.state = .lost then d.fatal 3 0 else d.ctrlErr

/-- STEP: PAIRED at the next cue boundary, once BULK_END is acknowledged (R437). -/
def Dev.stepOp (d : Dev) : Dev :=
  if d.pair.state = .source ∧ d.pair.bulkDone ∧ !d.pair.unacked.any (fun u => u.ptype == 0xA) then { d with pair := { d.pair with stepDue := true } }
  else d.ctrlErr

/-- UNPAIR: SOLO to UNPAIRED. -/
def Dev.unpair (d : Dev) : Dev :=
  if d.pair.state = .solo then { d with pair := { d.pair with state := .unpaired, scanning := false, mirror := [], mirrorPart := [] } } else d.ctrlErr

/-! ## The bulk load (R435, R436) -/

/-- Everything that the source sends: its session table, its region, version and extent tables, its journal, and the frames of its mirrored
copies with their pages. -/
def Dev.bulkItems (d : Dev) : List BulkItem :=
  let own := d.ver.regions.filter (fun (e : Nat × Region) => e.2.mirrored || e.2.session != 0)
  let isOwn := fun ri => own.any (fun (e : Nat × Region) => e.1 == ri)
  let vers := (d.ver.versions.filter (fun (e : Nat × Version) => isOwn (e.1 / 2 ^ 32))).map (fun (e : Nat × Version) => e.2.index)
  let exts := (d.ver.extents.filter (fun (e : Nat × Extent) => isOwn e.2.region)).map (·.1)
  let copies := (own.filter (fun (e : Nat × Region) => e.2.mirrored)).flatMap (fun (e : Nat × Region) => e.2.copies.map (·.2))
  (List.range d.sesLimit).map (BulkItem.record 0) ++ own.map (fun (e : Nat × Region) => BulkItem.record 1 e.1) ++ vers.map (BulkItem.record 2) ++
    exts.map (BulkItem.record 3) ++ d.pair.journal.map (fun (e : Nat × Journal) => BulkItem.record 4 e.1) ++
    copies.flatMap (fun (w : WCopy) => w.frames.map (fun f => BulkItem.map w.tier f)) ++
    copies.flatMap (fun (w : WCopy) => w.frames.map (fun f => BulkItem.pages f w.tier 0))

/-- Payload bytes of the bulk load (PAIR_BULK). -/
def Dev.addBulk (d : Dev) (n : Nat) : Dev := { d with pair := { d.pair with bulkBytes := d.pair.bulkBytes + n } }

/-- Sends a record of the bulk load. -/
def Dev.bulkRec (d : Dev) (stream table index : Nat) (bs : Bytes) : Dev := (d.pairSend stream 2 (table + index * 8) bs).addBulk bs.length

/-- Sends one item. -/
def Dev.bulkItem (d : Dev) (b : BulkItem) : Dev :=
  match b with
  | .record 0 id => d.bulkRec (id % 12) 0 id (sesBytes (d.sesRec id))
  | .record 1 ri => d.bulkRec (ri % 12) 1 ri (regionBytes (Tab.find? d.ver.regions ri) 16)
  | .record 2 i =>
    (match List.find? (fun (e : Nat × Version) => e.2.index == i) d.ver.versions with
     | some e => d.bulkRec (e.1 / 2 ^ 32 % 12) 2 i (versionBytes (e.1 / 2 ^ 32) (e.1 % 2 ^ 32) (some e.2))
     | none => d)
  | .record 3 i =>
    (match Tab.find? d.ver.extents i with
     | some e => d.bulkRec (e.region % 12) 3 i (extentBytes (some e))
     | none => d)
  | .record _ i =>
    (match Tab.find? d.pair.journal i with
     | some j => d.bulkRec (i % 12) 2 (4 + i * 8) (journalBytes j)
     | none => d)
  | .map tier f =>
    (match Tab.find? d.ver.frames (frameKey tier f) with
     | some h =>
       let r := Tab.find? d.ver.regions h.1
       (d.bulkRec (h.1 % 12) 1 h.1 (regionBytes r h.2)).sendMmap h.1 ((r.map (·.part)).getD 0) tier f false
     | none => d)
  | .pages f tier n =>
    let a := frameAddr tier f + 4096 * n
    let x := d.read a 4096
    let good := (granules a 4096).filter (fun g => !(g ∈ x.2.2))
    let d := if x.2.2 = [] then (x.1.pairSend (memTile a) 1 a x.2.1).addBulk 4096
      else good.foldl (fun (d : Dev) g => (d.pairSend (memTile a) 1 (g * 64) (slice x.2.1 (g * 64 - a) 64)).addBulk 64) x.1
    if n + 1 < 512 then { d with pair := { d.pair with bulkQueue := BulkItem.pages f tier (n + 1) :: d.pair.bulkQueue } } else d

/-- The party of the bulk load. -/
def bulkParty : Nat := 2 ^ 40

/-- BULK_SEND: the next item, or BULK_END after the last. A page of NEAR is read as one access in its coherence order: lines that agents hold
dirty are fetched first. -/
def Dev.bulkSend (d : Dev) : Dev :=
  if d.pair.state ≠ .source ∨ d.pair.admStep ≠ 3 ∨ d.pair.bulkDone then d
  else match d.pair.bulkQueue with
  | [] => ({ d with pair := { d.pair with bulkDone := true } } : Dev).pairSend ctrlStream 0xA 0 []
  | b :: rest =>
    let go := fun (d : Dev) => ({ d with pair := { d.pair with bulkQueue := rest } } : Dev).bulkItem b
    match b with
    | .pages f tier n =>
      Dev.asParty bulkParty (fun d => d.whenReady (if tier = 0 then [(frameAddr tier f + 4096 * n, 4096)] else []) [] (fun d => (go d).dropSyncOf bulkParty)) d
    | _ => go d

/-- The KEY payload (R502): the seed and the 16 tenant IDs under the joiner's attested identity key. -/
def Dev.keyBody (d : Dev) : Dev × Bytes :=
  let x := d.nextFree
  let pub := ((d.pairLinks.head?).map (fun k => (Tab.find? d.sec.auth k).elim [] (fun (a : Auth) => a.peerKey))).getD []
  (x.1, slice (Config.oaepSeal pub (d.sec.seed.getD [] ++ (List.range 16).flatMap d.tenant) x.2) 0 384)

/-- The values that the members of a pair must agree on, in the order of R412. [DESIGN CHOICE: log 204] -/
def Dev.pairConfig (d : Dev) : List Nat :=
  [d.sesCount, d.regCount, d.verCount, d.extCount] ++ (List.range 64).map (fun t => d.regFld (VER_TRAY_CFG + 8 * t) 0 27) ++
    (List.range 16).map (fun p => d.reg (VER_QN + 8 * p)) ++ (List.range 16).map (fun p => d.reg (VER_QS + 8 * p)) ++
    (List.range 16).map (fun p => d.reg (VER_QP + 8 * p)) ++ (List.range 16).map (fun p => d.regFld (SES_QUOTA + 8 * p) 0 25) ++ [d.jnlCount]

/-- The configuration digest (R412). [DESIGN CHOICE: log 204] -/
def Dev.pairDigest (d : Dev) : Bytes := sha256 (d.pairConfig.flatMap (leBytes 8))

/-- The corrected reads of a self-test are counted (R547). -/
def Dev.selfTestReads (d : Dev) (corrected : Nat) : Dev :=
  if corrected = 0 then d else (d.bumpBy PWR_ST_FAIL_CNT corrected).setRegBit PWR_EVT 3

/-- ADMISSION_STEP: the joiner ends self-test and pattern test, and then attestation; the source ends attestation, sends the keys and starts the
bulk load. Attestation brings the other member's digest, which must be the own one. The self-test leaves the frame ranges zero (R547).
[DEDUCED: log 120; DESIGN CHOICE: log 121, 204] -/
def Dev.admissionStep (d : Dev) (step : Nat) (r : AdmResult) : Dev :=
  if (d.pair.state ≠ .joining ∧ d.pair.state ≠ .source) ∨ step ≠ d.pair.admStep ∨ 3 ≤ step then d
  else
    let d := if step = 1 then d.selfTestReads r.corrected else d
    if r.fail ≠ 0 then d.admissionFail r.fail
    else if step = 2 ∧ r.digest ≠ d.pairDigest then d.admissionFail 3
    else
    let d := { d with pair := { d.pair with admStep := step + 1 } }
    if step = 1 then (d.clearFrames 0 (d.poolFrames 0)).clearFrames 1 (d.poolFrames 1)
    else if d.pair.state = .source then
      let y := d.keyBody
      let d := y.1.pairSend ctrlStream 8 0 y.2
      { d with pair := { d.pair with bulkQueue := d.bulkItems } }
    else d

/-! ## What a frame does (R416, R427, R428) -/

/-- A region record in the layout it is sent in. -/
def Dev.applyRegion (d : Dev) (stream ri : Nat) (bs : Bytes) : Dev :=
  let b0 := leAt bs 0 1
  let b3 := leAt bs 3 1
  let slot := fld b3 4 4
  let old := Tab.find? d.ver.regions ri
  if fld b0 7 1 = 0 then
    let mir := match old with | some r => (r.copies.filter (fun (c : Nat × WCopy) => c.2.mirror)).map (fun (c : Nat × WCopy) => c.1) | none => []
    let d := mir.foldl (fun (d : Dev) s => d.dropWCopy ri s) d
    { d with ver := { d.ver with regions := Tab.erase d.ver.regions ri } }
  else
    let copies := (old.map (·.copies)).getD []
    let r : Region := { part := fld b0 0 4, gen := leAt bs 1 2, policy := fld b0 4 2, mirrored := fld b0 6 1 == 1, head := leAt bs 4 4, next := leAt bs 8 8,
                        session := leAt bs 16 4, copies := copies, dying := old.bind (·.dying) }
    let d := { d with ver := { d.ver with regions := Tab.insert d.ver.regions ri r, gens := Tab.set 0 d.ver.gens ri (r.gen + 1) } }
    let d := { d with pair := { d.pair with lastRegion := Tab.insert d.pair.lastRegion stream (ri, slot) } }
    if fld b3 2 1 = 0 ∨ !r.mirrored then d
    else match Tab.find? copies slot with
    | some w =>
      if !w.mirror then d
      else if fld b3 0 1 = 0 then d.dropWCopy ri slot
      else d.putWCopy ri slot { w with len := leAt bs 20 8, base := leAt bs 28 4 }
    | none =>
      if fld b3 0 1 = 0 then d
      else d.putWCopy ri slot { tier := fld b3 1 1, len := leAt bs 20 8, frames := [], base := leAt bs 28 4, pins := 0, age := d.tb.cueCount,
                                sealing := none, evicting := false, mirror := true }

def vstateOf (n : Nat) : VState := match n with | 1 => .sealing | 2 => .sealed | 3 => .head | 4 => .superseded | _ => .draining

/-- A version record. -/
def Dev.applyVersion (d : Dev) (index : Nat) (bs : Bytes) : Dev :=
  let key := verKey (leAt bs 4 4) (leAt bs 8 4)
  if leAt bs 0 4 = 0 then
    { d with ver := { d.ver with versions := Tab.erase d.ver.versions key,
                                 gone := Tab.set 0 d.ver.gone (d.goneKey (leAt bs 4 4) (leAt bs 8 4)) (((Tab.find? d.ver.versions key).map (·.holders)).getD 0) } }
  else
    let old := Tab.find? d.ver.versions key
    let v : Version := { state := vstateOf (leAt bs 0 4), base := leAt bs 12 4, len := leAt bs 16 8, holders := leAt bs 24 4,
                         pending := (old.map (·.pending)).getD 0, slot := (old.map (·.slot)).getD 0, pub := old.bind (·.pub),
                         askers := (old.map (·.askers)).getD [], index := index,
                         cleaned := [] }
    { d with ver := { d.ver with versions := Tab.insert d.ver.versions key v } }

def extStateOf (n : Nat) : ExtState := match n with | 1 => .live | 2 => .draining | _ => .revoked

/-- An extent record; the pieces it names are in use, or free again. -/
def Dev.applyExtent (d : Dev) (i : Nat) (bs : Bytes) : Dev :=
  let d := match Tab.find? d.ver.extents i with
    | some e => d.freePiecesOf (piecesPer e.policy) e.pieces
    | none => d
  let b0 := leAt bs 0 1
  if fld b0 0 2 = 0 then { d with ver := { d.ver with extents := Tab.erase d.ver.extents i } }
  else
    let was := Tab.find? d.ver.extents i
    let pieces := (List.range (min 10 (leAt bs 1 1))).map (fun j => (fld (leAt bs (12 + 4 * j) 4) 0 6, fld (leAt bs (12 + 4 * j) 4) 6 26 * 64))
    let st := extStateOf (fld b0 0 2)
    let e : Extent := { state := st, part := fld b0 2 4, region := leAt bs 4 4, version := leAt bs 8 4, policy := fld b0 6 2, pieces := pieces,
                        revokedAt := match was with | some x => if x.state = .revoked then x.revokedAt else d.tb.cueCount | none => d.tb.cueCount }
    let d := { d with ver := { d.ver with extents := Tab.insert d.ver.extents i e } }
    pieces.foldl (fun (d : Dev) p =>
      let t := d.trayRec p.1
      d.setTray p.1 { t with used := (List.range (piecesPer e.policy)).foldl (fun u j => Tab.insert u (p.2 / 64 + j) true) t.used }) d

/-- The journal entry that 64 B spell. -/
def journalOfBytes (bs : Bytes) : Option Journal :=
  let a := leAt bs 0 8
  let b := leAt bs 8 8
  if fld a 0 1 = 0 then none
  else some { part := fld a 1 4, session := fld a 5 24, layer := fld a 29 8, group := fld a 37 8, t0 := fld b 0 22, nt := fld b 22 5,
              selout := BitVec.ofNat 64 (leAt bs 16 8), selected := leAt bs 24 4, ck := leAt bs 28 1, tau := leAt bs 29 1, cut := leAt bs 30 1,
              flags := leAt bs 31 1, tbase := leAt bs 32 8 }

def Dev.applyJournal (d : Dev) (i : Nat) (bs : Bytes) : Dev :=
  let t := match journalOfBytes bs with
    | some j => Tab.insert d.pair.journal i j
    | none => Tab.erase d.pair.journal i
  ({ d with pair := { d.pair with journal := t } } : Dev).storeTable (d.reg PAIR_JNL_BASE + 64 * i) bs

/-- Whether a HANDOVER of a session waits for its MACK. -/
def Dev.handingOver (d : Dev) (id : Nat) : Bool := d.pair.waits.any (fun w => match w.2 with | .handover i _ => i == id | _ => false)

/-- Frees the mirror frames held for a session's copies. -/
def Dev.dropSesMirrors (d : Dev) (r : SesRec) : Dev :=
  [0, 1, 2].foldl (fun d s => if (d.copyOf r.region.index s).any (·.mirror) then d.dropWCopy r.region.index s else d) d

/-- The partner's record takes the place of ours. Where it takes a session from this device, its copies are freed and its operation ends;
where the PRIMARY claims a session in dispute, mirror frames held for it are freed too (R428). [DEDUCED: log 123] -/
def Dev.adoptRecord (d : Dev) (id : Nat) (r : SesRec) : Dev :=
  let l := d.sesRec id
  let lost := l.state ≠ .free ∧ l.owner = d.devId ∧ r.owner ≠ d.devId
  let x := if d.handingOver id then d
    else if lost then
      let y := match d.sesOp id with
        | some o => d.endOp d id l.op l.phase o Status.notOwner
        | none => d
      (((y.failAppends id Status.notOwner).sesUnplace l).dropSesMirrors r).dropLog id
    else if (Tab.find? d.pair.conflicts id).isSome ∧ !d.primary then (d.dropSesMirrors l).dropSesMirrors r
    else d
  let x := x.keepSes id r
  { x with pair := { x.pair with conflicts := Tab.erase x.pair.conflicts id } }

/-- Equal epochs and different owners (R428). [DEDUCED: log 123] -/
def Dev.resolve (d : Dev) (id : Nat) (l r : SesRec) : Dev :=
  let d := ((d.bump PAIR_CONFLICT_CNT).pairEvent 4).report 0x51 1 (mkOrigin 8 (id % 12) 0 0 l.part) id l.epoch r.owner
  let left := fun (x : SesRec) => x.state == .movingOut || x.state == .orphaned
  if l.owner = d.devId ∧ r.owner = d.partner then (if d.primary then d.claimSession id else d)
  else if l.owner = d.partner ∧ r.owner = d.devId then
    if (Tab.find? d.pair.conflicts id).isSome then d
    else { d with pair := { d.pair with conflicts := Tab.insert d.pair.conflicts id d.tb.cueCount } }
  else if left r then d.adoptRecord id r
  else if left l then d.sendRec (id % 12) 0 id (sesBytes l)
  else d

/-- A session record arrives (R427). A FREE record counts as EPOCH 0. [DEDUCED: log 123] -/
def Dev.applySes (d : Dev) (id : Nat) (bs : Bytes) : Dev :=
  let l := d.sesRec id
  let r := sesOfBytes bs
  let el := if l.state = .free then 0 else l.epoch
  let er := if r.state = .free then 0 else r.epoch
  if el < er then d.adoptRecord id r
  else if er < el then (d.bump PAIR_STALE_CNT).sendRec (id % 12) 0 id (sesBytes l)
  else if l.owner = r.owner then (if l.owner = d.devId then d else d.adoptRecord id r)
  else d.resolve id l r

/-- MREC: tables 5 to 7 are reserved; such a record changes nothing. -/
def Dev.applyMrec (d : Dev) (f : PairFrame) : Dev :=
  let w := f.word1.toNat
  let i := fld w 3 32
  let bs := slice f.data 0 (min f.len.toNat f.data.length)
  let d := if d.pair.state = .joining ∧ !d.pair.bulkDone then d.addBulk bs.length else d
  match fld w 0 3 with
  | 0 => if i < d.sesLimit then d.applySes i bs else d
  | 1 => if i < d.regCount then d.applyRegion f.stream.toNat i bs else d
  | 2 => if i < d.verCount then d.applyVersion i bs else d
  | 3 => if i < d.extCount then d.applyExtent i bs else d
  | 4 => if i < d.jnlCount then d.applyJournal i bs else d
  | _ => d

/-- MWR: the data go to the mirror frame; an unmapped frame drops them (R416). -/
def Dev.applyMwr (d : Dev) (f : PairFrame) : Dev :=
  let a := f.word1.toNat
  let n := min f.len.toNat f.data.length
  let d := if d.pair.state = .joining ∧ !d.pair.bulkDone then d.addBulk n else d
  match d.mirrorAddr a with
  | some b => if offOf a % 2 ^ 21 + n ≤ 2 ^ 21 then (d.memWrite b (f.data.take n)).1 else d.bump PAIR_STALE_CNT
  | none => d.bump PAIR_STALE_CNT

/-- A free frame for a mirror frame: the one behind the copy's last frame where it is free, so that a map copy keeps its runs; else any.
[DESIGN CHOICE: log 118, 172] -/
def Dev.mirrorFrame (d : Dev) (tier : Nat) (w : WCopy) : Dev × Option Nat :=
  let free := d.readyFrames tier
  match w.frames.getLast? with
  | some l => if (l + 1) ∈ free then (d, some (l + 1)) else d.pickOne 8 free
  | none => d.pickOne 8 free

/-- MMAP (R416): places or frees one mirror frame. False: evictions are under way, and the frame is applied later.
[DESIGN CHOICE: log 118, 172; DEDUCED: log 168] -/
def Dev.applyMmap (d : Dev) (f : PairFrame) : Dev × Bool :=
  let w1 := f.word1.toNat
  let tier := fld w1 0 1
  let fr := fld w1 1 19
  let part := fld w1 21 4
  let key := frameKey tier fr
  let own := Tab.get 0 d.pair.mirror key
  if fld w1 20 1 = 1 then
    if own = 0 then (d, true)
    else
      let k := own - 1
      let d := match Tab.find? d.ver.frames k with
        | some h =>
          (match d.copyOf h.1 h.2 with
           | some w => d.putWCopy h.1 h.2 { w with frames := w.frames.filter (· ≠ k % 2 ^ 20) }
           | none => d)
        | none => d
      let d := ({ d with ver := { d.ver with frames := Tab.erase d.ver.frames k } } : Dev).subCharge part tier 1
      (d.setMirror key 0 0, true)
  else if own ≠ 0 ∨ (tier = 0 ∧ 15360 ≤ fr) ∨ 294912 ≤ fr then (d, true)
  else match Tab.find? d.pair.lastRegion f.stream.toNat with
  | none => (d, true)
  | some (ri, slot) =>
    match d.makeRoom part tier 1 d.ver.places.length false, d.copyOf ri slot with
    | (x, true, _), some w =>
      if !w.mirror then (d, true)
      else
        let y := x.mirrorFrame tier w
        (match y.2 with
         | none => (y.1, true)
         | some g =>
           let z := (y.1.clearFrame tier g).addCharge part tier 1
           let z := { z with ver := { z.ver with frames := Tab.insert z.ver.frames (frameKey tier g) (ri, slot) } }
           let z := z.putWCopy ri slot { w with frames := w.frames ++ [g] }
           (z.setMirror key (frameKey tier g + 1) part, true))
    | (x, false, .ok), some _ => (x, false)
    | (x, _, _), _ => (x, true)

/-- One summary of AUDIT (R417): ID, STATE, OWNER and EPOCH. -/
def sesSummary (id : Nat) (r : SesRec) : Nat :=
  if r.state = .free then id else id + stateCode r.state * 2 ^ 24 + r.owner * 2 ^ 28 + r.epoch * 2 ^ 40

/-- AUDIT: each summary that differs from the own record is answered with it (R429). -/
def Dev.applyAudit (d : Dev) (f : PairFrame) : Dev :=
  (List.range (min 64 (min f.len.toNat f.data.length / 16))).foldl (fun (d : Dev) i =>
    let v := leAt f.data (16 * i) 16
    let id := fld v 0 24
    let l := d.sesRec id
    if id < d.sesLimit ∧ sesSummary id l ≠ v then d.sendRec (id % 12) 0 id (sesBytes l) else d) d

/-- KEY at the joiner (R502): it takes the seed, or the join fails with CONFIG. [DEDUCED: log 120] -/
def Dev.applyKey (d : Dev) (f : PairFrame) : Dev :=
  if d.pair.state ≠ .joining then d
  else match Config.oaepOpen rootKey (slice f.data 0 384) with
  | none => d.admissionFail 3
  | some body =>
    let own := d.ver.versions.any (fun (e : Nat × Version) => (Tab.find? d.ver.regions (e.1 / 2 ^ 32)).any (fun r => r.shared))
    if body.length ≠ 288 ∨ body.drop 32 ≠ (List.range 16).flatMap d.tenant ∨ own then d.admissionFail 3
    else d.takeSeed (body.take 32)

/-- BULK_END at the joiner. -/
def Dev.applyBulkEnd (d : Dev) : Dev := if d.pair.state = .joining then { d with pair := { d.pair with bulkDone := true } } else d

/-- STEP at the joiner: PAIRED. -/
def Dev.applyStep (d : Dev) : Dev :=
  if d.pair.state = .joining then ({ d with pair := { d.pair with state := .paired, admStep := 0 } } : Dev).pairEvent 2 else d

/-- The frame next in its stream is applied; false: it must wait. -/
def Dev.applyPair (d : Dev) (ptype : Nat) (f : PairFrame) : Dev × Bool :=
  match ptype with
  | 1 => (d.applyMwr f, true)
  | 2 => (d.applyMrec f, true)
  | 3 => d.applyMmap f
  | 6 => (d.applyAudit f, true)
  | 8 => (d.applyKey f, true)
  | 9 => (d.applyStep, true)
  | 0xA => (d.applyBulkEnd, true)
  | _ => (d, true)

/-! ## Sequenced frames (R418) -/

/-- (a - b) mod 2^32. -/
def sub32 (a b : Nat) : Nat := (a % 2 ^ 32 + 2 ^ 32 - b % 2 ^ 32) % 2 ^ 32

/-- Whether a frame of the pair is taken on a link: a link of the pair that is up. -/
def Dev.pairTakes (d : Dev) (k : Nat) : Bool := k ∈ d.pairLinks && d.isUp k

/-- Whether sequenced frames are taken: not in UNPAIRED or SOLO. [DEDUCED: log 117] -/
def Dev.pairRuns (d : Dev) : Bool := d.pair.state != .unpaired && d.pair.state != .solo

/-- Acknowledges what a stream has applied. -/
def Dev.sendMack (d : Dev) (k stream seq : Nat) : Dev := d.pairPlain k 4 stream seq 0

/-- Applies the frames of a stream that are next in order. The number bounds them. -/
def Dev.drainStream (d : Dev) (k stream : Nat) : Nat → Dev
  | 0 => d
  | n + 1 =>
    let e := Tab.get 0 d.pair.rxSeq stream
    match d.pair.early.find? (fun x => x.2.2.stream.toNat == stream && x.2.2.mseq.toNat == e) with
    | none => d
    | some x =>
      let y := d.applyPair x.2.1 x.2.2
      if y.2 then
        let d := { y.1 with pair := { y.1.pair with early := y.1.pair.early.erase x, rxSeq := Tab.set 0 y.1.pair.rxSeq stream ((e + 1) % 2 ^ 32) } }
        (if d.pairRuns then d.sendMack k stream e else d).drainStream k stream n
      else y.1

/-- A sequenced frame reaches the point where MSEQ order is kept: the next one is applied, an early one held, an old one acknowledged again.
[DEDUCED: log 117] -/
def Dev.pairSeq (d : Dev) (k ptype : Nat) (f : PairFrame) : Dev :=
  let s := f.stream.toNat
  let e := Tab.get 0 d.pair.rxSeq s
  if 13 ≤ s then d
  else if sub32 f.mseq.toNat e < 2 ^ 31 then
    let d := if d.pair.early.any (fun x => x.2.2.stream == f.stream && x.2.2.mseq == f.mseq) then d
      else { d with pair := { d.pair with early := d.pair.early ++ [(k, ptype, f)] } }
    d.drainStream k s (d.pair.early.length + 1)
  else d.sendMack k s (sub32 e 1)

/-- A frame of the control stream arrives. -/
def Dev.pairCtrl (d : Dev) (k ptype : Nat) (f : PairFrame) : Dev :=
  if d.pairTakes k ∧ d.pairRuns then (d.pairSeq k ptype f).settleMacks else d

/-! ## The resequencers (R221 to R224) -/

/-- Frames released at a tile's controller go to their stream. -/
def Dev.releaseApply (d : Dev) (l : List FlowPkt) : Dev := l.foldl (fun (d : Dev) p => d.pairSeq p.2.1 p.2.2.1 p.2.2.2) d

/-- What a flow releases goes on to its output: a link, or the tile that applies it. -/
def Dev.releaseFlow (d : Dev) (i : Nat) (l : List FlowPkt) : Dev := if 2048 ≤ i then d.releaseSend l else d.releaseApply l

/-- A flow's packets that arrive by now, and what they release (R223). -/
def Dev.landFlow (d : Dev) (i : Nat) : Dev :=
  let x := d.runFlow i
  x.1.releaseFlow i x.2

/-- A frame of a tile's stream arrives on a PAIR link, and goes to its tile through the flow of that link. [DEDUCED: log 117] -/
def Dev.pairTile (d : Dev) (k ptype : Nat) (f : PairFrame) : Dev :=
  let s := f.stream.toNat
  if d.pairTakes k ∧ d.pairRuns then
    if 12 ≤ s then (d.pairSeq k ptype f).settleMacks
    else
      let i := flowKey k s (if ptype = 1 ∧ spaceOf f.word1.toNat = 2 then 1 else 0)
      ((d.enterFlow i (attachTile k) s k ptype f).landFlow i).settleMacks
  else d

/-- The packets on their way in every flow, at a cue boundary. -/
def Dev.landFlows (d : Dev) : Dev :=
  let l := (d.sw.flows.filter (fun e => e.2.flight != [] || e.2.waits != [])).map (·.1)
  if l = [] then d else (l.foldl (fun (d : Dev) i => d.landFlow i) d).settleMacks

/-- RESEQ_GAP_LOST: the oldest packet of a flow has been held for 8 cues (R223). [DEDUCED: log 173] -/
def Dev.reseqGap (d : Dev) (i : Nat) : Dev :=
  let f := d.flow i
  match f.held with
  | [] => d
  | h :: hs =>
    let oldest := hs.foldl (fun m e => min m e.2.1) h.2.1
    let gap := hs.foldl (fun m e => min m (sub16 e.1 f.exp)) (sub16 h.1 f.exp)
    if d.tb.cueCount < oldest + 8 then d
    else
      let y := ({ f with exp := (f.exp + gap) % 65536 } : Reseq).release f.held.length
      (((((d.bumpBy SW_RESEQ_LOST gap).setFlow i y.1).releaseFlow i y.2).landFlow i).settleMacks)

/-! ## Heartbeats, MACK, DOWN and resends (R418, R421 to R423) -/

/-- The frames that were held in LOST are sent. -/
def Dev.sendHeld (d : Dev) (k : Nat) : Dev :=
  let l := d.pair.unacked
  let d := { d with pair := { d.pair with unacked := l.map (fun (u : Unacked) => { u with link := k, tries := 0, lastSend := d.tb.cueCount }) } }
  l.foldl (fun (d : Dev) (u : Unacked) => d.pairOut k u.ptype { u.frame with rtx := u.link != 36 }) d

/-- HB. -/
def Dev.hb (d : Dev) (k : Nat) (f : PairFrame) : Dev :=
  if !d.pairTakes k then d
  else
    let d := { d with pair := { d.pair with linkUp := Tab.insert d.pair.linkUp k true, lastHb := Tab.insert d.pair.lastHb k d.tb.cueCount } }
    let theirs := fld f.word1.toNat 0 3
    match d.pair.state with
    | .lost =>
      if theirs = 3 ∨ theirs = 4 then (({ d with pair := { d.pair with state := .paired } } : Dev).pairEvent 2).sendHeld k
      else if theirs = 5 then d.fatal 3 0
      else d
    | .solo => if theirs = 5 ∧ !d.primary then d.fatal 3 0 else d
    | _ => d

/-- HB_TIMEOUT: 8 cues without an HB on a link; in PAIRED, with none on any link, the device enters LOST. -/
def Dev.hbTimeout (d : Dev) (k : Nat) : Dev :=
  let old := fun (d : Dev) j => Tab.get 0 d.pair.lastHb j + 8 ≤ d.tb.cueCount
  if !(k ∈ d.pairLinks) ∨ !old d k then d
  else
    let d := { d with pair := { d.pair with linkUp := Tab.insert d.pair.linkUp k false } }
    if d.pair.state = .paired ∧ d.pairLinks.all (old d) then ({ d with pair := { d.pair with state := .lost } } : Dev).pairEvent 0 else d

/-- MACK: acknowledges every frame of its stream up to its MSEQ. -/
def Dev.mackIn (d : Dev) (k : Nat) (f : PairFrame) : Dev :=
  if !d.pairTakes k then d
  else
    let acked := fun (u : Unacked) => u.stream == f.stream.toNat && sub32 f.mseq.toNat u.mseq < 2 ^ 31
    ({ d with pair := { d.pair with unacked := d.pair.unacked.filter (fun u => !acked u) } } : Dev).settleMacks

/-- MIRROR_RESEND: 2 cues after its last send a frame goes out again, up to 3 times on one link, then on another. In LOST it is held. -/
def Dev.mirrorResend (d : Dev) (stream mseq : Nat) : Dev :=
  match d.pair.unacked.find? (fun u => u.stream == stream && u.mseq == mseq) with
  | none => d
  | some u =>
    let ups := d.pairUp
    let other := (ups.filter (· ≠ u.link)).head?
    let k := if u.link ∈ ups ∧ (u.tries < 3 ∨ other = none) then some u.link else other
    match k with
    | none => d
    | some k =>
      if d.pair.state = .lost ∨ d.tb.cueCount < u.lastSend + 2 then d
      else
        let f := { u.frame with rtx := true }
        let u' : Unacked := { u with frame := f, link := k, tries := if k = u.link then u.tries + 1 else 0, lastSend := d.tb.cueCount }
        let d := { d with pair := { d.pair with unacked := d.pair.unacked.map (fun (x : Unacked) => if x.stream = stream ∧ x.mseq = mseq then u' else x) } }
        (d.bump PAIR_RTX_CNT).pairOut k u.ptype f

/-- DOWN from the partner (R423). -/
def Dev.downIn (d : Dev) (k : Nat) : Dev :=
  if !d.pairTakes k then d
  else
    let d := d.pairEvent 5
    match d.pair.state with
    | .paired => d.enterSolo
    | .lost => d.enterSolo
    | .source => d.admissionFail 5
    | .joining => d.admissionFail 5
    | _ => d

/-- CONFLICT_CLAIM: 8 cues without a record of a higher epoch, the PRIMARY claims (R428). -/
def Dev.conflictClaim (d : Dev) (id : Nat) : Dev :=
  match Tab.find? d.pair.conflicts id with
  | some c => if c + 8 ≤ d.tb.cueCount ∧ d.primary ∧ d.pair.state = .paired then d.claimSession id else d
  | none => d

/-- What the pair does at a cue boundary: HB on every up link, the count of missed ones, the AUDIT of 8 records, STEP, the repeats of DOWN, and
frames that wait for evictions. -/
def Dev.pairCue (d : Dev) : Dev :=
  let ups := d.pairLinks.filter d.isUp
  let miss := d.pairUp.any (fun k => Tab.get 0 d.pair.lastHb k + 1 < d.tb.cueCount)
  let d := if miss then d.bump PAIR_HB_MISS_CNT else d
  let d := if d.pair.stepDue then
      (({ d with pair := { d.pair with state := .paired, stepDue := false, admStep := 0 } } : Dev).pairEvent 2).pairSend ctrlStream 9 0 []
    else d
  let word := pairStateCode d.pair.state + b2n (!d.primary) * 8 + b2n d.pair.bulkDone * 16
  let d := ups.foldl (fun (d : Dev) k => d.pairPlain k 0 0 0 word) d
  let d := if d.pair.downLeft = 0 then d
    else (d.upLinks 4).foldl (fun (d : Dev) k => d.pairPlain k 5 0 0 0) { d with pair := { d.pair with downLeft := d.pair.downLeft - 1 } }
  let d := if d.pair.state = .paired ∧ d.sesLimit ≠ 0 then
      let ids := (List.range (min 8 (d.sesLimit - d.pair.auditPos))).map (· + d.pair.auditPos)
      let bs := ids.flatMap (fun id => leBytes 16 (sesSummary id (d.sesRec id)))
      let d := { d with pair := { d.pair with auditPos := if d.sesLimit ≤ d.pair.auditPos + 8 then 0 else d.pair.auditPos + 8 } }
      d.pairSend ctrlStream 6 0 bs
    else d
  if d.pairRuns then
    (((d.pair.early.map (fun x => (x.1, x.2.2.stream.toNat))).foldl (fun (d : Dev) x => d.drainStream x.1 x.2 (d.pair.early.length + 1)) d)).settleMacks
  else d

/-! ## The commands -/

/-- A PAIR frame arrives: it is the oldest that the link's flits brought, where one waits. -/
def Dev.pairIn (d : Dev) (k ptype : Nat) (f : PairFrame) (body : Dev → Dev) : Dev := if d.spellsPair k ptype f then body (d.takeRx k 0) else d

def execHb (link : Nat) (f : PairFrame) (s : State) : Host.Outcome State Fault Refusal := s.run (·.pairIn link 0 f (fun d => d.hb link f))
def execHbTimeout (link : Nat) (s : State) : Host.Outcome State Fault Refusal := s.run (·.hbTimeout link)
def execMwr (link : Nat) (f : PairFrame) (s : State) : Host.Outcome State Fault Refusal := s.run (·.pairIn link 1 f (fun d => d.pairTile link 1 f))
def execMrec (link : Nat) (f : PairFrame) (s : State) : Host.Outcome State Fault Refusal := s.run (·.pairIn link 2 f (fun d => d.pairTile link 2 f))
def execMmap (link : Nat) (f : PairFrame) (s : State) : Host.Outcome State Fault Refusal := s.run (·.pairIn link 3 f (fun d => d.pairTile link 3 f))
def execMack (link : Nat) (f : PairFrame) (s : State) : Host.Outcome State Fault Refusal := s.run (·.pairIn link 4 f (fun d => d.mackIn link f))
def execMirrorResend (stream mseq : Nat) (s : State) : Host.Outcome State Fault Refusal := s.run (·.mirrorResend stream mseq)
def execDown (link : Nat) (s : State) : Host.Outcome State Fault Refusal :=
  s.run (fun d => if ((d.frontRx link 0).map (fun m => ptypeAt m.2.2)).getD 5 = 5 then (d.takeRx link 0).downIn link else d)
def execAudit (link : Nat) (f : PairFrame) (s : State) : Host.Outcome State Fault Refusal := s.run (·.pairIn link 6 f (fun d => d.pairCtrl link 6 f))
def execKey (link : Nat) (f : PairFrame) (s : State) : Host.Outcome State Fault Refusal := s.run (·.pairIn link 8 f (fun d => d.pairCtrl link 8 f))
def execBulkEnd (link : Nat) (f : PairFrame) (s : State) : Host.Outcome State Fault Refusal := s.run (·.pairIn link 0xa f (fun d => d.pairCtrl link 0xA f))
def execStepFrame (link : Nat) (f : PairFrame) (s : State) : Host.Outcome State Fault Refusal := s.run (·.pairIn link 9 f (fun d => d.pairCtrl link 9 f))
def execBulkSend (s : State) : Host.Outcome State Fault Refusal := s.run (·.bulkSend)
def execAdmissionStep (step : Nat) (r : AdmResult) (s : State) : Host.Outcome State Fault Refusal := s.run (·.admissionStep step r)
def execJoin (s : State) : Host.Outcome State Fault Refusal := s.run (·.join)
def execAdmitPair (s : State) : Host.Outcome State Fault Refusal := s.run (·.admitPair)
def execTakeover (s : State) : Host.Outcome State Fault Refusal := s.run (·.takeover)
def execYieldPair (s : State) : Host.Outcome State Fault Refusal := s.run (·.yield)
def execStep (s : State) : Host.Outcome State Fault Refusal := s.run (·.stepOp)
def execUnpair (s : State) : Host.Outcome State Fault Refusal := s.run (·.unpair)
def execConflictClaim (id : Nat) (s : State) : Host.Outcome State Fault Refusal := s.run (·.conflictClaim id)
def execReseqGapLost (flow : Nat) (s : State) : Host.Outcome State Fault Refusal := s.run (·.reseqGap flow)

/-- A frame of a reserved PTYPE is dropped and counted (R417). -/
def execReservedPtype (link : Nat) (ptype : BitVec 4) (f : PairFrame) (s : State) : Host.Outcome State Fault Refusal :=
  s.run (·.pairIn link ptype.toNat f (fun d => { d with pair := { d.pair with dropped := d.pair.dropped + 1 } }))

end Sys2Proof.Machine
end

