-- ==== Sys2Proof/Machine/Faults.lean ====
section
/-! DEFINITION. Hangs, the recovery steps and their escalation, and the prompt book (R468 to R492). -/

namespace Sys2Proof.Machine

def Dev.wdogGrace (d : Dev) : Nat := max 8 (d.regFld FLT_CFG 0 16)
def Dev.escLimit (d : Dev) : Nat := max 1 (d.regFld FLT_CFG 16 8)

/-! ## The prompt book (R486 to R491) -/

def pbBase : Nat := nearAddr 0x77F000000

/-- Severity of a fault code (R489): 0 INFO, 1 ERROR, 2 FATAL. [DEDUCED: log 126] -/
def sevOf (code : Nat) : Nat :=
  if code ∈ [0x0003, 0x0018, 0x0019, 0x001A, 0x001E, 0x0042, 0x0060] then 0
  else if code ∈ [0x001B, 0x001C, 0x001D] then 2
  else 1

/-- The 64 B of an entry (R487). -/
def pbBytes (e : PbEntry) (seq : Nat) : Bytes :=
  leBytes 8 e.tbase ++ leBytes 4 seq ++ leBytes 2 e.code ++ [BitVec.ofNat 8 e.kind, BitVec.ofNat 8 (e.sev % 4 + e.step % 4 * 4 + e.status % 16 * 16)] ++
    leBytes 4 e.origin.toNat ++ zeros 4 ++ leBytes 8 e.a.toNat ++ leBytes 8 e.b.toNat ++ leBytes 8 e.c.toNat ++ zeros 16

def pbAddr (seq : Nat) : Nat := pbBase + seq % 262144 * 64

/-- Writes an entry at the head: one aligned 64 B store, and then the head advances. Summaries and RESET entries carry TBASE at writing. -/
def Dev.pbWrite (d : Dev) (e : PbEntry) : Dev :=
  let s := if e.kind = 1 ∨ e.kind = 3 then d.stampNow else (d, e.tbase)
  let d := s.1.store (pbAddr s.1.flt.head) (pbBytes { e with tbase := s.2 } s.1.flt.head)
  { d with flt := { d.flt with head := (d.flt.head + 1) % 2 ^ 32 } }

/-- PB_ENTRY_WRITE: the oldest staged entry of a tile is written (R488), once the bring-up has written its RESET entry (R490). -/
def Dev.pbEntryWrite (d : Dev) (tile : Nat) : Dev :=
  if !d.pwr.memDone then d
  else match Tab.get [] d.flt.staging tile with
  | [] => d
  | e :: rest => ({ d with flt := { d.flt with staging := Tab.set [] d.flt.staging tile rest } } : Dev).pbWrite e

/-- The SUMMARY entry of a storm-table entry. [DEDUCED: log 126] -/
def summaryEntry (e : Storm) : PbEntry :=
  { tbase := 0, code := e.code, kind := 1, sev := sevOf e.code, step := 0, status := 0, origin := e.origin,
    a := BitVec.ofNat 64 (e.dup % 2 ^ 32 + e.sup % 2 ^ 32 * 2 ^ 32), b := BitVec.ofNat 64 e.first, c := BitVec.ofNat 64 e.last }

/-- A summary goes through its tile's staging queue. [DEDUCED: log 126] -/
def Dev.stageSummary (d : Dev) (e : Storm) : Dev :=
  let x := d.stage (originTile e.origin) (summaryEntry e)
  if x.2 then (x.1.bump FLT_PB_DROP_CNT).setRegBit FLT_EVT 3 else x.1

/-- The storm table at a 1 ms boundary (R480, R481): summaries, PB_LOST, and a new window. -/
def Dev.stormMs (d : Dev) : Dev :=
  let d := (d.flt.storm.filter (fun e => e.dup + e.sup ≠ 0)).foldl (fun (d : Dev) e => d.stageSummary e) d
  let lost := d.flt.lostReports + d.flt.lostEntries
  let s := d.stampNow
  let due := lost ≠ 0 ∧ d.pwr.memDone
  let d := if !due then d
    else s.1.pbWrite { tbase := s.2, code := 0x61, kind := 0, sev := 1, step := 0, status := 0, origin := hubOrigin,
                       a := BitVec.ofNat 64 d.flt.lostReports, b := BitVec.ofNat 64 d.flt.lostEntries, c := 0 }
  { d with flt := { d.flt with
      storm := (d.flt.storm.filter (fun e => e.used)).map (fun (e : Storm) => { e with fwd := 0, dup := 0, sup := 0, first := 0, last := 0, used := false })
      lostReports := if due then 0 else d.flt.lostReports, lostEntries := if due then 0 else d.flt.lostEntries, repeats := [] } }

/-- FLT_STAT as it reads. -/
def Dev.fltStat (d : Dev) : Nat := b2n d.flt.fatal + d.flt.cause % 256 * 2 + d.flt.lastReset % 8 * 2 ^ 9 + b2n d.flt.pwrReq * 2 ^ 12

/-- PB_READ (R491): entries from a SEQ on; overwritten ones are zeros. It stays available after a fatal declaration. -/
def Dev.pbRead (d : Dev) (seq count : Nat) : Dev :=
  if count = 0 ∨ 64 < count then d.emit (.mailbox 0xC360 Status.badRequest [])
  else
    let entry := fun i =>
      let n := (seq + i) % 2 ^ 32
      let bs := d.mem.bytesAt (pbAddr n) 64
      if leAt bs 8 4 = n then bs else zeros 64
    d.emit (.mailbox 0xC360 Status.ok ((List.range count).flatMap entry))

/-- FLT_CNT_CLR (R485): clears the counter that the address names. -/
def Dev.cntClr (d : Dev) (addr : Nat) : Dev :=
  let off := offOf addr
  if spaceOf addr = 8 ∧ off < 2 ^ 24 ∧ (csrFam off).any (·.counter) then d.putReg off 0 else d

/-! ## Watchdogs and hung engines (R468 to R470) -/

/-- A mask of the tickets a context still holds. -/
def Ctx.ticketMask (x : Ctx) : Nat := (x.tickets.map (fun t => 2 ^ (t.1 % 64))).sum

/-- Whether a context's watchdog is due. -/
def Dev.wdogDue (d : Dev) (c : CtxId) : Bool :=
  let x := d.ctx c
  if x.run = .free ∨ x.wdogFired then false
  else if c.ctx = 15 then x.run == .running && d.wdogGrace ≤ x.idleCues
  else x.startCue + x.budget + d.wdogGrace ≤ d.tb.cueCount

/-- CTX_WATCHDOG. -/
def Dev.ctxWatchdog (d : Dev) (c : CtxId) : Dev :=
  if d.wdogDue c then
    let x := d.ctx c
    let d := d.report 0x0002 1 (ctxOrigin c x.part) x.pc x.ticketMask (d.tb.cueCount - x.startCue)
    let d := (d.lastFault c x.part 0x0002 0 x.pc).setRegBit FLT_EVT 5
    (d.setCtx c { d.ctx c with wdogFired := true }).stepNeeded (ctxOrigin c x.part) 1 0
  else d

/-- ENG_HANG: the engine holds a ticket of a context whose watchdog has fired, and has completed no work unit for WDOG_GRACE cues. -/
def Dev.engHang (d : Dev) (e : EngId) (p : Nat) : Dev :=
  match (d.engQ e p).find? (fun x => (d.ctx x.ctx).wdogFired) with
  | some x =>
    if e ∈ d.eng.hung ∨ d.tb.cueCount < Tab.get 0 d.eng.lastUnit (engKey e) + d.wdogGrace then d
    else (d.report 0x0011 1 (engOrigin e p) p x.header 0).hang e p
  | none => d

/-! ## Step 1: context reset -/

/-- The request of a context completes with TIMEOUT, and all the context holds is lost but its LOCAL's bundle images (R471, R71). -/
def Dev.clearCtx (d : Dev) (c : CtxId) : Dev :=
  let x := d.ctx c
  let d := (d.answerScript c Status.timeout 0 []).endCtx c
  let d := { d with
    thr := { d.thr with copies := d.thr.copies.filter (fun (j : CopyJob) => j.ctx != c), prims := d.thr.prims.filter (fun (j : Prim) => j.ctx != c) }
    cxl := { d.cxl with reads := d.cxl.reads.filter (fun (e : Nat × HostRead) => match e.2.serves with
      | .ctx a _ => a != c
      | .copy a _ _ => a != c
      | _ => true) } }
  let fresh := match d.ctxPart c with
    | some p => d.freshLocal p
    | none => Ctx.reset
  (d.setCtx c { fresh with run := .ended, gens := x.gens, issued := x.issued }).freeContext c

/-- A context reset that is taken: cause is the code of the report that led to it, or 0. [DEDUCED: log 124; DESIGN CHOICE: log 205] -/
def Dev.ctxReset (d : Dev) (c : CtxId) (cause : Nat) : Dev :=
  let p := (d.ctx c).part
  ((d.clearCtx c).bump FLT_CTX_RESET_CNT).report 0x0018 0 (ctxOrigin c p) cause 0 0 0 1

/-! ## Step 2: engine reset (R473) -/

/-- What a descriptor holds in its engine is released. -/
def Dev.unhold (d : Dev) (tile : Nat) (x : DescEntry) : Dev :=
  let d := if x.fl 0 4 = 0 then d.releaseJob tile x else d
  [x.topk, x.att.topk].foldl (fun (d : Dev) (t : Option Nat) => match t with | some i => d.releaseTopk tile i | none => d) d

/-- A descriptor as it stands before its first work unit; an attached fold starts anew. One that has handed its work to a reduce group waits on
for the group, which sums again from its staging slots (R230, R473). -/
def DescEntry.fresh (x : DescEntry) : DescEntry :=
  if x.phase = .finished then x else
  { x with started := false, work := 0, phase := .fresh, att := AttJob.reset, topk := none, folded := [], nFolded := 0, nTrans := 0 }

/-- Restarts the fold of the SNOOP_ENGINEs attached to a descriptor. [DEDUCED: log 124] -/
def Dev.restartSnoops (d : Dev) (id : Nat) : Dev :=
  d.mapDescs (fun y => if y.target = some id then { y with folded := [], nFolded := 0, nTrans := 0 } else y)

/-- Descriptors that the engine has in progress. -/
def Dev.inProgress (d : Dev) (e : EngId) : List DescEntry :=
  (List.range 16).flatMap (fun p => (d.engQ e p).filter (fun x => x.started && x.status.isNone))

/-- Whether a reset aborts a descriptor: that of the partition involved, and SNOOP_PORTs of a check-value unit. [DEDUCED: log 124] -/
def Dev.abortedBy (d : Dev) (e : EngId) (x : DescEntry) : Bool :=
  let part := Tab.get 0 d.eng.hungPart (engKey e)
  (e.cls == 5 && x.op == 3) || (part == x.part + 1 && (d.atWork e x.part).any (fun y => y.id == x.id))

/-- An engine reset that is taken. [DEDUCED: log 124; DESIGN CHOICE: log 205] -/
def Dev.engReset (d : Dev) (e : EngId) : Dev :=
  let l := d.inProgress e
  if l = [] ∧ !(e ∈ d.eng.hung) then d
  else
    let p := Tab.get 0 d.eng.hungPart (engKey e) - 1
    let dead := l.filter (d.abortedBy e)
    let rest := l.filter (fun x => !d.abortedBy e x)
    let d := dead.foldl (fun (d : Dev) x => (d.restartSnoops x.id).cutDesc x Status.aborted) d
    let d := rest.foldl (fun (d : Dev) x => ((d.unhold e.tile x).putDesc x.fresh).restartSnoops x.id) d
    let d := (d.eng.shadows.filter (fun x => descEng x.ctx x.word == e)).foldl (fun (d : Dev) x => d.abandonShadow x.id) d
    let d := { d with eng := { d.eng with hung := d.eng.hung.filter (· ≠ e), hungPart := Tab.erase d.eng.hungPart (engKey e)
                                          lastUnit := Tab.insert d.eng.lastUnit (engKey e) d.tb.cueCount } }
    (d.bump FLT_ENG_RESET_CNT).report 0x0019 0 (engOrigin e p) rest.length dead.length 0 0 2

/-! ## Step 3: partition reset -/

/-- A session operation before its commit point is undone (R399). -/
def Dev.abortOp (d : Dev) (id : Nat) (o : SesOp) : Dev :=
  let r := d.sesRec id
  if r.op = 5 then (if r.phase = 2 ∧ o.started then d else d.moveFail id o Status.aborted) else d.undoOp id o Status.aborted

/-- Contexts of a partition that are not FREE. -/
def Dev.partCtxs (d : Dev) (p : Nat) : List CtxId :=
  (List.range 12).flatMap (fun t => (ctxsOfTile t).filter (fun c => d.ctxPart c == some p && (d.ctx c).run != .free))

/-- Every context of a partition. -/
def Dev.allPartCtxs (d : Dev) (p : Nat) : List CtxId := (List.range 12).flatMap (fun t => (ctxsOfTile t).filter (fun c => d.ctxPart c == some p))

/-- A partition reset that is taken; an idle partition is left as it is (R474). [DEDUCED: log 125; DESIGN CHOICE: log 205] -/
def Dev.partReset (d : Dev) (p : Nat) : Dev :=
  let queued := (List.range 12).flatMap (fun t => d.dispatchQ t p)
  let running := (d.partCtxs p).filter (fun c => (d.ctx c).req.isSome)
  let descs := d.allDescs.filter (fun (e : Nat × DescEntry) => e.2.part == p)
  let groups := d.rdc.groups.filter (fun (g : Group) => g.part == p && g.live)
  let ops := d.ses.ops.filter (fun (e : Nat × SesOp) => (d.sesRec e.1).part == p)
  let apps := d.ses.appends.filter (fun e => (d.sesRec e.2.1.id).part == p)
  let news := d.ses.creates.filter (fun e => e.2.part == p)
  if queued = [] ∧ d.partCtxs p = [] ∧ descs = [] ∧ groups = [] ∧ ops = [] ∧ apps = [] ∧ news = [] then d
  else
    let d := (List.range 12).foldl (fun (d : Dev) t => d.setDispatchQ t p []) d
    let d := queued.foldl (fun (d : Dev) q => d.complete q.req .opreq Status.busy 0 []) d
    let d := descs.foldl (fun (d : Dev) e => if e.2.status.isNone then d.cutDesc e.2 Status.aborted else d) d
    let d := descs.foldl (fun (d : Dev) e => (d.unhold (e.1 / 16 / 128) e.2).dropDesc e.2.id) d
    let d := { d with eng := { d.eng with hung := d.eng.hung.filter (fun e => Tab.get 0 d.eng.hungPart (engKey e) != p + 1)
                                          hungPart := d.eng.hungPart.filter (fun (e : Nat × Nat) => e.2 != p + 1) } }
    let d := groups.foldl (fun (d : Dev) g => match d.group p g.gid with
      | some g => if g.live then d.groupFail g Status.aborted else d
      | none => d) d
    let d := ops.foldl (fun (d : Dev) e => d.abortOp e.1 e.2) d
    let d := apps.foldl (fun (d : Dev) e => d.failAppends e.2.1.id Status.aborted) d
    let d := { d with ses := { d.ses with creates := d.ses.creates.filter (fun e => e.2.part != p) } }
    let d := news.foldl (fun (d : Dev) e => d.sesTell d e.1 e.2.id 10 0 Status.aborted []) d
    let d := (d.allPartCtxs p).foldl (fun (d : Dev) c => d.clearCtx c) d
    (d.bump FLT_PART_RESET_CNT).report 0x001A 0 (mkOrigin 7 15 0 0 p) (running.length + queued.length) descs.length 0 0 3

/-! ## Escalation (R472, R474) -/

/-- Counts that an origin needs a step; true where it needs it too often in the window. [DESIGN CHOICE: log 171] -/
def Dev.noteStep (d : Dev) (o : BitVec 32) (step : Nat) : Dev × Bool :=
  let n := ((d.flt.repeats.find? (fun x => x.1 == o && x.2.1 == step)).map (fun x => x.2.2)).getD 0 + 1
  let rest := d.flt.repeats.filter (fun x => !(x.1 == o && x.2.1 == step))
  ({ d with flt := { d.flt with repeats := rest ++ [(o, step, n)] } }, d.escLimit < n)

/-- The context that an origin of class 0 names, and the engine of class 1. -/
def originCtx (o : Nat) : CtxId := { tile := fld o 4 4, core := fld o 8 8, ctx := fld o 16 4 }
def originEng (o : Nat) : EngId := { tile := fld o 4 4, cls := fld o 16 4, inst := fld o 8 8 }

/-- Engines that hold tickets of a context. -/
def Dev.holders' (d : Dev) (c : CtxId) : List EngId :=
  (d.allDescs.filter (fun (e : Nat × DescEntry) => e.2.ctx == c)).foldl (fun (l : List EngId) e =>
    let g := descEng e.2.ctx e.2.word
    if g ∈ l then l else l ++ [g]) []

/-- ESCALATE: a step failed its bound, or is needed too often. The next step acts on the scope that contains the target, or waits for the
host. [DESIGN CHOICE: log 171] -/
def Dev.escalate (d : Dev) (origin : BitVec 32) (step : Nat) : Dev :=
  let o := origin.toNat
  let part := fld o 20 4
  let part3 := fun (d : Dev) => if d.autoMax < 3 then d.stepNeeded origin 3 step else d.partReset part
  if d.flt.fatal then d
  else match step with
  | 1 =>
    let l := d.holders' (originCtx o)
    if l = [] then part3 d
    else if d.autoMax < 2 then d.stepNeeded origin 2 1
    else l.foldl (fun (d : Dev) e => d.engReset e) d
  | 2 => part3 d
  | 3 => if d.autoMax < 4 then d.stepNeeded origin 4 3 else d.fatal 2 4
  | 4 => if d.autoMax < 5 then d.stepNeeded origin 5 4 else d.fatal 2 5
  | _ => d

/-- A CTX_RESET command: by FLT_CTRL, or by a watchdog that has fired. -/
def Dev.ctxResetCmd (d : Dev) (c : CtxId) (byHost : Bool) : Dev :=
  if d.flt.fatal then d
  else if byHost ∧ (12 ≤ c.tile ∨ c.ctx = 15) then d.setRegBit FLT_EVT 6
  else if (d.ctx c).run = .free then d
  else if byHost then d.ctxReset c 0
  else if !(d.ctx c).wdogFired ∨ d.autoMax < 1 then d
  else
    let o := ctxOrigin c (d.ctx c).part
    let y := d.noteStep o 1
    if y.2 then y.1.escalate o 1 else y.1.ctxReset c 2

/-- Whether an engine class has an instance of that number (R78). -/
def engExists (e : EngId) : Bool := e.tile < 12 && e.cls < 6 && e.inst < engInstances e.cls

/-- An ENG_RESET command: by FLT_CTRL, or of a hung engine. -/
def Dev.engResetCmd (d : Dev) (e : EngId) : Dev :=
  if d.flt.fatal then d
  else if !engExists e then d.setRegBit FLT_EVT 6
  else if e ∈ d.eng.hung ∧ 2 ≤ d.autoMax then
    let o := engOrigin e (Tab.get 0 d.eng.hungPart (engKey e) - 1)
    let y := d.noteStep o 2
    if y.2 then y.1.escalate o 2 else y.1.engReset e
  else d.engReset e

/-- A PART_RESET command. -/
def Dev.partResetCmd (d : Dev) (p : Nat) : Dev := if d.flt.fatal ∨ 16 ≤ p then d else d.partReset p

/-- A write of FLT_CTRL (R474): a fatal declaration in force absorbs it. [DESIGN CHOICE: log 205] -/
def Dev.writeFltCtrl (d : Dev) (v : Nat) : Dev :=
  if d.flt.fatal then d
  else match fld v 0 3 with
  | 1 => d.ctxResetCmd { tile := fld v 3 4, core := fld v 7 4, ctx := fld v 11 4 } true
  | 2 => d.engResetCmd { tile := fld v 3 4, cls := fld v 11 4, inst := fld v 7 4 }
  | 3 => d.partResetCmd (fld v 15 4)
  | 4 => d.fatal 1 4
  | 5 => d.fatal 1 5
  | 6 => d.fatal 1 0
  | _ => d

/-! ## The commands -/

def execCtxWatchdog (c : CtxId) (s : State) : Host.Outcome State Fault Refusal := s.run (·.ctxWatchdog c)
def execEngHang (e : EngId) (part : Nat) (s : State) : Host.Outcome State Fault Refusal := s.run (·.engHang e part)
def execCtxReset (c : CtxId) (byHost : Bool) (s : State) : Host.Outcome State Fault Refusal := s.run (·.ctxResetCmd c byHost)
def execEngReset (e : EngId) (s : State) : Host.Outcome State Fault Refusal := s.run (·.engResetCmd e)
def execPartReset (part : Nat) (s : State) : Host.Outcome State Fault Refusal := s.run (·.partResetCmd part)
def execEscalate (origin : BitVec 32) (step : Nat) (s : State) : Host.Outcome State Fault Refusal := s.run (·.escalate origin step)

/-- A report reaches the hub (R480). -/
def execReport (r : Report) (s : State) : Host.Outcome State Fault Refusal := s.run (·.hubReport r)
def execPbEntryWrite (tile : Nat) (s : State) : Host.Outcome State Fault Refusal := s.run (·.pbEntryWrite tile)
def execFltCntClr (addr : Word) (s : State) : Host.Outcome State Fault Refusal := s.run (·.cntClr addr.toNat)
def execPbRead (seq : BitVec 32) (count : Nat) (s : State) : Host.Outcome State Fault Refusal := s.run (·.pbRead seq.toNat count)

end Sys2Proof.Machine
end

