-- ==== Sys2Proof/Machine/Links.lean ====
section
/-! DEFINITION. Galter links (R518 to R530, R541): flits and credits, training with its authentication (R504), links that go down, and the
configuration of a link. -/

namespace Sys2Proof.Machine

def Dev.linkEn (d : Dev) (k : Nat) : Bool := d.regFld (GL_LINK_CFG + 8 * k) 0 1 == 1

/-- Lanes of a link that are retired: a bit per lane. -/
def Dev.lanesRetired (d : Dev) (k : Nat) : Nat := ((List.range 8).map (fun i => b2n ((d.calInfo 1 (8 * k + i)).state == .retired) * 2 ^ i)).sum

def Dev.enterState (d : Dev) (k : Nat) (s : LinkState) : Dev := d.setLink k { d.link k with state := s, enteredCue := d.tb.cueCount }

def Dev.setSecLink (d : Dev) (k v : Nat) : Dev := { d with sec := { d.sec with linkState := Tab.set 0 d.sec.linkState k v } }

/-! ## Links that go down (R528, R530) -/

/-- Whether caching agent n's set has lost its last up link (R194). -/
def Dev.setLost (d : Dev) (n k : Nat) : Bool :=
  k ∈ d.caLinks n && Tab.get false d.coh.everUp n && (d.caLinks n).all (fun j => !d.isUp j)

/-- What a transition from UP to DOWN does (R530): queues freed and counted, the event and the count; caching agents and trays that lose
their last link fail. -/
def Dev.leaveUp (d : Dev) (k : Nat) : Dev :=
  let qs := answerQ k :: (List.range 8).map (classQ k)
  let d := qs.foldl (fun (d : Dev) q => (d.swQ q).foldl (fun (d : Dev) _ => d.countDrop q) d) d
  let d := ((d.flushLink k qs).bump (GL_DOWN_CNT + 8 * k)).setRegBit GL_EVT k
  let d := { d with pair := { d.pair with linkUp := Tab.set false d.pair.linkUp k false } }
  let d := (List.range 16).foldl (fun (d : Dev) n => if d.setLost n k then d.caFail n else d) d
  d.checkTrayLinks

/-- A link goes DOWN, with its FAIL code unless EN was written 0. -/
def Dev.linkDown (d : Dev) (k : Nat) (fail : Option Nat) : Dev :=
  let l := d.link k
  if l.state = .down then d
  else
    let d := d.setLink k { l with
      state := .down, enteredCue := d.tb.cueCount, failCue := d.tb.cueCount, fail := fail.getD l.fail, laneFail := fail == some 6
      chans := [], rx := [], txTail := [], txPairs := 0, txRot := 0 }
    let d := d.forgetFlits k
    let d := { d with sec := { d.sec with auth := Tab.erase d.sec.auth k } }
    let d := d.setSecLink k 0
    if l.state = .up then d.leaveUp k else d

/-- An authentication fails (R504). [DEDUCED: log 136] -/
def Dev.authFail (d : Dev) (k : Nat) : Dev :=
  (((d.linkDown k (some 4)).setSecLink k 3).bump SEC_AUTH_FAIL_CNT).setRegBit SEC_EVT 2

/-- A time limit or an error in a state (R528). -/
def Dev.linkFails (d : Dev) (k : Nat) : Dev :=
  match (d.link k).state with
  | .down => d
  | .phy => d.linkDown k (some (if d.lanesRetired k = 0 then 1 else 6))
  | .ident => d.linkDown k (some 2)
  | .auth => d.authFail k
  | .credit => d.linkDown k (some 5)
  | .up => d.linkDown k (some 7)

/-- A DOWN message. -/
def Dev.sendDown (d : Dev) (k reason : Nat) : Dev := d.sendCtrl k 5 [BitVec.ofNat 8 reason]

/-- A protocol error (R523): the peer is told, and the link fails. -/
def Dev.protocolError (d : Dev) (k : Nat) : Dev := (d.sendDown k 1).linkFails k

/-! ## Training (R528, R529) -/

/-- A link leaves DOWN for PHY. -/
def Dev.tryTrain (d : Dev) (k : Nat) : Dev :=
  if (d.link k).state = .down ∧ d.linkEn k ∧ d.role k ≠ 0 ∧ !(d.link k).laneFail then d.enterState k .phy else d

/-- IDENT from its KIND on (R528). -/
def Dev.identBody (d : Dev) (k : Nat) : Bytes :=
  [2, BitVec.ofNat 8 (d.role k)] ++ leBytes 2 d.devId ++ zeros 2 ++ leBytes 8 d.pwr.inst.toNat ++ [BitVec.ofNat 8 (b2n (d.linkEnc k))]

/-- PHY_LOCKED: all lanes lock, and the device sends its IDENT. -/
def Dev.phyLocked (d : Dev) (k : Nat) : Dev :=
  if (d.link k).state = .phy ∧ d.lanesRetired k = 0 then (d.enterState k .ident).sendCtrl k 1 (d.identBody k) else d

/-- What the device grants on a channel (R524). -/
def Dev.grantOf (d : Dev) (k ch : Nat) : Nat := if ch = 0 then d.inCells else if (ch = 1 ∨ ch = 3) ∧ d.role k = 1 then 64 else 0

/-- CREDIT: the new tag allowance applies (R143), counters start at 0, and CREDIT_INIT goes out. [DESIGN CHOICE: log 135] -/
def Dev.enterCredit (d : Dev) (k : Nat) : Dev :=
  let l := d.link k
  let chans : Tab Chan := (List.range 5).map (fun ch => (ch, { Chan.reset with granted := d.grantOf k ch }))
  let d := d.setLink k { l with state := .credit, enteredCue := d.tb.cueCount, tags := d.regFld (GL_LINK_CFG + 8 * k) 6 14, chans := chans, rx := [] }
  d.sendCtrl k 2 ((List.range 5).flatMap (fun ch => leBytes 2 (d.grantOf k ch)))

/-! ### Authentication (R504) -/

/-- KEYX to the peer: K_TX, IVP and the peer's nonce under the key of its certificate, of which the model keeps only that it is that of
link k's peer. [DESIGN CHOICE: log 135] -/
def Dev.sendKeyx (d : Dev) (k : Nat) : Dev :=
  let a := d.auth k
  let x := d.nextFree
  x.1.sendCtrl k 4 (slice (Config.oaepSeal [BitVec.ofNat 8 k] (linkKey k ++ leBytes 8 a.ivp ++ a.peerNonce) x.2) 0 384)

/-- The message that the device waits to have answered is sent (again). -/
def Dev.authSend (d : Dev) (k : Nat) : Dev :=
  let a := d.auth k
  let d := d.setAuth k { a with lastSend := d.tb.cueCount }
  if !a.certOk then d.emit (.spdm (.link k) 0x82 [])
  else if !a.challengeOk then d.emit (.spdm (.link k) 0x83 a.nonce)
  else if a.keyxSent then d.sendKeyx k
  else d

/-- Once the peer's response is verified and its nonce known, KEYX goes out; with the peer's KEYX accepted too, the link is authenticated.
[DEDUCED: log 136] -/
def Dev.authNext (d : Dev) (k : Nat) : Dev :=
  let a := d.auth k
  let d := if a.challengeOk ∧ a.peerNonce ≠ [] ∧ !a.keyxSent then (d.setAuth k { a with keyxSent := true, sends := 0 }).authSend k else d
  if (d.auth k).keyxSent ∧ (d.auth k).keyxOk then d.enterCredit k else d

/-- AUTH. A device without an identity starts nothing, and the time limit ends the state (R497). -/
def Dev.enterAuth (d : Dev) (k : Nat) : Dev :=
  let x := d.draw 16
  let y := x.1.draw 8
  let d := ((y.1.enterState k .auth).setSecLink k 1).setAuth k { Auth.reset with nonce := x.2, ivp := leNat y.2 }
  if d.sec.idOk then d.authSend k else d

/-- The role conditions of R529. -/
def Dev.peerFits (d : Dev) (role : Nat) (m : IdentMsg) : Bool :=
  match role with
  | 1 => m.kind == 0
  | 2 => m.kind == 1
  | 3 => m.kind == 2 && m.role == 3 && m.devid != d.devId && m.devid != 0xFFF
  | _ => m.kind == 2 && m.role == 4 && m.devid == d.partner

/-- IDENT from the peer (R529). -/
def Dev.ident (d : Dev) (k : Nat) (m : IdentMsg) : Dev :=
  let l := d.link k
  if l.state ≠ .ident then d
  else
    let role := d.role k
    let d := d.setLink k { l with peerDev := m.devid % 4096, peerKind := m.kind % 4, peerInst := m.instanceId }
    if m.enc ≠ d.linkEnc k ∨ (3 ≤ role ∧ d.devId = 0xFFF) then d.linkDown k (some 2)
    else if !d.peerFits role m then d.linkDown k (some 3)
    else if d.linkEnc k then d.enterAuth k
    else d.enterCredit k

/-- A peer's SPDM response in AUTH; ok says that it verified: a chain that ends at an anchor for the role (R500), a signature over the
device's nonce. [DEDUCED: log 136] -/
def Dev.authResponse (d : Dev) (k code : Nat) (ok : Bool) : Dev :=
  let a := d.auth k
  let want := if !a.certOk then 0x02 else 0x03
  if (d.link k).state ≠ .auth ∨ !d.sec.idOk ∨ a.challengeOk then d
  else if code = 0x7F ∨ (code = want ∧ !ok) then d.authFail k
  else if code ≠ want then d
  else if !a.certOk then (d.setAuth k { a with certOk := true, sends := 0 }).authSend k
  else (d.setAuth k { a with challengeOk := true, sends := 0 }).authNext k

/-- KEYX from the peer: accepted if it unwraps and carries the device's own nonce. A peer that repeats it has not had the device's own.
[DESIGN CHOICE: log 135] -/
def Dev.keyx (d : Dev) (k : Nat) (payload : Bytes) : Dev :=
  let a := d.auth k
  if !d.sec.idOk then d
  else match (d.link k).state with
  | .auth =>
    (match Config.oaepOpen rootKey payload with
     | some body =>
       if body.length = 56 ∧ body.drop 40 = a.nonce then
         (d.setAuth k { a with keyxOk := true, peerKey := body.take 32, peerIvp := leAt body 32 8 }).authNext k
       else d.authFail k
     | none => d.authFail k)
  | .credit => if a.keyxSent then d.sendKeyx k else d
  | _ => d

/-- AUTH_RESEND: 8 cues without an answer; after 3 resends AUTH fails. [DEDUCED: log 136] -/
def Dev.authResend (d : Dev) (k : Nat) : Dev :=
  let a := d.auth k
  let waits := !a.challengeOk || a.keyxSent
  if (d.link k).state ≠ .auth ∨ !d.sec.idOk ∨ !waits ∨ d.tb.cueCount < a.lastSend + 8 then d
  else if 3 ≤ a.sends then d.authFail k
  else (d.setAuth k { a with sends := a.sends + 1 }).authSend k

/-! ### UP -/

/-- Discards tag records and replay data of a link (R143, R530), and with all of them the periods of its streams (R128). -/
def Dev.dropTags (d : Dev) (k : Nat) (all : Bool) (gone : Nat → Bool) : Dev :=
  { d with txn := { d.txn with
      tags := d.txn.tags.filter (fun (e : Nat × TagRec) => !(e.1 / 8192 == k && gone (e.1 % 8192)))
      replay := d.txn.replay.filter (fun e => !(e.1 == k && gone e.2.1))
      src := if all then d.txn.src.filter (fun e => e.1 / 256 != k) else d.txn.src } }

/-- CREDIT_INIT: the peer's grants, and UP. -/
def Dev.creditInit (d : Dev) (k : Nat) (grants : List Nat) : Dev :=
  let l := d.link k
  if l.state ≠ .credit then d
  else
    let who := (l.peerKind, l.peerDev, l.peerInst, d.role k)
    let d := (List.range 5).foldl (fun (d : Dev) ch => d.setChan k ch { d.chan k ch with txGrant := grants.getD ch 0 }) d
    let d := d.dropTags k (l.known != some who) (fun t => l.known != some who || l.tags ≤ t)
    let d := d.setLink k { d.link k with state := .up, enteredCue := d.tb.cueCount, lastFlit := d.tb.cueCount, known := some who }
    let d := d.setSecLink k (if d.linkEnc k then 2 else 0)
    { d with coh := { d.coh with everUp := (List.range 16).foldl (fun t n =>
        if d.regFld (GL_CA_CFG + 8 * n) 0 1 = 1 ∧ k ∈ d.caLinks n then Tab.set false t n true else t) d.coh.everUp } }

/-- Time limits of the training states, in cues. -/
def trainLimit : LinkState → Nat
  | .phy => 2000000 | .ident => 4000 | .auth => 8000000 | .credit => 4000 | _ => 0

/-- TRAINING_TIMEOUT. -/
def Dev.trainingTimeout (d : Dev) (k : Nat) : Dev :=
  let l := d.link k
  if l.state = .down ∨ l.state = .up ∨ d.tb.cueCount < l.enteredCue + trainLimit l.state then d else d.linkFails k

/-- LINK_RETRY: 10 ms after the last failure. -/
def Dev.linkRetry (d : Dev) (k : Nat) : Dev := if (d.link k).failCue + 40000 ≤ d.tb.cueCount then d.tryTrain k else d

/-- LINK_IDLE_TIMEOUT: 16 cues without a flit. -/
def Dev.linkIdle (d : Dev) (k : Nat) : Dev := if d.isUp k ∧ (d.link k).lastFlit + 16 ≤ d.tb.cueCount then d.linkFails k else d

/-! ## Configuration (R541) -/

/-- Retired lanes of a link go to RETEST (R532). -/
def Dev.retestLanes (d : Dev) (k : Nat) : Dev :=
  (List.range 8).foldl (fun (d : Dev) i =>
    let c := d.calInfo 1 (8 * k + i)
    if c.state = .retired then d.setCalInfo 1 (8 * k + i) { c with state := .retest, runs := 0, passes := 0 } else d) d

/-- A write of GL_LINK_CFG_k. -/
def Dev.writeLinkCfg (d : Dev) (k v : Nat) : Dev :=
  let off := GL_LINK_CFG + 8 * k
  let v := v % 2 ^ 20
  let old := d.reg off
  let others := (((List.range 36).filter (· ≠ k)).map (fun j => d.regFld (GL_LINK_CFG + 8 * j) 6 14)).sum
  if 36 ≤ k then d
  else if 5 ≤ fld v 1 3 ∨ fld v 4 2 = 3 ∨ 8192 < fld v 6 14 ∨ 221184 < others + fld v 6 14 then d.setRegBit GL_EVT 36
  else
    let kept := v / 2 ≠ old / 2 ∧ (d.link k).state ≠ .down
    let new := if kept then old / 2 * 2 + v % 2 else v
    let d := if kept then d.setRegBit GL_EVT 36 else d
    let d := d.putReg off new
    let d := if fld new 1 3 = fld old 1 3 then d else d.setLink k { d.link k with known := none }
    if v % 2 = 0 then
      let d := if d.isUp k then d.sendDown k 0 else d
      let d := d.linkDown k none
      d.setLink k { d.link k with laneFail := false }
    else if old % 2 = 0 then (d.retestLanes k).tryTrain k
    else if fld old 1 3 = 0 then d.tryTrain k
    else d

/-! ## Flits (R520 to R527) -/

/-- Bytes of a message in its slots, from its header. -/
def messageBytes (role ch : Nat) (hdr : Bytes) : Nat :=
  let h := leAt hdr 0 16
  let n := if ch ≠ 0 then 16 + 128 * fld h 49 1
    else if role = 4 then 16 + fld h 40 13
    else
      let len := fld h 46 13
      match fld h 0 4 with
      | 0 => 16
      | 2 => 40 + len
      | 4 => 16 + 8 * fld h 80 3 + len
      | 5 => 32 + len
      | 6 => 16
      | 7 => (if role = 3 then 32 else 16) + len
      | 8 => (if role = 3 then 32 else 16) + len
      | _ => 16 + len
  ceilDiv n 16 * 16

/-- Cuts the bytes of a channel into messages; flits counts those that belong to the first one. What is left over is a partial message. The
number bounds the messages. -/
def cutMessages (role ch : Nat) : Nat → Nat → Bytes → List (Nat × Bytes) × Nat × Bytes
  | 0, flits, bs => ([], flits, bs)
  | n + 1, flits, bs =>
    if bs = [] then ([], flits, bs)
    else
      let len := messageBytes role ch bs
      if bs.length < len then ([], flits, bs)
      else
        let y := cutMessages role ch n 0 (bs.drop len)
        ((flits, bs.take len) :: y.1, y.2)

/-- Flits whose credit an assembled message holds: its cells at most (R526). -/
def heldFlits (ch flits bytes : Nat) : Nat := if ch = 0 then min flits (ceilDiv bytes 256) else flits

/-- The clear slots of an encrypted flit: none where its tag fails. [PRESUMED: log 134] -/
def openFlit (a : Auth) (cnt ch : Nat) (bs : Bytes) : Option Bytes :=
  let iv := flitIv a.peerIvp cnt ch
  let ct := slice bs 8 224
  if gcmTag a.peerKey iv (bs.take 8) ct = slice bs 232 16 then some (gcmCrypt a.peerKey iv ct) else none

/-- Slots of a DATA flit join their channel. A gap discards the partial message and the receiver resumes at FIRST. [DEDUCED: log 133] -/
def Dev.joinSlots (d : Dev) (k ch cnt first used : Nat) (slots : Bytes) : Dev :=
  let c := d.chan k ch
  let gap := cnt - c.rxSeq
  let old : Bytes := if gap = 0 then c.partialMsg else []
  let oldFlits := if gap = 0 then c.partFlits else 0
  let freed := c.rxFreed + gap + (c.partFlits - oldFlits)
  let rest := messageBytes (d.role k) ch old - old.length
  let expect := if old = [] then 0 else if rest / 16 < used then rest / 16 else 15
  if gap = 0 ∧ first ≠ expect then d.protocolError k
  else if gap ≠ 0 ∧ first = 15 then d.setChan k ch { c with rxSeq := cnt + 1, partialMsg := [], partFlits := 0, rxFreed := freed + 1 }
  else
    let bs := if gap = 0 then old ++ slots.take (used * 16) else (slots.take (used * 16)).drop (first * 16)
    let y := cutMessages (d.role k) ch (bs.length / 16 + 1) (oldFlits + 1) bs
    let done : List (Nat × Nat × Bytes) := y.1.map (fun m => (ch, heldFlits ch m.1 m.2.length, m.2))
    let free := (y.1.map (fun m => m.1 - heldFlits ch m.1 m.2.length)).sum + (if y.2.2 = [] then y.2.1 else 0)
    let d := d.setChan k ch { c with rxSeq := cnt + 1, partialMsg := y.2.2, partFlits := if y.2.2 = [] then 0 else y.2.1, rxFreed := freed + free }
    d.setLink k { d.link k with rx := (d.link k).rx ++ done }

/-- A DATA flit on a link that is up. [DEDUCED: log 133] -/
def Dev.dataFlit (d : Dev) (k h : Nat) (bs : Bytes) : Dev :=
  let ch := fld h 2 3
  let used := fld h 39 4
  let first := fld h 35 4
  let enc := d.linkEnc k
  let c := d.chan k ch
  let ahead := (fld h 5 12 + 4096 - c.rxSeq % 4096) % 4096
  let cnt := c.rxSeq + ahead
  if 5 ≤ ch ∨ c.granted = 0 ∨ used = 0 ∨ (enc ∧ used = 15) ∨ (first ≠ 15 ∧ used ≤ first) ∨ fld h 43 1 ≠ b2n enc then d.protocolError k
  else if 2048 ≤ ahead then d.bump (GL_FLIT_DROP_CNT + 8 * k)
  else if c.rxFreed + c.granted ≤ cnt then d.protocolError k
  else if enc then
    match openFlit (d.auth k) cnt ch bs with
    | some slots => d.joinSlots k ch cnt first used slots
    | none => (d.bump (GL_TAG_FAIL_CNT + 8 * k)).bump (GL_FLIT_DROP_CNT + 8 * k)
  else d.joinSlots k ch cnt first used (slice bs 8 240)

/-- A credit return (R525): none where it is a protocol error. -/
def Dev.creditReturn (d : Dev) (k ch cnt : Nat) : Option Dev :=
  if 5 ≤ ch then some d
  else
    let c := d.chan k ch
    if (cnt + 32768 - c.txAck) % 32768 ≤ c.txGrant then
      some ((d.setChan k ch { c with txAck := cnt }).drainTx k ch (c.txSlots.length + 1))
    else none

/-- A flit that passed its CRC. [DEDUCED: log 133] -/
def Dev.goodFlit (d : Dev) (k h : Nat) (bs : Bytes) : Dev :=
  let t := fld h 0 2
  if t = 3 ∨ fld h 44 20 ≠ 0 ∨ fld h 17 3 = 5 ∨ fld h 17 3 = 6 ∨ (t ≠ 1 ∧ fld h 2 15 ≠ 0) then d.protocolError k
  else
    match (if d.isUp k then d.creditReturn k (fld h 17 3) (fld h 20 15) else some d) with
    | none => d.protocolError k
    | some d =>
      if t = 2 then (if 1 ≤ leAt bs 8 2 ∧ leAt bs 8 2 ≤ 5 then d else d.protocolError k)
      else if t = 1 ∧ d.isUp k then d.dataFlit k h bs
      else d

/-- FLIT: FEC, CRC, and what the flit holds. [DEDUCED: log 133] -/
def Dev.flit (d : Dev) (k : Nat) (bs : Bytes) (corrected bad : Bool) : Dev :=
  if (d.link k).state = .down then d
  else
    let d := d.setLink k { d.link k with lastFlit := d.tb.cueCount }
    let d := if corrected then d.bump (GL_CW_CE_CNT + 8 * k) else d
    if bad then
      let d := (d.bump (GL_CW_UE_CNT + 8 * k)).bump (GL_FLIT_DROP_CNT + 8 * k)
      let n := (d.link k).cwBadWin + 1
      let d := d.setLink k { d.link k with cwBadWin := n }
      if 1024 < n ∧ d.isUp k then d.linkFails k else d
    else if bs.length ≠ 256 ∨ crc64xz (bs.take 248) ≠ leAt bs 248 8 then d.bump (GL_FLIT_DROP_CNT + 8 * k)
    else d.goodFlit k (leAt bs 0 8) bs

/-- DATA flits that a packet takes on a link. -/
def Dev.flitsFor (d : Dev) (k bytes : Nat) : Nat := ceilDiv (ceilDiv bytes 16) (d.flitSlots k)

/-- LINK_TRANSMIT: the next packet leaves in flits where no message before it waits and the peer's credits for TXN allow them all (R213,
R524); requests that wait for answer cells go on. -/
def Dev.linkTransmit (d : Dev) (k : Nat) : Dev :=
  match (if d.isUp k then (d.egress k).2 else none) with
  | none => d
  | some (_, p) =>
    let c := d.chan k 0
    if c.txSlots ≠ [] ∨ c.txGrant < (c.txSeq + 32768 - c.txAck) % 32768 + d.flitsFor k (wireBytes p.wire) then d
    else (d.transmit k).resumeAll handlers

/-! ## The commands -/

def execFlit (link : Nat) (bytes : Bytes) (cwCorrected cwBad : Bool) (s : State) : Host.Outcome State Fault Refusal :=
  s.run (·.flit link bytes cwCorrected cwBad)
def execIdent (link : Nat) (m : IdentMsg) (s : State) : Host.Outcome State Fault Refusal := s.run (·.ident link m)
def execCreditInit (link : Nat) (grants : List Nat) (s : State) : Host.Outcome State Fault Refusal := s.run (·.creditInit link grants)

/-- The peer's DOWN message (R530). -/
def execDownMessage (link _reason : Nat) (s : State) : Host.Outcome State Fault Refusal := s.run (·.linkFails link)
def execPhyLocked (link : Nat) (s : State) : Host.Outcome State Fault Refusal := s.run (·.phyLocked link)
def execTrainingTimeout (link : Nat) (s : State) : Host.Outcome State Fault Refusal := s.run (·.trainingTimeout link)
def execLinkRetry (link : Nat) (s : State) : Host.Outcome State Fault Refusal := s.run (·.linkRetry link)
def execLinkIdleTimeout (link : Nat) (s : State) : Host.Outcome State Fault Refusal := s.run (·.linkIdle link)

/-- Deskew is lost (R530). -/
def execDeskewLoss (link : Nat) (s : State) : Host.Outcome State Fault Refusal := s.run (·.linkFails link)
def execGlLinkCfgWrite (k : Nat) (v : Word) (s : State) : Host.Outcome State Fault Refusal := s.run (·.writeLinkCfg k v.toNat)
def execKeyx (link : Nat) (payload : Bytes) (s : State) : Host.Outcome State Fault Refusal := s.run (·.keyx link payload)
def execAuthResend (link : Nat) (s : State) : Host.Outcome State Fault Refusal := s.run (·.authResend link)
def execLinkTransmit (link : Nat) (s : State) : Host.Outcome State Fault Refusal := s.run (·.linkTransmit link)

end Sys2Proof.Machine
end

