-- ==== Sys2Proof/Machine/Security.lean ====
section
/-! DEFINITION. Tenants, confidential mode, ranges and streams (R509 to R517), the SPDM responder with its measurements (R506 to R508),
and the TAP (R513). -/

namespace Sys2Proof.Machine

/-! ## Tenants (R501, R517) -/

/-- A SEC_ write that is ignored. -/
def Dev.secCfgErr (d : Dev) : Dev := d.setRegBit SEC_EVT 0

/-- Whether a partition's tenant ID may not change. -/
def Dev.tenantLocked (d : Dev) (p : Nat) : Bool := d.isConf p || [0, 1, 2].any (fun t => d.charge p t != 0) || d.sesUsed p != 0

/-- A write of SEC_TENANT_LO_p or SEC_TENANT_HI_p; the latter derives the keys of the partition. -/
def Dev.writeTenant (d : Dev) (p : Nat) (hi : Bool) (v : Nat) : Dev :=
  if 16 ≤ p then d
  else if d.tenantLocked p then d.secCfgErr
  else if hi then (d.putReg (SEC_TENANT_HI + 16 * p) v).deriveKeys p
  else d.putReg (SEC_TENANT_LO + 16 * p) v

/-! ## Confidential mode (R512, R513) -/

/-- A write of SEC_CONF_p: stages a change where REQ differs from ACTIVE, and withdraws one where it does not. -/
def Dev.writeConf (d : Dev) (p v : Nat) : Dev :=
  let off := SEC_CONF + 8 * p
  if 16 ≤ p then d
  else if fld v 3 2 = 3 then d.secCfgErr
  else
    let rej := if fld v 5 1 = 1 then 0 else d.regFld off 5 1
    let d := d.putReg off (fld v 0 1 + fld v 3 2 * 8 + rej * 32)
    let bits := d.sec.pending.toNat
    let staged := (fld v 0 1 == 1) != d.isConf p
    { d with sec := { d.sec with pending := BitVec.ofNat 16 (if staged then setBit bits p else clrBit bits p) } }

/-- Whether a link that carries a stream of a partition also carries one of another. -/
def Dev.sharesLink (d : Dev) (p : Nat) : Bool :=
  (List.range 36).any (fun k => d.linkCarries k p && (List.range 256).any (fun s => match d.streamPart k s with
    | some q => q != p
    | none => false))

/-- Whether a fixed range belongs to a partition. -/
def Dev.hasRange (d : Dev) (p : Nat) : Bool :=
  (List.range 64).any (fun n => d.regFld (SEC_RANGE + 8 * n) 0 1 == 1 && d.regFld (SEC_RANGE + 8 * n) 2 4 == p)

/-- Whether an entry of partition p into confidential mode is accepted. -/
def Dev.entryOk (d : Dev) (p : Nat) : Bool :=
  let sum := ((List.range 16).map (fun q => if d.isConf q then Tab.get 0 d.sec.topk q else 0)).sum
  d.sec.idOk && d.reserveOf p 0 == d.quota p 0 && d.reserveOf p 1 == d.quota p 1 && !d.sharesLink p &&
    sum + d.regFld (SEC_CONF + 8 * p) 3 2 ≤ 4

/-- Whether an exit is accepted. -/
def Dev.exitOk (d : Dev) (p : Nat) : Bool := !d.hasRange p && d.charge p 0 == 0 && d.charge p 1 == 0

/-- The staged change of a partition is no longer staged. -/
def Dev.unstage (d : Dev) (p : Nat) : Dev := { d with sec := { d.sec with pending := BitVec.ofNat 16 (clrBit d.sec.pending.toNat p) } }

/-- A rejected change: REQ returns to ACTIVE. -/
def Dev.confReject (d : Dev) (p : Nat) : Dev :=
  let off := SEC_CONF + 8 * p
  let d := d.putReg off (setFld (setBit (d.reg off) 5) 0 1 (b2n (d.isConf p)))
  (d.setRegBit SEC_EVT 1).unstage p

/-- TAP instructions that stay accepted in confidential mode: the mandatory ones of IEEE 1149.1 and IDCODE. [DESIGN CHOICE: log 139] -/
def tapAllowed (ir : Nat) : Bool := ir ≤ 4

/-- Partition p enters confidential mode, or not. -/
def Dev.confEnter (d : Dev) (p : Nat) : Dev :=
  if d.entryOk p then
    let d := d.unstage p
    { d with sec := { d.sec with
        conf := BitVec.ofNat 16 (setBit d.sec.conf.toNat p), topk := Tab.set 0 d.sec.topk p (d.regFld (SEC_CONF + 8 * p) 3 2)
        tapIr := if tapAllowed d.sec.tapIr then d.sec.tapIr else 0 } }
  else d.confReject p

/-- Partition p leaves confidential mode, or not. -/
def Dev.confLeave (d : Dev) (p : Nat) : Dev :=
  if d.exitOk p then
    let d := d.unstage p
    { d with sec := { d.sec with conf := BitVec.ofNat 16 (clrBit d.sec.conf.toNat p), topk := Tab.erase d.sec.topk p } }
  else d.confReject p

/-- Step 1 of R47: exits, in increasing partition number. -/
def Dev.confExits (d : Dev) : Dev :=
  ((List.range 16).filter (fun p => bitAt d.sec.pending.toNat p && d.isConf p)).foldl (fun (d : Dev) p => d.confLeave p) d

/-- Step 3 of R47: entries, in increasing partition number. -/
def Dev.confEntries (d : Dev) : Dev :=
  ((List.range 16).filter (fun p => bitAt d.sec.pending.toNat p && !d.isConf p)).foldl (fun (d : Dev) p => d.confEnter p) d

/-- TAP_INSTRUCTION: while a partition is confidential every other instruction acts as BYPASS. [DESIGN CHOICE: log 139] -/
def Dev.tapLoad (d : Dev) (ir : Nat) : Dev :=
  { d with sec := { d.sec with tapIr := if d.sec.conf ≠ 0 ∧ !tapAllowed ir then 0 else ir } }

/-! ## Ranges and streams (R509, R517) -/

/-- Frames of a space: 0 NEAR, 1 STRATUM. -/
def rangeFrames (space : Nat) : Nat := if space = 0 then 15360 else 294912

/-- Whether two runs of frames overlap. -/
def runsMeet (a n b m : Nat) : Bool := a < b + m && b < a + n

/-- Whether an enabled range is one that R509 rejects. -/
def Dev.rangeBad (d : Dev) (n v : Nat) : Bool :=
  let space := fld v 1 1
  let first := fld v 6 19
  let cnt := fld v 25 19
  let pool := d.reg (if space = 0 then VER_POOL_N else VER_POOL_S)
  let poolFirst := if space = 0 then fld pool 0 14 else fld pool 0 19
  let poolCnt := if space = 0 then fld pool 14 14 else fld pool 19 19
  cnt == 0 || rangeFrames space < first + cnt ||
    ((List.range 64).any (fun m =>
      let o := d.reg (SEC_RANGE + 8 * m)
      m != n && fld o 0 1 == 1 && fld o 1 1 == space && runsMeet first cnt (fld o 6 19) (fld o 25 19))) ||
    runsMeet first cnt poolFirst poolCnt || (space == 0 && runsMeet first cnt 15352 8)

/-- A write of SEC_RANGE_n. -/
def Dev.writeRange (d : Dev) (n v : Nat) : Dev :=
  let off := SEC_RANGE + 8 * n
  let v := v % 2 ^ 44
  let old := d.reg off
  if 64 ≤ n then d
  else if d.isConf (fld v 2 4) ∨ (fld old 0 1 = 1 ∧ d.isConf (fld old 2 4)) then d.secCfgErr
  else if fld v 0 1 = 1 ∧ d.rangeBad n v then d.secCfgErr
  else d.putReg off v

/-- The mapping that byte i of a SEC_STRM register gives its stream. -/
def strmPart (v i : Nat) : Option Nat := if fld v (8 * i + 4) 1 = 1 then some (fld v (8 * i) 4) else none

/-- A write of SEC_STRM_k_j: ignored where it would map a stream of a link that carries a confidential partition's streams to another
partition, or remap a stream of a confidential partition. -/
def Dev.writeStrm (d : Dev) (k j v : Nat) : Dev :=
  let off := SEC_STRM + 256 * k + 8 * j
  let v := v &&& 0x1F1F1F1F1F1F1F1F
  let old := d.reg off
  let held := (List.range 16).filter (fun p => d.isConf p && d.linkCarries k p)
  let bad := (List.range 8).any (fun i =>
    let a := strmPart old i
    let b := strmPart v i
    a != b && (a.any d.isConf || (held != [] && b.any (fun q => !(q ∈ held)))))
  if 36 ≤ k ∨ 32 ≤ j then d else if bad then d.secCfgErr else d.putReg off v

/-! ## SPDM (R506 to R508) -/

/-- Whether the device answers SPDM there: the DOE mailbox, a PAIR link that is up, a link in AUTH. -/
def Dev.spdmHeard (d : Dev) (src : SpdmSrc) : Bool :=
  match src with
  | .doe => true
  | .link k => (d.link k).state == .auth || (d.isUp k && d.role k == 4 && d.pairRuns)

/-- A message on a PAIR link that is up was the next frame of the control stream (R417): it is acknowledged. [DESIGN CHOICE: log 116] -/
def Dev.spdmTaken (d : Dev) (src : SpdmSrc) : Dev :=
  match src with
  | .doe => d
  | .link k =>
    if d.isUp k then
      let e := Tab.get 0 d.pair.rxSeq ctrlStream
      ({ d with pair := { d.pair with rxSeq := Tab.set 0 d.pair.rxSeq ctrlStream ((e + 1) % 2 ^ 32) } } : Dev).sendMack k ctrlStream e
    else d

/-- Sends an SPDM message: its code, and what follows the code. On a PAIR link that is up it is a frame of PTYPE 7. [DESIGN CHOICE: log 116] -/
def Dev.spdmSend (d : Dev) (src : SpdmSrc) (code : Nat) (body : Bytes) : Dev :=
  match src with
  | .doe => d.emit (.spdm src code body)
  | .link k => if d.isUp k then d.pairSend ctrlStream 7 0 (BitVec.ofNat 8 code :: body) else d.emit (.spdm src code body)

/-- An SPDM ERROR: its code. -/
def Dev.spdmError (d : Dev) (src : SpdmSrc) (code : Nat) : Dev := d.spdmSend src 0x7F [BitVec.ofNat 8 code]

/-- An SPDM request. A device without an identity answers ERROR, with a code that the manual leaves open (R497). -/
def Dev.spdmRequest (d : Dev) (src : SpdmSrc) (body : Dev → Dev) : Dev :=
  if !d.spdmHeard src then d
  else
    let d := d.spdmTaken src
    if d.sec.idOk then body d
    else
      let x := d.nextFree
      x.1.spdmError src ((Config.free64 x.2).toNat % 256)

/-- The identity's certificate chain, and its digest. -/
def certChain : Bytes := Config.flash 0
def chainDigest : Bytes := sha256 certChain

/-- What the device signs for a request, and the signature: 384 B over the requester's nonce and the response. -/
def Dev.signed (d : Dev) (nonce body : Bytes) : Dev × Bytes :=
  let x := d.nextFree
  (x.1, body ++ slice (Config.sign rootKey (nonce ++ body) x.2) 0 384)

/-- CHALLENGE. In AUTH it carries the nonce that the device's KEYX returns (R504). [PRESUMED: log 137] -/
def Dev.spdmChallenge (d : Dev) (src : SpdmSrc) (nonce : Bytes) : Dev :=
  let x := d.draw 32
  let y := x.1.signed nonce (chainDigest ++ x.2 ++ zeros 2)
  let d := y.1.spdmSend src 0x03 y.2
  match src with
  | .doe => d
  | .link k =>
    if (d.link k).state = .auth then (d.setAuth k { d.auth k with peerNonce := slice nonce 0 16 }).authNext k else d

/-- State codes of the pair, for measurement 4. [DESIGN CHOICE: log 138] -/
def Dev.deviceState (d : Dev) : Bytes :=
  [BitVec.ofNat 8 (b2n d.sec.idOk), BitVec.ofNat 8 (b2n (d.sec.conf != 0))] ++ leBytes 2 d.sec.conf.toNat ++ [BitVec.ofNat 8 (pairStateCode d.pair.state)]

/-- SEC_RANGE_n registers of a partition, and the SEC_STRM_k_j registers that map some stream to it, in address order. -/
def Dev.boundaryWords (d : Dev) (p : Nat) : List Nat :=
  ((List.range 64).map (fun n => d.reg (SEC_RANGE + 8 * n))).filter (fun v => fld v 0 1 == 1 && fld v 2 4 == p) ++
  ((List.range 1152).map (fun i => d.reg (SEC_STRM + 8 * i))).filter (fun v => (List.range 8).any (fun i => strmPart v i == some p))

/-- Measurement 16 + p. -/
def Dev.partState (d : Dev) (p : Nat) : Bytes :=
  [BitVec.ofNat 8 (b2n (d.isConf p)), BitVec.ofNat 8 (Tab.get 0 d.cue.shares p)] ++
    leBytes 8 (d.reg (VER_QN + 8 * p)) ++ leBytes 8 (d.reg (VER_QS + 8 * p)) ++ leBytes 8 (d.reg (VER_QP + 8 * p)) ++
    [BitVec.ofNat 8 (d.regFld POL_PRIV p 1)] ++ d.tenant p ++ sha256 ((d.boundaryWords p).flatMap (leBytes 8))

/-- Measurement 32 + p: the digests of the bundles in slot order. -/
def Dev.bundleDigests (d : Dev) (p : Nat) : Bytes :=
  (List.range 16).flatMap (fun s => match d.thr.bundles.find? (fun b => b.live && b.part == p && b.slot == s) with
    | some b => slice b.digest 0 32
    | none => zeros 32)

/-- The device as measurements show it: as it was at the last cue boundary (R508). [DEDUCED: log 206] -/
def Dev.measured (d : Dev) : Dev :=
  let m := d.sec.seen
  { d with csr := m.csr, sec := { d.sec with conf := m.conf }, pair := { d.pair with state := m.pair }, cue := { d.cue with shares := m.shares },
           thr := { d.thr with bundles := m.bundles } }

/-- A measurement: whether it is a digest, and its content. [DESIGN CHOICE: log 138] -/
def Dev.measurement (d : Dev) (i : Nat) : Option (Bool × Bytes) :=
  match i with
  | 1 => some (true, slice (Config.flash 1) 0 32)
  | 2 => some (false, slice (Config.flash (2 + d.sec.fwSlot % 2)) 0 32 ++ [BitVec.ofNat 8 d.sec.fwSlot] ++ leBytes 2 d.sec.fwSvn)
  | 3 => some (true, slice (Config.flash 4) 0 32)
  | 4 => some (false, d.deviceState)
  | _ => if 16 ≤ i ∧ i < 32 then some (false, d.partState (i - 16)) else if 32 ≤ i ∧ i < 48 then some (false, d.bundleDigests (i - 32)) else none

/-- A measurement block: index, DMTF specification, sizes, type (bit 7: raw) and content. [DESIGN CHOICE: log 138] -/
def measBlock (i : Nat) (m : Bool × Bytes) : Bytes :=
  [BitVec.ofNat 8 i, 1] ++ leBytes 2 (m.2.length + 3) ++ [if m.1 then 0x00 else 0x80] ++ leBytes 2 m.2.length ++ m.2

/-- The indices of all measurements. -/
def measIndices : List Nat := [1, 2, 3, 4] ++ (List.range 32).map (· + 16)

/-- GET_MEASUREMENTS: index 0 asks for their number, 0xFF for all. The response shows the state at the cue boundary of the request. -/
def Dev.spdmMeasure (d : Dev) (src : SpdmSrc) (nonce : Bytes) (index : Nat) : Dev :=
  let answer := fun (d : Dev) (n : Nat) (blocks : Nat) (rec' : Bytes) =>
    let x := d.draw 32
    let y := x.1.signed nonce ([BitVec.ofNat 8 n, BitVec.ofNat 8 blocks] ++ leBytes 3 rec'.length ++ rec' ++ x.2 ++ zeros 2)
    y.1.spdmSend src 0x60 y.2
  if index = 0 then answer d measIndices.length 0 []
  else if index = 0xFF then
    answer d 0 measIndices.length (measIndices.flatMap (fun i => ((d.measured.measurement i).map (measBlock i)).getD []))
  else match d.measured.measurement index with
    | some m => answer d 0 1 (measBlock index m)
    | none => d.spdmError src 0x01

/-- GET_CERTIFICATE: a portion of the chain, and how much remains. [PRESUMED: log 137] -/
def Dev.spdmCertificate (d : Dev) (src : SpdmSrc) (offset len : Nat) : Dev :=
  let n := certChain.length
  if n < offset then d.spdmError src 0x01
  else
    let m := min len (n - offset)
    d.spdmSend src 0x02 (leBytes 2 m ++ leBytes 2 (n - offset - m) ++ slice certChain offset m)

/-- CAPABILITIES: the response time exponent and message sizes are the implementation's. CERT, CHAL and MEAS with signatures. [PRESUMED: log 137] -/
def Dev.spdmCapabilities (d : Dev) (src : SpdmSrc) : Dev :=
  let x := d.nextFree
  let y := x.1.nextFree
  y.1.spdmSend src 0x61 ([BitVec.ofNat 8 ((Config.free64 x.2).toNat % 256)] ++ leBytes 4 0x16 ++ leBytes 8 (Config.free64 y.2).toNat)

/-- ALGORITHMS: DMTF measurements, SHA-256, and one of RSASSA-3072 and RSAPSS-3072. [PRESUMED: log 137] -/
def Dev.spdmAlgorithms (d : Dev) (src : SpdmSrc) : Dev :=
  let x := d.nextFree
  x.1.spdmSend src 0x63 ([1] ++ leBytes 4 2 ++ leBytes 4 (if (Config.free64 x.2).toNat % 2 = 0 then 4 else 8) ++ leBytes 4 1)

/-- A response arrives: one in AUTH is verified; one on a PAIR link that is up is a frame of the control stream, whose outcome the
admission step tells (R435). -/
def Dev.spdmAnswer (d : Dev) (k code : Nat) (ok : Bool) : Dev :=
  if d.isUp k ∧ d.role k = 4 ∧ d.pairRuns then d.spdmTaken (.link k) else d.authResponse k code ok

/-! ## The commands -/

def execSecTenantWrite (p : Nat) (hi : Bool) (v : Word) (s : State) : Host.Outcome State Fault Refusal := s.run (·.writeTenant p hi v.toNat)
def execSecConfWrite (p : Nat) (v : Word) (s : State) : Host.Outcome State Fault Refusal := s.run (·.writeConf p v.toNat)
def execSecRangeWrite (n : Nat) (v : Word) (s : State) : Host.Outcome State Fault Refusal := s.run (·.writeRange n v.toNat)
def execSecStrmWrite (k j : Nat) (v : Word) (s : State) : Host.Outcome State Fault Refusal := s.run (·.writeStrm k j v.toNat)

/-- VERSION: one entry, 1.2. -/
def execGetVersion (src : SpdmSrc) (s : State) : Host.Outcome State Fault Refusal :=
  s.run (·.spdmRequest src (·.spdmSend src 0x04 ([0, 1] ++ leBytes 2 0x1200)))
def execGetCapabilities (src : SpdmSrc) (s : State) : Host.Outcome State Fault Refusal := s.run (·.spdmRequest src (·.spdmCapabilities src))
def execNegotiateAlgorithms (src : SpdmSrc) (s : State) : Host.Outcome State Fault Refusal := s.run (·.spdmRequest src (·.spdmAlgorithms src))

/-- DIGESTS: slot 0. -/
def execGetDigests (src : SpdmSrc) (s : State) : Host.Outcome State Fault Refusal :=
  s.run (·.spdmRequest src (·.spdmSend src 0x01 ([1] ++ chainDigest)))
def execGetCertificate (src : SpdmSrc) (offset len : Nat) (s : State) : Host.Outcome State Fault Refusal :=
  s.run (·.spdmRequest src (·.spdmCertificate src offset len))
def execChallenge (src : SpdmSrc) (nonce : Bytes) (s : State) : Host.Outcome State Fault Refusal :=
  s.run (·.spdmRequest src (·.spdmChallenge src nonce))
def execGetMeasurements (src : SpdmSrc) (nonce : Bytes) (index : Nat) (s : State) : Host.Outcome State Fault Refusal :=
  s.run (·.spdmRequest src (·.spdmMeasure src nonce index))

/-- ERROR UnsupportedRequest, which names the request. -/
def execSpdmUnsupported (src : SpdmSrc) (code : BitVec 8) (s : State) : Host.Outcome State Fault Refusal :=
  s.run (·.spdmRequest src (·.spdmSend src 0x7F [0x07, code]))
def execSpdmResponse (link : Nat) (code : BitVec 8) (ok : Bool) (s : State) : Host.Outcome State Fault Refusal :=
  s.run (·.spdmAnswer link code.toNat ok)
def execTapInstruction (ir : Nat) (s : State) : Host.Outcome State Fault Refusal := s.run (·.tapLoad ir)

end Sys2Proof.Machine
end

