-- ==== Sys2Proof/Machine/Power.lean ====
section
/-! DEFINITION. Reset, bring-up, voltages, duties and temperatures (R542 to R558), the resets of R475, R476 and R550, the end of a calibration
run with what a retirement does (R532, R551), and the CXL port (R534 to R539). -/

namespace Sys2Proof.Machine

/-! ## Resets (R490, R543 to R546, R550) -/

/-- Everything but what outlives a reset: what has left the device, and the model's counter. INSTANCE is drawn. -/
def Dev.afresh (d : Dev) : Dev :=
  let x := d.nextFree
  { Dev.reset with
    out := d.out, freeIx := x.1.freeIx, mem := Mem.reset, pwr := { Pwr.reset with inst := Config.free64 x.2 } }

/-- RESET_N rises: ADDR is sampled and stage 0 begins. [DESIGN CHOICE: log 12; DEDUCED: log 127, 128] -/
def Dev.resetN (d : Dev) (addr : BitVec 3) : Dev :=
  let d := d.afresh
  { d with pwr := { d.pwr with strap := addr } }

/-- POWER_DOWN: nothing of the device is left. [DEDUCED: log 127] -/
def Dev.powerDown (d : Dev) : Dev := { Dev.reset with out := d.out, freeIx := d.freeIx, mem := Mem.reset, pwr := { Pwr.reset with powered := false } }

/-- Cells of the prompt book. -/
def inBook (a : Nat) : Bool := pbBase ≤ a && a < pbBase + 2 ^ 24

/-- The SEQ after the highest in the ring (R490): entries whose SEQ fits their position, by serial-number comparison. -/
def nextSeq (m : Mem) : Nat :=
  let places := (m.bytes.filter (fun c => inBook c.1)).foldl (fun (l : List Nat) c =>
    let i := (c.1 - pbBase) / 64
    if l.head? = some i then l else i :: l) []
  let seqs := (places.map (fun i => (i, leNat (m.bytesAt (pbBase + 64 * i + 8) 4)))).filter (fun e => e.2 % 262144 == e.1)
  match seqs with
  | [] => 0
  | e :: es => (es.foldl (fun b x => if sub32 x.2 b < 2 ^ 31 then x.2 else b) e.2 + 1) % 2 ^ 32

/-- A warm chip reset: the prompt book stays, and the rails, setpoints and straps. [DESIGN CHOICE: log 12; DEDUCED: log 127] -/
def Dev.warmReset (d : Dev) : Dev :=
  let stat := d.fltStat
  let last := if d.flt.cause = 1 then 4 else 5
  let keep := fun (a : Nat) => inBook a
  let new := d.afresh
  { new with
    mem := { new.mem with
      bytes := d.mem.bytes.filter (fun c => keep c.1), marks := d.mem.marks.filter (fun (e : Nat × Bool) => keep (e.1 * 64))
      ecc := d.mem.ecc.filter (fun (e : Nat × Ecc) => keep (e.1 * 64)) }
    flt := { new.flt with lastReset := last, before := stat }
    pwr := { new.pwr with strap := d.pwr.strap, vset := d.pwr.vset, vtarget := d.pwr.vset, warm := true } }

/-- A WARM_RESET or POWER_CYCLE entry goes straight to the prompt book: the staging queues do not outlive the step. [DEDUCED: log 128] -/
def Dev.lastEntry (d : Dev) (code : Nat) : Dev :=
  let s := d.stampNow
  s.1.pbWrite { tbase := s.2, code := code, kind := 0, sev := 2, step := 0, status := 0, origin := hubOrigin
                a := BitVec.ofNat 64 d.flt.cause, b := 0, c := 0 }

/-- Whether a step that follows the fatal declaration may begin: 17 cues after it (R477). -/
def Dev.stepBegins (d : Dev) (step : Nat) : Bool := d.flt.after == step && d.flt.fatalCue + 17 ≤ d.tb.cueCount

/-- WARM_RESET: the device first declares itself fatal; the reset follows. -/
def Dev.warmResetCmd (d : Dev) (cause : Nat) : Dev :=
  if !d.flt.fatal then d.fatal cause 4 else if d.stepBegins 4 then (d.lastEntry 0x1B).warmReset else d

/-- POWER_CYCLE: the fatal declaration, and then PWR_CYCLE_REQ until the rails go. -/
def Dev.powerCycleCmd (d : Dev) (cause : Nat) : Dev :=
  if !d.flt.fatal then d.fatal cause 5
  else if d.stepBegins 5 ∧ !d.flt.pwrReq then
    let d := d.lastEntry 0x1C
    { d with flt := { d.flt with pwrReq := true } }
  else d

/-! ## Voltages (R552) -/

def Dev.vset (d : Dev) (t : Nat) : Nat := Tab.get 750 d.pwr.vset t
def Dev.vtarget (d : Dev) (t : Nat) : Nat := Tab.get 750 d.pwr.vtarget t
def Dev.vmin (d : Dev) (t : Nat) : Nat := Tab.get 0 d.pwr.vmin t

/-- The setpoint of R552. -/
def Dev.setpoint (d : Dev) (t : Nat) : Nat :=
  if d.pwr.partRec then max 600 (min 850 (ceilDiv (d.vmin t + 5 * d.regFld PWR_AVS_CFG 0 4) 5 * 5)) else 850

/-- The next step of at most 10 mV. -/
def Dev.avsStep (d : Dev) (t : Nat) : Dev :=
  let v := d.vset t
  let w := d.vtarget t
  if v = w ∨ 12 ≤ t then d
  else
    let n := if v < w then min w (v + 10) else max w (v - 10)
    ({ d with pwr := { d.pwr with vset := Tab.set 750 d.pwr.vset t n } } : Dev).emit (.avs t n)

/-- New targets, once stage 0 has set the first ones; a tile whose setpoint rests takes its first step. -/
def Dev.retarget (d : Dev) : Dev :=
  if !d.pwr.romDone then d else (List.range 12).foldl (fun (d : Dev) t =>
    let rests := d.vset t == d.vtarget t
    let d := { d with pwr := { d.pwr with vtarget := Tab.set 750 d.pwr.vtarget t (d.setpoint t) } }
    if rests then d.avsStep t else d) d

/-! ## Bring-up (R546, R547) -/

/-- The RESET entry, the first of the bring-up. [DEDUCED: log 128] -/
def Dev.resetEntry (d : Dev) : Dev :=
  let d := { d with flt := { d.flt with head := if d.pwr.warm then nextSeq d.mem else 0 } }
  d.pbWrite { tbase := 0, code := 0x1E, kind := 3, sev := 0, step := 0, status := 0, origin := hubOrigin
              a := BitVec.ofNat 64 d.flt.before, b := BitVec.ofNat 64 d.flt.lastReset, c := 0 }

/-- STAGE_DONE. -/
def Dev.stageDone (d : Dev) (r : StageRes) : Dev :=
  let p := d.pwr
  match r with
  | .rom fwOk slot svn partRec vmin pllOk =>
    if p.romDone then d
    else if !fwOk ∨ !pllOk then { d with pwr := { p with romFatal := true }, flt := { d.flt with fatalPin := true } }
    else
      let mins := (List.range 12).foldl (fun (t : Tab Nat) i => Tab.set 0 t i (if partRec then vmin.getD i 0 % 1024 else 0)) []
      let targets := (List.range 12).foldl (fun (t : Tab Nat) i => Tab.set 750 t i (d.vset i)) []
      let d := { d with
        pwr := { p with romDone := true, partRec := partRec, vmin := mins, vtarget := targets }
        sec := { d.sec with fwSvn := svn % 65536, fwSlot := slot % 2 } }
      d.retarget
  | .keys rootOk =>
    if !p.romDone ∨ p.rootTried then d
    else
      let d := { d with pwr := { p with rootTried := true }, sec := { d.sec with rootOk := rootOk } }
      (List.range 16).foldl (fun (d : Dev) i => d.deriveKeys i) d
  | .identity idOk =>
    if !d.sec.rootOk ∨ p.idDone then d else { d with pwr := { p with idDone := true }, sec := { d.sec with idOk := idOk } }
  | .memory ok corrected =>
    if !p.romDone ∨ p.memDone then d
    else
      let d := d.selfTestReads corrected
      if !ok then d.fatal 4 5
      else
        let d := { d with pwr := { d.pwr with memDone := true } }
        d.resetEntry
  | .cxl width rate =>
    if !p.memDone then d
    else { d with pwr := { p with cxlUp := true }, cxl := { d.cxl with mode := width % 4 ≠ 0 && rate % 4 ≠ 0, width := width % 4, rate := rate % 4 } }

/-- PWR_STAT.STAGE. -/
def Dev.stage546 (d : Dev) : Nat :=
  if d.pwr.ready then 5
  else if !d.pwr.romDone then 0
  else if !d.sec.rootOk then 1
  else if !d.pwr.memDone then 2
  else if !d.pwr.cfgDone then 3
  else 4

/-- READY at a cue boundary (R548). [DEDUCED: log 141] -/
def Dev.checkReady (d : Dev) : Dev :=
  if !d.pwr.ready ∧ d.sec.rootOk ∧ d.pwr.idDone ∧ d.pwr.memDone ∧ d.pwr.cfgDone ∧ (d.tb.state = .locked ∨ d.tb.state = .freeRun) ∧ !d.flt.fatalPin then
    ({ d with pwr := { d.pwr with ready := true } } : Dev).setRegBit PWR_EVT 0
  else d

/-- A rail leaves its window (R545). -/
def Dev.railFault (d : Dev) : Dev := (d.setRegBit PWR_EVT 2).fatal 4 5

/-! ## Duties (R553 to R558) -/

/-- PWR_CAP.LIMIT; values outside 900 to 1,500 read as the nearer limit. -/
def Dev.capLimit (d : Dev) : Nat := max 900 (min 1500 (d.regFld PWR_CAP 0 11))

/-- d_pwr of a limit (R554). -/
def dutyOf (limit : Nat) : Nat := max 2 (min 15 (16 * (limit - 730) / 770 - 1))

/-- The duty in force follows d_pwr and d_th; a change is told to the agents twice, 8 cues apart (R558). -/
def Dev.setDuty (d : Dev) : Dev :=
  let n := min d.pwr.dPwr d.pwr.dTh
  if n = d.pwr.duty then d
  else
    let info := n + b2n (d.pwr.dPwr < 15) * 16 + b2n (d.pwr.dTh < 15) * 32 + b2n (decide (110 * 16 < d.pwr.tj)) * 64
    let d := { d.rebaseSlots with pwr := { d.pwr with duty := n } }
    (d.setRegBit PWR_EVT 1).startEvt (d.upLinks 1) 3 info 2 8

/-- Thresholds in °C / 16: THERM at most 105, WARN at most THERM. [DEDUCED: log 140] -/
def Dev.therm (d : Dev) : Int := 16 * ((min 105 (d.regFld THM_CFG 8 8) : Nat) : Int)
def Dev.warn (d : Dev) : Int := min d.therm (16 * ((d.regFld THM_CFG 0 8 : Nat) : Int))

/-- THM_EVT. -/
def Dev.thmEvent (d : Dev) (bit : Nat) : Dev := d.event THM_EVT bit (d.regFld THM_CFG 24 1 == 1)

/-- The duties at a 1 ms boundary (R552, R554, R556). -/
def Dev.dutyMs (d : Dev) (power : Nat) : Dev :=
  let p := d.pwr
  let d := if p.dTh < 15 then d.bump THM_THROT_CNT else d
  let th := if d.warn < p.tj then max (min 2 p.dTh) (p.dTh - 1) else if p.tj ≤ d.warn - 48 then min 15 (p.dTh + 1) else p.dTh
  ({ d with pwr := { d.pwr with dPwr := dutyOf d.capLimit, dTh := th, power := power % 2048 } } : Dev).setDuty.retarget

/-! ## Temperatures (R338, R339, R551, R556, R557) -/

/-- Neighbours of a thermal monitor: those of a tile in the mesh (R16), the tile of a stack, the tiles that the hub attaches to (R20).
[DESIGN CHOICE: log 66; DEDUCED: log 140] -/
def monitorNear (n : Nat) : List Nat :=
  if n < 12 then (List.range 12).filter (fun t => hopDist n t == 1) else if n < 20 then [stackTile (n - 12)] else [9, 10]

/-- [DESIGN CHOICE: log 66] -/
def Dev.monitorRetired (d : Dev) (n : Nat) : Bool := (d.calInfo 2 n).state == .retired

/-- What monitor n reads: a retired one, the highest of its neighbours + 5 °C. [DEDUCED: log 140] -/
def Dev.monitorReads (d : Dev) (temps : List Int) (n : Nat) : Int :=
  if d.monitorRetired n then
    match (monitorNear n).map (fun t => temps.getD t 0) with
    | [] => 0
    | x :: xs => xs.foldl max x + 80
  else temps.getD n 0

/-- TJ_SAMPLE: the readings of the 21 monitors, °C / 16. [DEDUCED: log 140] -/
def Dev.tjSample (d : Dev) (temps : List Int) : Dev :=
  let l := (List.range 21).map (d.monitorReads temps)
  let src := (List.range 21).foldl (fun b n => if l.getD b 0 < l.getD n 0 then n else b) 0
  let tj := l.getD src 0
  let old := d.pwr.tj
  let above := fun (x : Int) => decide (old ≤ x ∧ x < tj)
  let crit := decide (110 * 16 < tj)
  let pin := d.pwr.critHeld || crit || decide (d.therm < tj) || (d.pwr.thermN && decide (d.therm - 48 < tj))
  let was := d.pwr.thermN
  let th := if above (110 * 16) then 0 else if above (105 * 16) then min 2 d.pwr.dTh else d.pwr.dTh
  let w := d.warn
  let d := { d with pwr := { d.pwr with temps := l, tj := tj, tjSrc := src, thermN := pin, critHeld := d.pwr.critHeld || crit, dTh := th } }
  let d := if above w then d.thmEvent 0 else d
  let d := if pin ∧ !was then d.thmEvent 1 else d
  let d := if above (110 * 16) then d.thmEvent 2 else d
  (if above (105 * 16) ∨ above (110 * 16) then d.setDuty else d).markEarly

/-! ## The end of a calibration run (R532, R551) -/

/-- What the retirement of a unit of classes 1 to 3 does. [DEDUCED: log 141] -/
def Dev.retirement (d : Dev) (u : CalUnit) : Dev :=
  match u.cls with
  | 1 =>
    let k := u.unit / 8
    let d := d.linkDown k (some 6)
    d.setLink k { d.link k with fail := 6, laneFail := true, failCue := d.tb.cueCount }
  | 2 => if u.unit < 21 then d.thmEvent 3 else if u.unit < 40 then d.railFault else d
  | 3 =>
    if d.pwr.ready then d.fatal 4 5
    else { d with flt := { d.flt with fatalPin := true }, pwr := { d.pwr with romFatal := d.pwr.romFatal || !d.pwr.romDone } }
  | _ => d

/-- CAL_RUN_DONE. -/
def Dev.calDone (d : Dev) (u : CalUnit) (r : CalResult) : Dev :=
  let was := (d.calInfo u.cls u.unit).state
  let d := d.calRunDone u r
  if was ≠ .retired ∧ (d.calInfo u.cls u.unit).state = .retired then d.retirement u else d

/-! ## The CXL port (R513, R534 to R539) -/

/-- PERST_N resets the port: it is down until it trains, and reads of the host that were under way fail. [DEDUCED: log 129] -/
def Dev.perstN (d : Dev) : Dev :=
  let ids := d.cxl.reads.flatMap (fun (e : Nat × HostRead) => e.2.left.map (fun i => e.1 * 2 ^ 24 + i))
  let d := { d with cxl := { d.cxl with mode := false, width := 0, rate := 0, ide := false }, pwr := { d.pwr with cxlUp := false } }
  ids.foldl (fun (d : Dev) id => d.hostData id false []) d

/-- The port loses its link and trains again. -/
def Dev.cxlRetrain (d : Dev) (width rate : Nat) : Dev :=
  let d := { d with cxl := { d.cxl with mode := width % 4 ≠ 0 && rate % 4 ≠ 0, width := width % 4, rate := rate % 4 } }
  (d.bump CXL_RETRAIN_CNT).setRegBit CXL_EVT 0

/-- Where host offset x of the CXL.mem window lies. -/
def Dev.window (d : Dev) (x : Nat) : Option Nat :=
  let n := d.regFld CXL_WIN_N 14 14 * 2 ^ 21
  let s := d.regFld CXL_WIN_S 19 19 * 2 ^ 21
  if x < n then some (nearAddr (d.regFld CXL_WIN_N 0 14 * 2 ^ 21 + x))
  else if x < n + s then some (stratAddr (d.regFld CXL_WIN_S 0 19 * 2 ^ 21 + (x - n)))
  else none

/-- Whether an address belongs to a partition in confidential mode. -/
def Dev.hostDenied (d : Dev) (a : Nat) : Bool := (d.framePart (spaceOf a) (offOf a / 2 ^ 21)).any d.isConf

/-- A host access is refused. -/
def Dev.denyHost (d : Dev) : Dev := (d.bump SEC_HOST_DENY_CNT).setRegBit SEC_EVT 3

/-- A CXL.mem read of the line at x. -/
def Dev.cxlRead (d : Dev) (x : Nat) : Dev :=
  if !d.cxl.mode then d
  else if d.cxl.viral then d.emit (.cxlData x true (zeros 64))
  else match d.window (x / 64 * 64) with
  | none => d.emit (.cxlData x true (zeros 64))
  | some a => if d.hostDenied a then (d.denyHost).emit (.cxlData x true (zeros 64)) else d.homeAccess .load a 64 [] 0 16 (.host x)

/-- A CXL.mem write of the line at x. [DEDUCED: log 131] -/
def Dev.cxlWrite (d : Dev) (x : Nat) (data : Bytes) : Dev :=
  if !d.cxl.mode then d
  else if d.cxl.viral then d.emit (.cxlCmp x)
  else match d.window (x / 64 * 64) with
  | none => d.emit (.cxlCmp x)
  | some a => if d.hostDenied a then (d.denyHost).emit (.cxlCmp x) else d.homeAccess .store a 64 (slice data 0 64) 0 16 (.host x)

/-- A write of CXL_WIN_N or CXL_WIN_S. -/
def Dev.writeWin (d : Dev) (stratum : Bool) (v : Nat) : Dev :=
  let first := if stratum then fld v 0 19 else fld v 0 14
  let cnt := if stratum then fld v 19 19 else fld v 14 14
  if d.pwr.ready then d
  else if rangeFrames (b2n stratum) < first + cnt then d.setRegBit CXL_EVT 3
  else if stratum then d.putReg CXL_WIN_S (v % 2 ^ 38)
  else d.putReg CXL_WIN_N (v % 2 ^ 28)

/-- The mailbox opcodes that the manual defines. -/
def mailboxDefined (op : Nat) : Bool :=
  (0xC300 ≤ op && op ≤ 0xC305) || (0xC310 ≤ op && op ≤ 0xC319) || (0xC320 ≤ op && op ≤ 0xC32C) || (0xC340 ≤ op && op ≤ 0xC342) ||
    op == 0xC350 || op == 0xC360 || (0xC370 ≤ op && op ≤ 0xC372)

/-! ## The commands -/

/-- RESET_N reaches a device that is off, or held in its boot ROM, too. -/
def execResetN (addr : BitVec 3) (s : State) : Host.Outcome State Fault Refusal := s.runAlways (·.resetN addr)
def execPerstN (s : State) : Host.Outcome State Fault Refusal := s.run (·.perstN)
def execPowerDown (s : State) : Host.Outcome State Fault Refusal := s.runAlways (·.powerDown)
def execRailFault (_rail : Nat) (s : State) : Host.Outcome State Fault Refusal := s.run (·.railFault)
def execStageDone (r : StageRes) (s : State) : Host.Outcome State Fault Refusal := s.run (·.stageDone r)

/-- PWR_CTRL.CFG_DONE = 1 (R548). -/
def execCfgDone (s : State) : Host.Outcome State Fault Refusal := s.run (fun d => { d with pwr := { d.pwr with cfgDone := true } })
def execAvsStep (tile : Nat) (s : State) : Host.Outcome State Fault Refusal := s.run (·.avsStep tile)
def execTjSample (temps : List Int) (s : State) : Host.Outcome State Fault Refusal := s.run (·.tjSample temps)
def execCalRunDone (u : CalUnit) (r : CalResult) (s : State) : Host.Outcome State Fault Refusal := s.run (·.calDone u r)
def execWarmReset (cause : Nat) (s : State) : Host.Outcome State Fault Refusal := s.run (·.warmResetCmd cause)
def execPowerCycle (cause : Nat) (s : State) : Host.Outcome State Fault Refusal := s.run (·.powerCycleCmd cause)
def execCxlPortRetrain (width rate : Nat) (s : State) : Host.Outcome State Fault Refusal := s.run (·.cxlRetrain width rate)
def execCxlMemRead (x : Nat) (s : State) : Host.Outcome State Fault Refusal := s.run (·.cxlRead x)
def execCxlMemWrite (x : Nat) (data : Bytes) (s : State) : Host.Outcome State Fault Refusal := s.run (·.cxlWrite x data)

/-- The device holds no host line (R538). -/
def execH2dSnoop (hpa : Nat) (s : State) : Host.Outcome State Fault Refusal := s.run (·.emit (.rspIHitI hpa))
def execCxlWinWrite (stratum : Bool) (v : Word) (s : State) : Host.Outcome State Fault Refusal := s.run (·.writeWin stratum v.toNat)

/-- An opcode that the manual does not define (R536). -/
def execMailboxUnsupported (opcode : BitVec 16) (s : State) : Host.Outcome State Fault Refusal :=
  s.run (fun d => if mailboxDefined opcode.toNat then d else d.emit (.mailboxUnsupported opcode.toNat))

end Sys2Proof.Machine
end

