-- ==== Sys2Proof/Machine/Cue.lean ====
section
/-! DEFINITION. The cue grid, the calendar and the wings, the timebase and its servo, and what the device does at a cue boundary and at a 1 ms
boundary (chapter 2; R3, R347, R533). -/

namespace Sys2Proof.Machine

/-! ## The grid (R33 to R35) -/

/-- ACLK of a nominal cue, and the largest trim. -/
def cueAclk : Nat := 900
def trimMax : Int := 36

/-- 1 s, 1 ms, 1 µs and 10 ns in 1/64 ACLK. -/
def sec64 : Nat := 230400000000
def ms64 : Nat := 230400000
def us64 : Nat := 230400
def ns10 : Nat := 2304

/-- The cue number within the second. [DESIGN CHOICE: log 143] -/
def Tb.inSec (t : Tb) : Nat := t.tbase % 1000000000 / 250

/-- TBASE at ACLK index a of the cue in progress. -/
def Tb.at (t : Tb) (a : Nat) : Nat := t.tbase + a * 250 / t.cueLen

/-! ## Shares (R46) -/

/-- A write of CUE_CTRL.APPLY. -/
def Dev.stageApply (d : Dev) : Dev := { d with cue := { d.cue with applyPending := true } }

/-- The staged share of a partition. -/
def Dev.staged (d : Dev) (p : Nat) : Nat := d.regFld (CUE_SHARE + 8 * p) 0 7

/-- Whether a staged apply is accepted (R46). -/
def Dev.applyOk (d : Dev) : Bool :=
  (List.range 16).all (fun p => d.staged p ≤ 64 && (!d.isConf p || d.staged p == d.share p)) && ((List.range 16).map d.staged).sum ≤ 64

/-- The share apply at a 1 ms boundary. -/
def Dev.sharesMs (d : Dev) : Dev :=
  if !d.cue.applyPending then d
  else
    let d' := { d with cue := { d.cue with applyPending := false } }
    if d.applyOk then { d' with cue := { d'.cue with shares := (List.range 16).foldl (fun t p => Tab.set 0 t p (d.staged p)) [] } }
    else d'.setRegBit CUE_STAT 1

/-! ## The timebase (R54 to R62) -/

/-- Enters a state; HOLDOVER left is an event, and TRACKING starts its counts anew. -/
def Dev.tbEnter (d : Dev) (s : TbState) : Dev :=
  let d := if d.tb.state = .holdover ∧ s ≠ .holdover then d.setRegBit TB_EVT 1 else d
  let d := { d with tb := { d.tb with state := s, lockedWin := d.tb.lockedWin && s == .locked } }
  if s = .tracking then { d with tb := { d.tb with goodEdges := 0, lockRun := 0 } } else d

/-- States in which trim cues occur. -/
def TbState.servo (s : TbState) : Bool := s == .tracking || s == .locked || s == .holdover

/-- The frequency offset that an interval between two edges shows, 1/64 ACLK per second. [DEDUCED: log 144] -/
def freqOf (interval : Nat) : Int :=
  let n := max 1 (roundDiv interval sec64)
  ((interval : Int) - n * sec64) / n

/-- The grid now owes the phase of an edge with error e, less what it has slewed since the boundary. [DEDUCED: log 144] -/
def Tb.owe (t : Tb) (e : Int) : Tb := { t with slew := t.slew - t.slew0 - e, slew0 := -e, met := true, outliers := [] }

/-- Whether errors agree within 1 µs. -/
def agree (l : List Int) : Bool := l.all (fun x => l.all (fun y => (x - y).natAbs ≤ us64))

/-- An accepted edge at time t with error e (R57, R61). [DEDUCED: log 144; DESIGN CHOICE: log 183] -/
def Dev.acceptEdge (d : Dev) (t : Nat) (e : Int) : Dev :=
  let tb := d.tb.owe e
  let tb := { tb with hist := (e, t) :: tb.hist.take 15, lastEdge := some t
                      freq := match tb.lastEdge with | some p => freqOf (t - p) | none => tb.freq }
  let d := { d with tb := tb }
  match tb.state with
  | .holdover => d.tbEnter .tracking
  | .tracking =>
    let run := if e.natAbs ≤ ns10 then tb.lockRun + 1 else 0
    let d := { d with tb := { tb with goodEdges := min 16 (tb.goodEdges + 1), lockRun := run } }
    if 16 ≤ run then d.tbEnter .locked else d
  | _ => d

/-- An outlier (R58). [DESIGN CHOICE: log 182] -/
def Dev.outlierEdge (d : Dev) (t : Nat) (e : Int) : Dev :=
  let l := (e + d.tb.slew0) :: d.tb.outliers.take 2
  let d := ({ d with tb := { d.tb with outliers := l } } : Dev).bump TB_OUTLIER_CNT
  if l.length = 3 ∧ agree l then
    (({ d with tb := { d.tb.owe e with lastEdge := some t } } : Dev).setRegBit TB_EVT 2).tbEnter .tracking
  else d

/-- An edge is measured against the last cue-0 boundary (R58, R61). [DESIGN CHOICE: log 143] -/
def Dev.measureEdge (d : Dev) (t : Nat) : Dev :=
  if !d.tb.state.servo then d
  else
    let e : Int := (64 * d.tb.cue0At : Nat) - (t : Int)
    if us64 < (e + d.tb.slew0).natAbs then d.outlierEdge t e else d.acceptEdge t e

/-- The length of the cue that begins: in the servo states at most 36 ACLK from 900 (R33, R57). [DEDUCED: log 144] -/
def Tb.plan (t : Tb) : Tb :=
  if t.state.servo then
    let acc := t.freqAcc + t.freq
    let u := acc.tdiv 4000000
    let owed := t.slew + u
    let trim := clampInt (-trimMax) trimMax (owed.tdiv 64)
    { t with freqAcc := acc - u * 4000000, slew := owed - 64 * trim, cueLen := ((cueAclk : Int) + trim).toNat
             lastTrim := if trim = 0 then t.lastTrim else trim }
  else { t with cueLen := cueAclk }

/-- A cue begins that is cue 0 of a second: edges that waited for it are measured. -/
def Dev.cueZero (d : Dev) : Dev :=
  let l := d.tb.edges
  let d := { d with tb := { d.tb with cue0At := d.tb.aclk, slew0 := d.tb.slew, met := false, edges := [] } }
  l.foldl (fun (d : Dev) t => d.measureEdge t) d

/-- PPS_OUT rises at the start of cue 0 and stays high for 100 µs (R60, R539). [DEDUCED: log 163] -/
def Dev.ppsOutCue (d : Dev) : Dev :=
  if d.tb.inSec = 0 ∧ d.tb.state ≠ .unlocked ∧ d.tb.state ≠ .acquiring then { d with tb := { d.tb with ppsOut := true } }
  else if d.tb.inSec = 400 then { d with tb := { d.tb with ppsOut := false } }
  else d

/-- The grid moves on by one whole cue. -/
def Dev.nextCue (d : Dev) : Dev :=
  let t := d.tb
  let t := { t with aclk := t.aclk + t.cueLen, tbase := t.tbase + 250, sub := 0, cueCount := t.cueCount + 1 }
  let d := { d with tb := { t with msDue := t.msDue || t.inSec % 4000 == 0 } }
  let d := if d.tb.inSec = 0 then d.cueZero else d
  (({ d with tb := d.tb.plan } : Dev).ppsOutCue).freshSlots

/-! ## The work of a cue boundary -/

/-- What waited for memory, for lines, for tags or for cells goes on. [DESIGN CHOICE: log 14] -/
def Dev.settleAll (d : Dev) : Dev :=
  ((((d.runPool.runAllStored Dev.notice).settleGroups.settleLogs).resumeVer).resumeRebuilds.pumpWrites).resumeAll handlers

/-- One more cue in which a running context has retired nothing (R468). -/
def Dev.idleCue (d : Dev) : Dev :=
  { d with thr := { d.thr with ctxs := d.thr.ctxs.map (fun (e : Nat × Ctx) => (e.1, if e.2.run = .running then { e.2 with idleCues := e.2.idleCues + 1 } else e.2)) } }

/-- What measurements show until the next boundary (R508). [DEDUCED: log 206] -/
def Dev.noteMeasured (d : Dev) : Dev :=
  { d with sec := { d.sec with seen := { csr := d.csr, conf := d.sec.conf, pair := d.pair.state, shares := d.cue.shares, bundles := d.thr.bundles } } }

/-- What the device does at a cue boundary once the grid has moved. [DESIGN CHOICE: log 152] -/
def Dev.cueWork (d : Dev) (telOk : Bool) : Dev :=
  let d := (d.commitBundles.swapTrims.readTemps.applyTrims).switchCue telOk
  ((((d.startHeld.landFlows.pairCue).drainCue.yieldShadows.idleCue).settleAll).checkReady).noteMeasured

/-- CUE_BOUNDARY: the groups of the ending cue are issued (R156), the grid moves, and the units see the boundary. [DESIGN CHOICE: log 146, 152] -/
def Dev.cueBoundary (d : Dev) (telOk : Bool) : Dev := ((d.issueAllGroups).nextCue).cueWork telOk

/-! ## PPS edges (R55 to R58) -/

/-- The step: TBASE becomes target, and cue 0 begins at ACLK index a of the cue in progress (R33, R56). [DESIGN CHOICE: log 146, 185] -/
def Dev.step56 (d : Dev) (a sub target : Nat) : Dev :=
  let d := (d.setRegBit TB_EVT 3).tbEnter .tracking
  let e := d.nextFree
  let d := if a = 0 then d else e.1.issueAllGroups
  let t := d.tb
  let start := t.aclk + a
  let d := { d with cue := { d.cue with fBase := 0, fAt := 0, gone := [], credit := [] }, tb := { t with
    stepped := true, tbase := target, sub := 0, aclk := start, slot0 := start, cue0At := start, cueLen := cueAclk
    cueCount := if a = 0 then t.cueCount else t.cueCount + 1, slew := (sub : Int), slew0 := (sub : Int), met := true, hist := [], edges := [], outliers := []
    msDue := true, cutWin := true, ppsOut := true } }
  if a = 0 then d else d.cueWork ((Config.free64 e.2).toNat % 2 == 1)

/-- An edge in ACQUIRING that ends an interval within 1 s ± 1 ms. [DESIGN CHOICE: log 143] -/
def Dev.goodEdge (d : Dev) (a sub n : Nat) : Dev :=
  let target := d.regFld TB_SEC_NEXT 0 34 * 1000000000
  if n < 3 ∨ d.regFld TB_CTRL 0 1 = 0 then d
  else if target ≤ d.tb.at a then d.setRegBit TB_EVT 4
  else d.step56 a sub target

/-- PPS_EDGE: an edge registered at ACLK index a of the cue in progress, sub 1/64 ACLK into it. [DESIGN CHOICE: log 143] -/
def Dev.ppsEdge (d : Dev) (a sub : Nat) : Dev :=
  let t := 64 * (d.tb.aclk + a) + sub % 64
  if d.tb.cueLen ≤ a then d
  else
    let d := { d with tb := { d.tb with sub := max d.tb.sub (a * 250 / d.tb.cueLen) } }
    match d.tb.state with
    | .freeRun => d
    | .unlocked => { d with tb := { d.tb with state := .acquiring, goodInt := 0, lastEdge := some t } }
    | .acquiring =>
      let iv := t - d.tb.lastEdge.getD 0
      let d := { d with tb := { d.tb with lastEdge := some t } }
      if ms64 < ((iv : Int) - sec64).natAbs then { d with tb := { d.tb with goodInt := 0 } }
      else
        let n := d.tb.goodInt + 1
        ({ d with tb := { d.tb with goodInt := n, freq := freqOf iv } } : Dev).goodEdge a (sub % 64) n
    | _ => if d.tb.inSec < 2000000 then d.measureEdge t else { d with tb := { d.tb with edges := d.tb.edges ++ [t] } }

/-- HOLDOVER: 1 ms after the edge was expected none has been accepted (R55). -/
def Dev.holdover (d : Dev) : Dev :=
  let expected : Int := (64 * d.tb.cue0At : Nat) + d.tb.slew0
  if (d.tb.state = .tracking ∨ d.tb.state = .locked) ∧ !d.tb.met ∧ expected + ms64 ≤ (64 * d.tb.aclk : Nat) then
    (d.tbEnter .holdover).event TB_EVT 0 (d.regFld TB_CTRL 2 1 == 1)
  else d

/-- FREE_RUN: only before READY. [DEDUCED: log 161] -/
def Dev.freeRun (d : Dev) : Dev :=
  if d.pwr.ready then d
  else
    let d := (d.setRegBit TB_CTRL 1).tbEnter .freeRun
    { d with tb := { d.tb with slew := 0, slew0 := 0, freq := 0, freqAcc := 0, edges := [], outliers := [] } }

/-! ## The Floor ratios (R3, R61, R62, R347, R533) -/

/-- A ratio with 8 fraction bits, to the nearest; 16 bits. [DEDUCED: log 145] -/
def ratioCode (num den : Nat) : Nat := min 65535 (roundDiv (256 * num) den)

/-- Intervals between the edges of a history, newest first. [DEDUCED: log 145] -/
def intervals : List (Int × Nat) → List Nat
  | a :: b :: l => (a.2 - b.2) :: intervals (b :: l)
  | _ => []

/-- j^2 as a fraction, (1/64 ACLK)^2. [DEDUCED: log 145] -/
def jitter2 (hist : List (Int × Nat)) : Nat × Nat :=
  let l := intervals hist
  let m := l.length
  if m = 0 then (0, 1) else (m * (l.map (fun x => x * x)).sum - l.sum * l.sum, 2 * m * m)

/-- The square root of a fraction to the nearest integer. -/
def rootNear (num den : Nat) : Nat := (isqrt (4 * num / den) + 1) / 2

/-- The Timing ratio: 80 ps are 18.432 units of 1/64 ACLK. [DEDUCED: log 145] -/
def timingRatio (hist : List (Int × Nat)) : Nat :=
  let a2 := (hist.map (fun x => x.1.natAbs * x.1.natAbs)).sum
  let j := jitter2 hist
  let j := if j.1 * 1000000 < 339738624 * j.2 then (339738624, 1000000) else j
  min 65535 (rootNear (65536 * a2 * j.2) (hist.length * j.1))

/-- Publishes the Timing ratio of the window that ends. -/
def Dev.timingMs (d : Dev) : Dev :=
  let ok := d.tb.lockedWin && !d.tb.cutWin && d.tb.hist ≠ []
  { d with tb := { d.tb with ratio := if ok then some (timingRatio d.tb.hist) else none, lockedWin := d.tb.state == .locked } }

/-- A sum of fractions. -/
def sumFrac (l : List (Nat × Nat)) : Nat × Nat := l.foldl (fun a b => (a.1 * b.2 + b.1 * a.2, a.2 * b.2)) (0, 1)

/-- The floor of one array, fJ: conversions, tile temperature in K / 256, sigma in 1/256 LSB. -/
def arrayFloor (cc tj sigma : Nat) : Nat × Nat :=
  (cc * 8 * 1380649 * tj * 402653184, 100000000000000 * 256 * (12 * sigma * sigma + 65536))

/-- Whether a charge monitor is retired: the ratios that use it publish no value (R551). -/
def Dev.chargeLost (d : Dev) (unit : Nat) : Bool := (d.calInfo 2 unit).state == .retired

/-- The charge monitors that the Delivery ratio uses: the transmit lanes of its links, VNEAR and the fabric. -/
def deliveryMonitors (links : List Nat) : List Nat :=
  links.flatMap (fun k => (List.range 8).map (fun j => 808 + 8 * k + j)) ++ (List.range 13).map (1096 + ·)

/-- Publishes the Scoring ratio (R347). [DESIGN CHOICE: log 151] -/
def Dev.scoringMs (d : Dev) (m : MsMeas) : Dev :=
  let l := d.mica.conv.filter (fun (e : Nat × Nat) => e.2 ≠ 0)
  let cc := (l.map (·.2)).sum
  let e := (l.map (fun (x : Nat × Nat) => (m.qMica.filter (fun q => q.1 == x.1)).map (·.2) |>.sum)).sum
  let f := sumFrac (l.map (fun (x : Nat × Nat) => arrayFloor x.2 (m.tjK.getD (x.1 / 64) 0) (d.calInfo 0 x.1).sigma))
  { d with mica := { d.mica with
      ratio := if 64 * cc < 1000000000 ∨ d.tb.cutWin ∨ l.any (fun x => d.chargeLost (40 + x.1)) then none else some (ratioCode (e * f.2) f.1)
      floorE := e, floorF := roundDiv f.1 f.2, floorCc := cc, conv := [] } }

/-- fch of a reach, fJ per line bit. -/
def fch (reach : Nat) : Nat := if reach = 0 then 420 else if reach = 1 then 550 else 650

/-- Publishes the Delivery ratio (R533). [DESIGN CHOICE: log 151] -/
def Dev.deliveryMs (d : Dev) (m : MsMeas) : Dev :=
  let ks := (List.range 36).filter (fun k => d.role k == 1 && (d.link k).bNear ≠ 0)
  let p := fun k => if d.linkEnc k then 224 else 240
  let b := (ks.map (fun k => (d.link k).bNear)).sum
  let tx := sumFrac (ks.map (fun k => (m.etx.getD k 0 * (d.link k).bNear, p k * 784301)))
  let e := sumFrac [tx, (m.eNear * b, max 1 m.bNearAll), (m.eFab * b, max 1 m.bCellAll)]
  let f := sumFrac (ks.map (fun k =>
    let n := (d.link k).bNear
    (n * (fch (d.regFld (GL_LINK_CFG + 8 * k) 4 2) * 8 * 256 * 544 * 10 + 115 * p k * 514), p k * 514 * 10)))
  let d := { d with glFloor := { ratio := if b < 2 ^ 20 ∨ d.tb.cutWin ∨ (deliveryMonitors ks).any d.chargeLost then none else some (ratioCode (e.1 * f.2) (e.2 * f.1))
                                 e := roundDiv e.1 e.2, f := roundDiv f.1 f.2, b := b } }
  (List.range 36).foldl (fun (d : Dev) k => d.setLink k { d.link k with bNear := 0, cwBadWin := 0 }) d

/-! ## Background periods (R42) -/

/-- Judges the window that ends. [DEDUCED: log 148; DESIGN CHOICE: log 184] -/
def Dev.backgroundMs (d : Dev) (met : BitVec 6) : Dev :=
  if d.tb.cutWin then d
  else
    let late := ~~~met
    let c := d.cue
    if c.overload then
      let n := if late = 0 then c.okWindows + 1 else 0
      { d with cue := { c with late := late, overload := n < 16, okWindows := if n < 16 then n else 0 } }
    else if late &&& c.late ≠ 0 then
      ({ d with cue := { c with late := late, overload := true, okWindows := 0 } } : Dev).emit (.event CUE_BG_STAT 0)
    else { d with cue := { c with late := late } }

/-- MS_BOUNDARY: the window that ends is published and judged; staged changes follow in the order of R47. [DESIGN CHOICE: log 147] -/
def Dev.msBoundary (d : Dev) (m : MsMeas) : Dev :=
  if !d.tb.msDue then d
  else
    let d := { d with tb := { d.tb with msDue := false } }
    let d := ((d.timingMs.scoringMs m).deliveryMs m).backgroundMs m.bgMet
    let d := ((d.confExits.sharesMs.confEntries).stormMs).dutyMs m.power
    ({ d with tb := { d.tb with cutWin := false }
              ver := { d.ver with trays := d.ver.trays.map (fun (e : Nat × Tray) => (e.1, { e.2 with misses := 0 })) } } : Dev).noteMeasured

/-! ## Wings slots (R41, R461) -/

/-- The key of a resource's wings turn. -/
def wingsKey : WingsRes → Nat
  | .nearBank t => t
  | .stack s => 16 + s
  | .tileEngine t => 32 + t
  | .portEngine k => 64 + k
  | .switchBank t => 128 + t
  | .issue t c => 256 + 16 * t + c
  | .micaArray a => 1024 + a
  | .hub => 2048

/-- The classes of background work, in the order of R41. -/
inductive BgClass where
  | scrub | mica | serdes | wear | audit | telemetry
deriving DecidableEq, Repr

def bgClasses : List BgClass := [.scrub, .mica, .serdes, .wear, .audit, .telemetry]

/-- The weight that a class has on a resource, of 16; 0 where it is not served from the resource's wings (R41). -/
def bgWeight : BgClass → WingsRes → Nat
  | .scrub, .nearBank _ => 4
  | .scrub, .stack _ => 8
  | .mica, .micaArray _ => 4
  | .mica, .tileEngine _ => 4
  | .serdes, .portEngine _ => 3
  | .serdes, .hub => 3
  | .wear, .issue _ _ => 2
  | .wear, .stack _ => 2
  | .audit, .switchBank _ => 2
  | .telemetry, _ => 1
  | _, _ => 0

/-- The 16 turns of a resource's round robin: each class has as many as its weight there, one class after the other. [DESIGN CHOICE: log 149, 192] -/
def wingsWheel (r : WingsRes) : List BgClass := bgClasses.flatMap (fun b => List.replicate (bgWeight b r) b)

/-- Number of a class in the order of R41. -/
def bgIx (b : BgClass) : Nat := bgClasses.idxOf b

/-- Some unit of an analogue class runs its calibration. -/
def Dev.calRuns (d : Dev) (cls lo hi : Nat) : Bool :=
  d.mica.cal.any (fun (e : Nat × CalInfo) => e.2.running && 2048 * cls + lo ≤ e.1 && e.1 < 2048 * cls + hi)

/-- Whether a class has work pending on a resource: scrub has some once memory is initialised, calibration while a run is under way, wear
steering while a tray serves, the audit when its period has passed, telemetry while it is enabled. [DESIGN CHOICE: log 192] -/
def Dev.bgPending (d : Dev) : BgClass → WingsRes → Bool
  | .scrub, _ => d.pwr.memDone
  | .mica, .micaArray a => d.calRuns 0 a (a + 1)
  | .mica, .tileEngine t => d.calRuns 0 (64 * t) (64 * t + 64)
  | .mica, _ => false
  | .serdes, .portEngine k => d.calRuns 1 (8 * k) (8 * k + 8)
  | .serdes, .hub => d.calRuns 2 0 2048 || d.calRuns 3 0 2048
  | .serdes, _ => false
  | .wear, _ => d.ver.trays.any (fun (e : Nat × Tray) => e.2.state == .healthy || e.2.state == .rebuilding)
  | .audit, _ => d.auditDue
  | .telemetry, _ => d.regFld SW_TEL_CFG 24 1 == 1

/-- The class that a turn of a resource goes to: its own, or the next one with pending work (R41). [DESIGN CHOICE: log 149] -/
def Dev.wingsUser (d : Dev) (r : WingsRes) (turn : Nat) : Option BgClass :=
  match (wingsWheel r)[turn]? with
  | none => none
  | some b => ((List.range 6).map (fun i => bgClasses.getD ((bgIx b + i) % 6) .telemetry)).find? (fun b => bgWeight b r != 0 && d.bgPending b r)

/-- Whether a resource exists. -/
def wingsThere : WingsRes → Bool
  | .nearBank t => t < 12
  | .stack s => s < 8
  | .tileEngine t => t < 12
  | .portEngine k => k < 36
  | .switchBank t => t < 12
  | .issue t c => t < 12 && c < 16
  | .micaArray a => a < 768
  | .hub => true

/-- Address of a byte from its home tile and tile-local offset: the inverse of R24. -/
def nearOf (tile l : Nat) : Nat :=
  let r := l / 4096
  let h := ((fld r 0 5 ^^^ fld r 5 5) ^^^ fld r 10 5 ^^^ fld r 15 5) % 12
  nearAddr ((r * 12 + (tile + 12 - h) % 12) * 4096 + l % 4096)

/-- Address of a byte from its stack and stack-local offset: the inverse of R26. -/
def stratOf (s l : Nat) : Nat :=
  let r := l / 4096
  stratAddr ((r * 8 + (s ^^^ fld (8 * r) 10 3) ^^^ fld (8 * r) 20 3) * 4096 + l % 4096)

/-- The granule that scrub reads at a position of a resource, as address / 64, and the number of granules there. -/
def scrubGranule (r : WingsRes) (pos : Nat) : Nat :=
  match r with
  | .nearBank t => nearOf t (64 * pos) / 64
  | .stack s => stratOf s (64 * pos) / 64
  | _ => 0

def scrubCount : WingsRes → Nat
  | .nearBank _ => nearSize / 12 / 64
  | .stack _ => stratSize / 8 / 64
  | _ => 1

/-- Scrub reads its next granule, unless it is marked (R461, R464). -/
def Dev.scrub (d : Dev) (r : WingsRes) : Dev :=
  let pos := Tab.get 0 d.cue.scrubPos (wingsKey r)
  let g := scrubGranule r pos
  let d := { d with cue := { d.cue with scrubPos := Tab.set 0 d.cue.scrubPos (wingsKey r) ((pos + 1) % scrubCount r) } }
  if Tab.get false d.mem.marks g then d else (d.granRead g).1

/-- WINGS_SLOT: the turn of the resource's round robin goes to its class, or to the next one with pending work, and moves on; a granule is
scrubbed, and the slot is counted for its class. [DESIGN CHOICE: log 149] -/
def Dev.wingsSlot (d : Dev) (r : WingsRes) : Dev :=
  if !wingsThere r then d
  else
    let turn := Tab.get 0 d.cue.wingsTurn (wingsKey r)
    let d := { d with cue := { d.cue with wingsTurn := Tab.set 0 d.cue.wingsTurn (wingsKey r) ((turn + 1) % 16) } }
    match d.wingsUser r turn with
    | none => d
    | some b =>
      let key := wingsKey r * 8 + bgIx b
      let d := { d with cue := { d.cue with served := Tab.set 0 d.cue.served key (Tab.get 0 d.cue.served key + 1) } }
      if b = .scrub then d.scrub r else d

/-- ECC_WRITEBACK: the corrected granule is written back (R461). -/
def Dev.eccWriteback (d : Dev) (addr : Nat) : Dev :=
  let g := addr / 64
  if g ∈ d.mem.writeBack then
    { d with mem := { d.mem with writeBack := setDel d.mem.writeBack g, ecc := Tab.set Ecc.good d.mem.ecc g Ecc.good } }
  else d

/-! ## The commands -/

def execCueBoundary (telOk : Bool) (s : State) : Host.Outcome State Fault Refusal := s.run (·.cueBoundary telOk)
def execMsBoundary (m : MsMeas) (s : State) : Host.Outcome State Fault Refusal := s.run (·.msBoundary m)
def execWingsSlot (r : WingsRes) (s : State) : Host.Outcome State Fault Refusal := s.run (·.wingsSlot r)
def execEccWriteback (addr : Word) (s : State) : Host.Outcome State Fault Refusal := s.run (·.eccWriteback addr.toNat)
def execPpsEdge (aclk sub : Nat) (s : State) : Host.Outcome State Fault Refusal := s.run (·.ppsEdge aclk sub)
def execHoldover (s : State) : Host.Outcome State Fault Refusal := s.run (·.holdover)
def execFreeRun (s : State) : Host.Outcome State Fault Refusal := s.run (·.freeRun)
def execApplyShares (s : State) : Host.Outcome State Fault Refusal := s.run (·.stageApply)

end Sys2Proof.Machine
end

