-- ==== Sys2Proof/Machine/Arrivals.lean ====
section
/-! DEFINITION. What arrives on the links: requests and MSG (R134 to R166), notices (R252, R404), answers to the device's own requests and their
timers (R149 to R152, R165), coherence messages (R179 to R195), and the commands of the switch core's registers (R206 to R211). -/

namespace Sys2Proof.Machine

/-! ## Requests -/

/-- A transaction of TYPE typ is taken from its link's buffer and received. -/
def Dev.arrive (d : Dev) (k typ : Nat) (t : Txn) : Dev := (d.receive handlers k typ t).settleAll

/-- A transaction with its operation code given by the row. [DESIGN CHOICE: log 153] -/
def withOpcode (t : Txn) (op : BitVec 16) : Txn := { t with opcode := op }

/-- A MSG with NOTIFY as a reduction notice of a kind has it (R252). [DESIGN CHOICE: log 153] -/
def asNotice (t : Txn) (kind : Nat) : Txn :=
  let v := setFld (setFld t.route.notify.toNat 60 4 0xA) 36 4 kind
  { t with route := { t.route with notify := BitVec.ofNat 64 v } }

/-- A MSG with NOTIFY as a session notice of a kind has it (R404). [DESIGN CHOICE: log 153] -/
def asSesNotice (t : Txn) (kind : Nat) : Txn :=
  let v := setFld (setFld t.route.notify.toNat 60 4 0xB) 24 4 kind
  { t with route := { t.route with notify := BitVec.ofNat 64 v } }

/-! ## Answers (R140, R149 to R152, R161) -/

/-- An answer for another device is forwarded toward it, or dropped and counted. [DESIGN CHOICE: log 90] -/
def Dev.forwardAnswer (d : Dev) (dst : Nat) (a : Answer) (isNak : Bool) : Dev :=
  match d.leastQueued (d.fwdLinks dst) with
  | some k => d.ansOut k a isNak
  | none => { d with txn := { d.txn with fwdDropped := d.txn.fwdDropped + 1 } }

/-- Trays that a link reaches (R379). -/
def Dev.traysOn (d : Dev) (k : Nat) : List Nat := (List.range 64).filter (fun t => bitAt (d.regFld (VER_TRAY_CFG + 8 * t) 27 36) k)

/-- The keys of the requests that an answer on a link may belong to. -/
def Dev.answerKeys (d : Dev) (k : Nat) (a : Answer) : List Nat :=
  match d.role k with
  | 2 => (d.traysOn k).map (fun t => reqKeyTray t a.tag.toNat)
  | 3 => [reqKeyMsg a.tag.toNat]
  | _ => []

/-- The request that an answer belongs to (R151): its TAG, STREAM and RSEQ match one in SENT or RECEIPTED. -/
def Dev.answered (d : Dev) (k : Nat) (a : Answer) : Option (Nat × ReqTag) :=
  (d.answerKeys k a).findSome? (fun key =>
    match Tab.find? d.txn.req key with
    | some r => if r.phase ≠ .lost ∧ r.txn.rseq = a.rseq ∧ r.txn.stream = a.stream then some (key, r) else none
    | none => none)

/-- A tag leaves the requester's table. -/
def Dev.freeReq (d : Dev) (key : Nat) : Dev := { d with txn := { d.txn with req := Tab.erase d.txn.req key } }

def Dev.setReq (d : Dev) (key : Nat) (r : ReqTag) : Dev := { d with txn := { d.txn with req := Tab.insert d.txn.req key r } }

/-- What a request of the device was for takes its status and data; none: its tag is lost (R149, R165, R254, R373, R374, R405). -/
def Dev.requestEnd (d : Dev) (r : ReqTag) (a? : Option (Status × Bytes)) : Dev :=
  let st? := a?.map (·.1)
  match r.purpose with
  | .ctxMsg c slot gen => d.ticketDone c slot gen (st?.getD .timeout) st?.isNone
  | .notice p g uid until' => d.noticeAnswer p g uid until' r.txn (st?.getD .timeout)
  | .sesNotice id kind => d.sesNoticeAnswer id kind st?
  | .pieceWr ext pos tray piece _ _ => d.pieceAnswer ext pos tray piece (st? == some .ok)
  | .slotRd id _ first =>
    d.slotData id first (a?.bind (fun a => if a.1 = .ok ∧ a.2.length = r.txn.len.toNat then some a.2 else none))

/-- The status of a NAK. A reserved code is a failure with no data (R15), and which failure the device takes it for is free. [DESIGN CHOICE: log 154] -/
def Dev.nakStatus (d : Dev) (code : Nat) : Dev × Status :=
  match (statusOf code).filter (· ≠ .ok) with
  | some st => (d, st)
  | none =>
    let x := d.nextFree
    (x.1, (statusOf (1 + (Config.free64 x.2).toNat % 13)).getD .aborted)

/-- A completion of a request of the device. -/
def Dev.completed (d : Dev) (key : Nat) (r : ReqTag) (st : Status) (data : Bytes) : Dev := ((d.freeReq key).requestEnd r (some (st, data))).settleAll

/-- An answer that matches no request in SENT or RECEIPTED is discarded and counted. [DESIGN CHOICE: log 155] -/
def Dev.strayAnswer (d : Dev) : Dev := { d with txn := { d.txn with strayAnswers := d.txn.strayAnswers + 1 } }

/-- Whether an answer on a link is meant for another device. -/
def Dev.passesBy (d : Dev) (k : Nat) (a : Answer) : Option Nat :=
  match a.route with
  | some r => if d.role k = 3 ∧ r.dstDev.toNat ≠ d.devId then some r.dstDev.toNat else none
  | none => none

/-- An answer or EVT that a link's flits brought passes the cells of its ingress queue (R199). -/
def Dev.passCells (d : Dev) (k : Nat) : Dev := (d.takeRx k 0).throughCells

/-- ACK: a receipt, or an OK completion. [DEDUCED: log 174] -/
def Dev.ackIn (d : Dev) (k : Nat) (a : Answer) : Dev :=
  if !d.isUp k ∨ !d.spellsAnswer k a false then d
  else
    let d := (d.passCells k).noteCong k a.tc.toNat a.cong
    match d.passesBy k a with
    | some dst => d.forwardAnswer dst a false
    | none => match d.answered k a with
      | none => d.strayAnswer
      | some (key, r) => if a.compl then d.completed key r .ok a.data else d.setReq key { r with phase := .receipted }

/-- NAK: a completion with its status. [DEDUCED: log 174] -/
def Dev.nakIn (d : Dev) (k : Nat) (a : Answer) : Dev :=
  if !d.isUp k ∨ !d.spellsAnswer k a true then d
  else
    let d := (d.passCells k).noteCong k a.tc.toNat a.cong
    match d.passesBy k a with
    | some dst => d.forwardAnswer dst a true
    | none => match d.answered k a with
      | none => d.strayAnswer
      | some (key, r) =>
        let x := d.nakStatus a.status.toNat
        x.1.completed key r x.2 []

/-- EVT: dropped and counted (R167); a CONG it carries is counted too (R218). -/
def Dev.evtIn (d : Dev) (e : EvtIn) : Dev :=
  if !d.isUp e.link ∨ !d.spellsEvt e.link e.tc e.cong then d
  else ((d.passCells e.link).noteCong e.link e.tc.toNat e.cong).bump (GL_EVT_DROP_CNT + 8 * e.link)

/-! ## Timers of the device's requests (R149, R150) -/

/-- A timer of a tag has expired: it is sent again, up to 3 times, or lost. [DESIGN CHOICE: log 155] -/
def Dev.retry (d : Dev) (key : Nat) (r : ReqTag) : Dev :=
  if r.n < 3 then d.resendReq key r
  else ((d.setReq key { r with phase := .lost, lastSend := d.tb.cueCount }).requestEnd r none).settleAll

/-- T_ACK: 8 cues from the last send in SENT. [DESIGN CHOICE: log 155] -/
def Dev.ackExpiry (d : Dev) (key : Nat) : Dev :=
  match Tab.find? d.txn.req key with
  | some r => if r.phase = .sent ∧ r.lastSend + 8 ≤ d.tb.cueCount then d.retry key r else d
  | none => d

/-- T_DONE, from the last send in RECEIPTED. [DESIGN CHOICE: log 155] -/
def Dev.doneExpiry (d : Dev) (key : Nat) : Dev :=
  match Tab.find? d.txn.req key with
  | some r => if r.phase = .receipted ∧ r.lastSend + tDoneCues r ≤ d.tb.cueCount then d.retry key r else d
  | none => d

/-- 8 cues after it was lost a tag is FREE. -/
def Dev.lostExpiry (d : Dev) (key : Nat) : Dev :=
  match Tab.find? d.txn.req key with
  | some r => if r.phase = .lost ∧ r.lastSend + 8 ≤ d.tb.cueCount then d.freeReq key else d
  | none => d

/-! ## The mesh (R28) -/

/-- The tiles that an edge joins: 9 edges along the rows, then 8 along the columns. -/
def edgeTiles (e : Nat) : Nat × Nat := if e < 9 then (4 * (e / 3) + e % 3, 4 * (e / 3) + e % 3 + 1) else (e - 9, e - 5)

/-- Whether a minimal path between two tiles may take an edge. [DESIGN CHOICE: log 156] -/
def edgeOnPath (e a b : Nat) : Bool :=
  let t := edgeTiles e
  hopDist a t.1 + 1 + hopDist t.2 b == hopDist a b || hopDist a t.2 + 1 + hopDist t.1 b == hopDist a b

/-- MESH_EDGE_FAILED: a failed edge stays failed. The packets of this cue that may have gone by it are sent again by another path, and the
tile that has accepted each of them discards the copy (R147). [DESIGN CHOICE: log 156] -/
def Dev.edgeFailed (d : Dev) (edge : Nat) : Dev :=
  if edge < 17 then
    let again := d.txn.mesh.filter (fun m => m.cue == d.tb.cueCount && edgeOnPath edge m.src m.dst)
    { d with txn := { d.txn with meshFailed := setIns d.txn.meshFailed edge, meshDropped := d.txn.meshDropped + again.length } }
  else d

/-! ## Meanings: requests -/

/-- OPREQ (R82, R137, R145, R548). -/
def execOpreq (link : Nat) (t : Txn) (s : State) : Host.Outcome State Fault Refusal := s.run (·.arrive link 4 t)

/-- The built-in operation 0xFF10 (R234). -/
def execRdcContrib (link : Nat) (t : Txn) (s : State) : Host.Outcome State Fault Refusal := s.run (·.arrive link 4 (withOpcode t 0xFF10))

/-- The built-in operation 0xFF11 (R234). -/
def execRdcAbort (link : Nat) (t : Txn) (s : State) : Host.Outcome State Fault Refusal := s.run (·.arrive link 4 (withOpcode t 0xFF11))
def execRd (link : Nat) (t : Txn) (s : State) : Host.Outcome State Fault Refusal := s.run (·.arrive link 0 t)
def execWr (link : Nat) (t : Txn) (s : State) : Host.Outcome State Fault Refusal := s.run (·.arrive link 1 t)
def execWrf (link : Nat) (t : Txn) (s : State) : Host.Outcome State Fault Refusal := s.run (·.arrive link 2 t)
def execAtom (link : Nat) (t : Txn) (s : State) : Host.Outcome State Fault Refusal := s.run (·.arrive link 3 t)
def execMsg (link : Nat) (t : Txn) (s : State) : Host.Outcome State Fault Refusal := s.run (·.arrive link 5 t)

/-- A reserved TYPE, 0x9 to 0xF (R137). -/
def execReservedType (link : Nat) (typ : BitVec 4) (t : Txn) (s : State) : Host.Outcome State Fault Refusal :=
  s.run (fun d => if 9 ≤ typ.toNat then d.arrive link typ.toNat t else d)

/-! ## Meanings: notices (R252, R404) -/

def execPart (link : Nat) (t : Txn) (s : State) : Host.Outcome State Fault Refusal := s.run (·.arrive link 5 (asNotice t 0))
def execPartEnd (link : Nat) (t : Txn) (s : State) : Host.Outcome State Fault Refusal := s.run (·.arrive link 5 (asNotice t 1))
def execRes (link : Nat) (t : Txn) (s : State) : Host.Outcome State Fault Refusal := s.run (·.arrive link 5 (asNotice t 2))
def execResEnd (link : Nat) (t : Txn) (s : State) : Host.Outcome State Fault Refusal := s.run (·.arrive link 5 (asNotice t 3))
def execAbortNotice (link : Nat) (t : Txn) (s : State) : Host.Outcome State Fault Refusal := s.run (·.arrive link 5 (asNotice t 4))
def execOffer (link : Nat) (t : Txn) (s : State) : Host.Outcome State Fault Refusal := s.run (·.arrive link 5 (asSesNotice t 0))
def execData (link : Nat) (t : Txn) (s : State) : Host.Outcome State Fault Refusal := s.run (·.arrive link 5 (asSesNotice t 1))
def execCommit (link : Nat) (t : Txn) (s : State) : Host.Outcome State Fault Refusal := s.run (·.arrive link 5 (asSesNotice t 2))
def execMoveAbort (link : Nat) (t : Txn) (s : State) : Host.Outcome State Fault Refusal := s.run (·.arrive link 5 (asSesNotice t 3))
def execOwnerQuery (link : Nat) (t : Txn) (s : State) : Host.Outcome State Fault Refusal := s.run (·.arrive link 5 (asSesNotice t 4))
def execFinish (link : Nat) (t : Txn) (s : State) : Host.Outcome State Fault Refusal := s.run (·.arrive link 5 (asSesNotice t 5))

/-! ## Meanings: answers, records and timers -/

def execAck (link : Nat) (a : Answer) (s : State) : Host.Outcome State Fault Refusal := s.run (·.ackIn link a)
def execNak (link : Nat) (a : Answer) (s : State) : Host.Outcome State Fault Refusal := s.run (·.nakIn link a)
def execEvtReceived (e : EvtIn) (s : State) : Host.Outcome State Fault Refusal := s.run (·.evtIn e)
def execReceipt (link : Nat) (tag : BitVec 13) (s : State) : Host.Outcome State Fault Refusal := s.run (·.receipt link tag)
def execFlagWrite (link : Nat) (stream : BitVec 8) (rseq : BitVec 16) (s : State) : Host.Outcome State Fault Refusal :=
  s.run (fun d => (d.writeFlag link stream rseq).settleAll)
def execWrfTimeout (link : Nat) (stream : BitVec 8) (rseq : BitVec 16) (s : State) : Host.Outcome State Fault Refusal := s.run (·.wrfExpire link stream rseq)
def execReplayExpiry (link : Nat) (tag : BitVec 13) (s : State) : Host.Outcome State Fault Refusal := s.run (·.replayExpire link tag)
def execMeshEdgeFailed (edge : Nat) (s : State) : Host.Outcome State Fault Refusal := s.run (·.edgeFailed edge)
def execTAckExpiry (tag : Nat) (s : State) : Host.Outcome State Fault Refusal := s.run (·.ackExpiry tag)
def execTDoneExpiry (tag : Nat) (s : State) : Host.Outcome State Fault Refusal := s.run (·.doneExpiry tag)
def execLostExpiry (tag : Nat) (s : State) : Host.Outcome State Fault Refusal := s.run (·.lostExpiry tag)
def execMsgRecordExpiry (srcDev : BitVec 12) (tag : BitVec 13) (s : State) : Host.Outcome State Fault Refusal := s.run (·.msgRecExpire srcDev tag)
def execEvtRepeat (id : Nat) (s : State) : Host.Outcome State Fault Refusal := s.run (·.repeatEvt id)

/-! ## Meanings: coherence (R185 to R195) -/

/-- A coherence message arrives: it is the oldest of its channel that the link's flits brought, where one waits. [DEDUCED: log 157] -/
def Dev.cohIn (d : Dev) (k ch cmsg : Nat) (m : CohMsg) (body : Dev → Dev) : Dev := if d.spellsCoh k ch cmsg m then (body (d.takeRx k ch)).settleAll else d

/-- A request of the REQ channel. -/
def Dev.cohReq (d : Dev) (k cmsg : Nat) (m : CohMsg) : Dev := d.cohIn k 1 cmsg m (fun d => d.cohRequest k cmsg m)

def execRds (link : Nat) (m : CohMsg) (s : State) : Host.Outcome State Fault Refusal := s.run (·.cohReq link 1 m)
def execRdx (link : Nat) (m : CohMsg) (s : State) : Host.Outcome State Fault Refusal := s.run (·.cohReq link 2 m)
def execUpg (link : Nat) (m : CohMsg) (s : State) : Host.Outcome State Fault Refusal := s.run (·.cohReq link 3 m)
def execEvc (link : Nat) (m : CohMsg) (s : State) : Host.Outcome State Fault Refusal := s.run (·.cohReq link 4 m)
def execEvd (link : Nat) (m : CohMsg) (s : State) : Host.Outcome State Fault Refusal := s.run (·.cohReq link 5 m)
def execSr (link : Nat) (m : CohMsg) (s : State) : Host.Outcome State Fault Refusal := s.run (·.cohIn link 3 0x10 m (fun d => d.cohSr link m))
def execGack (link : Nat) (m : CohMsg) (s : State) : Host.Outcome State Fault Refusal := s.run (·.cohIn link 3 0x11 m (fun d => d.cohGack link m))
def execTSnpExpiry (line : Nat) (s : State) : Host.Outcome State Fault Refusal := s.run (fun d => (d.snpExpiry line).settleAll)
def execTGackExpiry (line : Nat) (s : State) : Host.Outcome State Fault Refusal := s.run (fun d => (d.gackExpiry line).settleAll)

/-- A write of GL_CA_CFG_n with EN as the row has it. -/
def Dev.caWrite (d : Dev) (n : Nat) (v : Word) (en : Nat) : Dev := if n < 16 then (d.writeCa n (setFld v.toNat 0 1 en)).settleAll else d

def execCaEnable (n : Nat) (v : Word) (s : State) : Host.Outcome State Fault Refusal := s.run (·.caWrite n v 1)
def execCaDisable (n : Nat) (v : Word) (s : State) : Host.Outcome State Fault Refusal := s.run (·.caWrite n v 0)
def execDrainDone (n : Nat) (s : State) : Host.Outcome State Fault Refusal := s.run (fun d => if n < 16 then d.drainDone n else d)

/-- A CMSG that no rule defines at a home is dropped and counted (R185). -/
def execReservedCmsg (link : Nat) (cmsg : BitVec 5) (m : CohMsg) (s : State) : Host.Outcome State Fault Refusal :=
  s.run (fun d => if (1 ≤ cmsg.toNat ∧ cmsg.toNat ≤ 5) ∨ cmsg = 0x10 ∨ cmsg = 0x11 then d
    else d.cohIn link (if cmsg.toNat < 0x10 then 1 else 3) cmsg.toNat m (fun d => d.caErr m.ca.toNat))

/-! ## Meanings: the switch core (R206, R207, R211) -/

def execAuditPass (s : State) : Host.Outcome State Fault Refusal := s.run (·.auditAll)
def execPolRateWrite (n : Nat) (v : Word) (s : State) : Host.Outcome State Fault Refusal := s.run (fun d => if n < 288 then d.writePolRate n v.toNat else d)
def execPolBurstWrite (n : Nat) (v : Word) (s : State) : Host.Outcome State Fault Refusal := s.run (fun d => if n < 288 then d.writePolBurst n v.toNat else d)
def execSwAuditCfgWrite (v : Word) (s : State) : Host.Outcome State Fault Refusal := s.run (·.writeAuditCfg v.toNat)

end Sys2Proof.Machine
end

