-- ==== Sys2Proof/Machine/CsrFile.lean ====
section
/-! DEFINITION. The register file as it is read and written: through BAR0 (R535), and by scripts (R93, R572). The maps of the chapters say
what each register shows and what a write of it does (R63, R196, R225, R261, R289, R321, R348, R379, R410, R438, R462, R492, R517, R541,
R559). -/

namespace Sys2Proof.Machine

/-! ## What read-only fields show -/

/-- A Floor ratio register: RATIO and NO_VALUE. -/
def ratioReg (r : Option Nat) : Nat := match r with
  | some v => v % 65536
  | none => 65536

/-- ps of a time in 1/64 ACLK, to the nearest. -/
def psOf (e : Int) : Int := (2 * (e * 625) + 144) / 288

def tbStateCode : TbState → Nat
  | .unlocked => 0 | .acquiring => 1 | .tracking => 2 | .locked => 3 | .holdover => 4 | .freeRun => 5

def linkStateCode : LinkState → Nat
  | .down => 0 | .phy => 1 | .ident => 2 | .auth => 3 | .credit => 4 | .up => 5

def caStateCode : CaState → Nat
  | .disabled => 0 | .active => 1 | .failed => 2 | .draining => 3

def calStateCode : CalState → Nat
  | .uncal => 0 | .calFirst => 1 | .inService => 2 | .calibrating => 3 | .retry => 4 | .retired => 5 | .retest => 6

def trayStateCode : TrayState → Nat
  | .disabled => 0 | .healthy => 1 | .failed => 2 | .rebuilding => 3 | .empty => 4

/-- Whole degrees of a temperature in °C / 16, as 8-bit two's complement. [DESIGN CHOICE: log 166] -/
def degrees (t : Int) : Nat := intFld 8 (t / 16)

/-- TB_STAT. -/
def Dev.tbStat (d : Dev) : Nat := tbStateCode d.tb.state + b2n d.tb.stepped * 2 ^ 3 + min 16 d.tb.goodEdges * 2 ^ 4

/-- TB_PPS. -/
def Dev.tbPps (d : Dev) : Nat :=
  let j := jitter2 d.tb.hist
  let err := match d.tb.hist with
    | e :: _ => intFld 32 (psOf e.1)
    | [] => 0
  err + min (2 ^ 32 - 1) (rootNear (j.1 * 390625) (j.2 * 20736)) * 2 ^ 32

/-- CUE_STAT. -/
def Dev.cueStat (d : Dev) : Nat := b2n d.cue.applyPending + d.regFld CUE_STAT 1 1 * 2 + intFld 8 d.tb.lastTrim * 2 ^ 2

/-- GL_LINK_STAT_k. -/
def Dev.linkStat (d : Dev) (k : Nat) : Nat :=
  let l := d.link k
  linkStateCode l.state + l.fail % 8 * 2 ^ 3 + d.lanesRetired k * 2 ^ 6 + l.peerDev % 4096 * 2 ^ 14 + l.peerKind % 4 * 2 ^ 26

/-- CXL_STAT. -/
def Dev.cxlStat (d : Dev) : Nat := b2n d.cxl.mode + d.cxl.width % 4 * 2 + d.cxl.rate % 4 * 2 ^ 3 + b2n d.cxl.ide * 2 ^ 5 + b2n d.cxl.viral * 2 ^ 6

/-- Filter entries of a caching agent, over all homes. -/
def Dev.caHeld (d : Dev) (n : Nat) : Nat := d.coh.filter.countP (fun e => e.1 / 16 / 8192 % 16 == n)

/-- GL_CA_STAT_n. -/
def Dev.caStat (d : Dev) (n : Nat) : Nat :=
  caStateCode (Tab.get .disabled d.coh.state n) + d.caHeld n % 2 ^ 18 * 2 ^ 2 + d.regFld (GL_CA_STAT + 8 * n) 20 1 * 2 ^ 20

/-- RDC_STAT_t. -/
def Dev.rdcStat (d : Dev) (t : Nat) : Nat :=
  d.rdc.groups.countP (fun g => g.gid % 12 == t) % 512 + (Tab.get [] d.rdc.early t).length % 2048 * 2 ^ 9

/-- GTH_STAT. -/
def Dev.gthStat (d : Dev) : Nat := d.regFld GTH_STAT 0 1 + d.gth.dir.countP (fun e => e.2.state != .free) % 8192 * 2

/-- Attention descriptors in the queues of a tile. -/
def Dev.attOn (d : Dev) (t : Nat) : List DescEntry :=
  (d.allDescs.filter (fun e => e.1 / 16 / 128 == t && e.1 / 16 % 128 / 16 == 0)).map (·.2)

/-- Partition queues of a tile's attention engines with a descriptor that has started and whose ticket is not complete. -/
def Dev.attBusy (d : Dev) (t : Nat) : Nat :=
  d.eng.queue.countP (fun e => e.1 / 16 / 128 == t && e.1 / 16 % 128 / 16 == 0 && e.2.any (·.started))

/-- ATT_STAT_t. [DEDUCED: log 159] -/
def Dev.attStat (d : Dev) (t : Nat) : Nat :=
  d.mica.held.countP (fun e => e.1 / 64 == t) + ((d.attOn t).countP (fun x => x.att.topk.isSome)) % 16 * 2 ^ 7 + d.attBusy t % 128 * 2 ^ 11

/-- Mica arrays whose state satisfies a condition. -/
def Dev.arraysIn (d : Dev) (ok : CalInfo → Bool) : Nat := (List.range 768).countP (fun a => ok (d.calInfo 0 a))

/-- MICA_STAT. -/
def Dev.micaStat (d : Dev) : Nat :=
  d.arraysIn CalInfo.inService + d.arraysIn (fun c => c.state == .retired) * 2 ^ 10 +
    d.arraysIn (fun c => c.state == .calFirst || c.state == .calibrating || c.state == .retry || c.state == .retest) * 2 ^ 20

/-- The array and column of MICA_ARR_SEL. -/
def Dev.selArray (d : Dev) : Nat := d.regFld MICA_ARR_SEL 4 6 + d.regFld MICA_ARR_SEL 0 4 * 64
def Dev.selColumn (d : Dev) : Nat := d.regFld MICA_ARR_SEL 10 6

/-- MICA_ARR_STAT. [DESIGN CHOICE: log 160] -/
def Dev.arrStat (d : Dev) : Nat :=
  let a := d.selArray
  let c := d.calInfo 0 a
  let h := Tab.get 0 d.mica.held a
  if 768 ≤ a then 0
  else calStateCode c.state + c.reason % 16 * 2 ^ 3 + c.sigma % 256 * 2 ^ 7 +
    (if c.everPassed then min 65535 (d.tb.cueCount - c.passCue) * 2 ^ 15 + degrees c.tCal * 2 ^ 31 else 0) +
    (if h = 0 then 0 else 2 ^ 39 + (h - 1) % 16 * 2 ^ 40)

/-- MICA_COL_TRIM. -/
def Dev.colReg (d : Dev) : Nat :=
  let t := d.colTrim d.selArray d.selColumn
  if 768 ≤ d.selArray then 0
  else intFld 8 t.off + intFld 8 t.gain * 2 ^ 8 + intFld 8 t.tco * 2 ^ 16 + intFld 8 t.tcg * 2 ^ 24 + intFld 8 t.resOff * 2 ^ 32 +
    t.inl % 256 * 2 ^ 40 + t.sigma % 256 * 2 ^ 48

/-- MICA_RETIRED_t. [DEDUCED: log 60] -/
def Dev.retiredMap (d : Dev) (t : Nat) : Nat :=
  ((List.range 64).map (fun a => b2n ((d.calInfo 0 (arrKey t a)).state == .retired) * 2 ^ a)).sum

/-- VER_FREE. -/
def Dev.verFree (d : Dev) : Nat := (d.freeFrames 0).length % 2 ^ 14 + (d.freeFrames 1).length % 2 ^ 19 * 2 ^ 14

/-- VER_CHG_p. -/
def Dev.verChg (d : Dev) (p : Nat) : Nat := d.charge p 0 % 2 ^ 14 + d.charge p 1 % 2 ^ 19 * 2 ^ 14 + d.charge p 2 % 2 ^ 30 * 2 ^ 33

/-- VER_TRAY_STAT_t. -/
def Dev.trayStat (d : Dev) (t : Nat) : Nat :=
  trayStateCode (d.trayRec t).state + d.freePieces t % 2 ^ 26 * 2 ^ 3 + d.wear t 1 % 2 ^ 32 * 2 ^ 29

/-- SES_STATE_s: records in state s; every record of the table that is not used is FREE. [DEDUCED: log 159] -/
def Dev.sesInState (d : Dev) (s : Nat) : Nat :=
  if s = 0 then d.sesLimit - d.sessions.length else d.sessions.countP (fun e => stateCode e.2.state == s)

/-- PAIR_STAT. -/
def Dev.pairStat (d : Dev) : Nat :=
  pairStateCode d.pair.state + min 4 d.pairUp.length * 2 ^ 3 + b2n d.pair.bulkDone * 2 ^ 6 + b2n d.pair.takeoverDone * 2 ^ 7 +
    d.pair.joinFail % 8 * 2 ^ 8 + d.regFld PAIR_STAT 11 1 * 2 ^ 11

/-- SEC_STAT. [DESIGN CHOICE: log 130] -/
def Dev.secStat (d : Dev) : Nat :=
  b2n d.sec.rootOk + b2n d.sec.idOk * 2 + b2n d.sec.seed.isSome * 2 ^ 2 + b2n (d.sec.conf != 0) * 2 ^ 3 + d.sec.conf.toNat * 2 ^ 4 +
    d.sec.fwSvn % 65536 * 2 ^ 20 + d.sec.fwSlot % 2 * 2 ^ 36

/-- PWR_STAT. -/
def Dev.pwrStat (d : Dev) : Nat :=
  d.stage546 + b2n d.pwr.ready * 2 ^ 3 + b2n d.pwr.partRec * 2 ^ 4 + b2n d.pwr.idDone * 2 ^ 5 + b2n d.pwr.cfgDone * 2 ^ 6

/-- THM_STAT.STATE. -/
def Dev.thmState (d : Dev) : Nat :=
  if 110 * 16 < d.pwr.tj then 3 else if d.therm < d.pwr.tj then 2 else if d.warn < d.pwr.tj then 1 else 0

/-- THM_STAT. -/
def Dev.thmStat (d : Dev) : Nat := degrees d.pwr.tj + d.pwr.tjSrc % 32 * 2 ^ 8 + d.thmState * 2 ^ 13 + b2n d.pwr.thermN * 2 ^ 15

/-- THM_TEMP_n. [DESIGN CHOICE: log 166] -/
def Dev.thmTemp (d : Dev) (n : Nat) : Nat := degrees (d.pwr.temps.getD n 0) + b2n (d.monitorRetired n) * 2 ^ 8

/-! ## Reads -/

/-- Index of the register of a family at an offset, where the offset lies in the family. [DESIGN CHOICE: log 16] -/
def regIndex (base n stride off : Nat) : Option Nat :=
  if base ≤ off ∧ off < base + stride * n ∧ (off - base) % stride = 0 then some ((off - base) / stride) else none

/-- Families of registers whose value, or part of it, is computed when they are read. -/
def Dev.famValue (d : Dev) (off : Nat) : Option Nat :=
  match regIndex CUE_SHARE 16 8 off, regIndex GL_LINK_STAT 36 8 off, regIndex GL_LINK_PEER 36 8 off, regIndex GL_CA_STAT 16 8 off,
        regIndex RDC_STAT 12 8 off, regIndex GTH_CACHE_PART 16 8 off, regIndex ATT_STAT 12 8 off with
  | some p, _, _, _, _, _, _ => some (d.staged p + d.share p % 128 * 2 ^ 8)
  | _, some k, _, _, _, _, _ => some (d.linkStat k)
  | _, _, some k, _, _, _, _ => some (d.link k).peerInst.toNat
  | _, _, _, some n, _, _, _ => some (d.caStat n)
  | _, _, _, _, some t, _, _ => some (d.rdcStat t)
  | _, _, _, _, _, some p, _ => some (d.regFld off 0 16 + Tab.get 0 d.gth.nblk p % 65536 * 2 ^ 16)
  | _, _, _, _, _, _, some t => some (d.attStat t)
  | _, _, _, _, _, _, _ => none

/-- The rest of those families. -/
def Dev.famValue2 (d : Dev) (off : Nat) : Option Nat :=
  match regIndex MICA_RETIRED 12 8 off, regIndex MICA_SHADOW_HEAD 16 8 off, regIndex VER_CHG 16 8 off, regIndex VER_TRAY_STAT 64 8 off,
        regIndex SES_STATE 9 8 off, regIndex SES_QUOTA 16 8 off, regIndex SEC_CONF 16 8 off, regIndex SEC_LINK 36 8 off,
        regIndex PWR_VSET 12 8 off, regIndex THM_TEMP 21 8 off with
  | some t, _, _, _, _, _, _, _, _, _ => some (d.retiredMap t)
  | _, some p, _, _, _, _, _, _, _, _ => some (Tab.get 0 d.mica.shHead p)
  | _, _, some p, _, _, _, _, _, _, _ => some (d.verChg p)
  | _, _, _, some t, _, _, _, _, _, _ => some (d.trayStat t)
  | _, _, _, _, some s, _, _, _, _, _ => some (d.sesInState s)
  | _, _, _, _, _, some p, _, _, _, _ => some (d.regFld off 0 25 + d.sesUsed p % 2 ^ 25 * 2 ^ 25)
  | _, _, _, _, _, _, some p, _, _, _ => some (d.reg off + b2n (d.isConf p) * 2 + b2n (bitAt d.sec.pending.toNat p) * 2 ^ 2)
  | _, _, _, _, _, _, _, some k, _, _ => some (d.reg off + Tab.get 0 d.sec.linkState k % 4 * 2)
  | _, _, _, _, _, _, _, _, some t, _ => some (d.vset t % 1024 + d.vmin t % 1024 * 2 ^ 10)
  | _, _, _, _, _, _, _, _, _, some n => some (d.thmTemp n)
  | _, _, _, _, _, _, _, _, _, _ => none

/-- Registers of the first chapters whose value is computed when they are read. -/
def Dev.oneValue (d : Dev) (off : Nat) : Option Nat :=
  if off = TB_STAT then some d.tbStat
  else if off = TB_PPS then some d.tbPps
  else if off = TB_FLOOR then some (ratioReg d.tb.ratio)
  else if off = CUE_NOW then some d.cueNow
  else if off = CUE_STAT then some d.cueStat
  else if off = CUE_BG_STAT then some (b2n d.cue.overload + d.cue.late.toNat * 2)
  else if off = GL_FLOOR then some (ratioReg d.glFloor.ratio)
  else if off = GL_FLOOR_E then some d.glFloor.e
  else if off = GL_FLOOR_F then some d.glFloor.f
  else if off = GL_FLOOR_B then some d.glFloor.b
  else if off = CXL_STAT then some d.cxlStat
  else if off = SW_TEL_HEAD then some d.sw.telHead
  else if off = RDC_LAST_ABORT then some d.rdc.lastAbort
  else if off = GTH_STAT then some d.gthStat
  else if off = MICA_STAT then some d.micaStat
  else if off = MICA_RATE then some (d.arraysIn CalInfo.inService * 843750)
  else if off = MICA_FLOOR then some (ratioReg d.mica.ratio)
  else if off = MICA_FLOOR_E then some d.mica.floorE
  else if off = MICA_FLOOR_F then some d.mica.floorF
  else if off = MICA_FLOOR_CC then some d.mica.floorCc
  else if off = MICA_ARR_STAT then some d.arrStat
  else if off = MICA_COL_TRIM then some d.colReg
  else none

/-- Fields whose values outside their range read as the nearer limit: offset, lowest bit, width, least, greatest. [DEDUCED: log 180] -/
def rangedFields : List (Nat × Nat × Nat × Nat × Nat) :=
  [(SW_CELL_CFG, 28, 4, 0, 7), (RDC_CFG, 0, 8, 1, 255), (RDC_CFG, 8, 10, 16, 1023), (ATT_CFG, 0, 4, 0, 8), (VER_REG_CNT, 0, 30, 0, 33554432),
   (VER_VER_CNT, 0, 30, 0, 67108864), (VER_EXT_CNT, 0, 30, 0, 536870912), (SES_CFG, 0, 16, 1, 65535), (SES_CFG, 16, 16, 256, 65535),
   (SES_CFG, 32, 8, 1, 255), (SES_TBL_CNT, 0, 25, 0, 16777216), (FLT_CFG, 0, 16, 8, 65535), (FLT_CFG, 16, 8, 1, 255), (FLT_CFG, 24, 8, 1, 255),
   (FLT_CFG, 32, 3, 0, 5), (PWR_CAP, 0, 11, 900, 1500), (THM_CFG, 8, 8, 0, 105)]

/-- What a stored register shows: fields outside their range as the nearer limit. [DEDUCED: log 180] -/
def Dev.shownReg (d : Dev) (off : Nat) : Nat :=
  let v := d.reg off
  if (regIndex POL_EG_WT 288 16 off).isSome then max 1 (v % 256)
  else rangedFields.foldl (fun v (o, lo, w, least, most) => if o = off then setFld v lo w (max least (min most (fld v lo w))) else v) v

/-- Registers of the later chapters whose value is computed when they are read. -/
def Dev.oneValue2 (d : Dev) (off : Nat) : Option Nat :=
  if off = VER_FREE then some d.verFree
  else if off = PAIR_STAT then some d.pairStat
  else if off = PAIR_BULK then some d.pair.bulkBytes
  else if off = FLT_STAT then some d.fltStat
  else if off = FLT_LAST_CTX then some d.flt.lastCtx.toNat
  else if off = FLT_LAST_PC then some d.flt.lastPc.toNat
  else if off = FLT_PB_BASE then some 0x100000077F000000
  else if off = FLT_PB_HEAD then some d.flt.head
  else if off = SEC_STAT then some d.secStat
  else if off = PWR_STAT then some d.pwrStat
  else if off = PWR_CAP_STAT then some (d.pwr.duty % 16 + d.pwr.dPwr % 16 * 2 ^ 4 + d.pwr.dTh % 16 * 2 ^ 8)
  else if off = PWR_MEAS then some d.pwr.power
  else if off = THM_CFG then some (d.shownReg THM_CFG + 0x6E * 2 ^ 16)
  else if off = THM_STAT then some d.thmStat
  else none

/-- Where a stored register is kept: GL_LINK_CFG_k, k below 32, under keys of its own. -/
def storeKey (off : Nat) : Nat := if 0x40100 ≤ off ∧ off < 0x40200 then GL_LINK_CFG + (off - 0x40100) else off

/-- What a register other than TB_NOW reads as; an undefined offset reads 0. -/
def Dev.regValue (d : Dev) (off : Nat) : Nat :=
  match d.famValue off, d.famValue2 off, d.oneValue off, d.oneValue2 off with
  | some v, _, _, _ => v
  | _, some v, _, _ => v
  | _, _, some v, _ => v
  | _, _, _, some v => v
  | _, _, _, _ => if 2 ^ 24 ≤ off then 0 else d.shownReg (storeKey off)

/-- A read of the register at a BAR0 offset. TB_NOW is latched when it is read. [DESIGN CHOICE: log 19] -/
def Dev.csrRead (d : Dev) (off : Nat) : Dev × Word :=
  if off = TB_NOW then
    let t := d.stampNow
    (t.1, BitVec.ofNat 64 t.2)
  else (d, BitVec.ofNat 64 (d.regValue off))

/-! ## Writes -/

/-- A write of a register that only stores: the writable field takes the new value, bits written 1 are cleared where the map says so.
[DEDUCED: log 15] -/
def Dev.plainWrite (d : Dev) (off v : Nat) : Dev :=
  match csrFam off with
  | none => d
  | some f =>
    let old := d.reg off
    let new := (old &&& (2 ^ 64 - 1 - f.rw - f.w1c)) ||| (v &&& f.rw) ||| (old &&& f.w1c &&& (2 ^ 64 - 1 - v % 2 ^ 64))
    d.putReg off new

/-- A write of TB_CTRL: FREE_RUN is set once, and only before READY. [DEDUCED: log 161] -/
def Dev.writeTbCtrl (d : Dev) (v : Nat) : Dev :=
  let d := d.putReg TB_CTRL (fld v 0 1 + d.regFld TB_CTRL 1 1 * 2 + fld v 2 1 * 4)
  if bitAt v 1 then d.freeRun else d

/-- A write of PAIR_CTRL: each bit that is 1 acts, from the lowest on. -/
def Dev.writePairCtrl (d : Dev) (v : Nat) : Dev :=
  let d := if bitAt v 0 then d.join else d
  let d := if bitAt v 1 then d.admitPair else d
  let d := if bitAt v 2 then d.takeover else d
  let d := if bitAt v 3 then d.yield else d
  let d := if bitAt v 4 then d.stepOp else d
  if bitAt v 5 then d.unpair else d

/-- Registers that take no write after READY (R379, R410, R541), those of the pair outside UNPAIRED (R438), and the base of the hot-row cache
while it is enabled (R269). -/
def Dev.writeBarred (d : Dev) (off : Nat) : Bool :=
  (d.pwr.ready && (off == GL_DEV_ID || off == GL_FWD_BASE || off == SW_CELL_CFG || (VER_REG_BASE ≤ off && off ≤ VER_EXT_CNT) ||
    off == SES_TBL_BASE || off == SES_TBL_CNT)) ||
  (off == GTH_CACHE_BASE && d.regFld GTH_CACHE_CFG 16 1 == 1) ||
  (d.pair.state != .unpaired && (off == PAIR_CFG || off == PAIR_MAP_BASE || off == PAIR_JNL_BASE || off == PAIR_JNL_CNT))

/-- Families of registers whose write does more than store. [DEDUCED: log 15; DESIGN CHOICE: log 16] -/
def Dev.famWrite (d : Dev) (off : Nat) (v : Word) : Option Dev :=
  match regIndex 0x40100 36 8 off, regIndex GL_CA_CFG 16 8 off, regIndex POL_RATE 288 16 off, regIndex POL_BURST 288 16 off,
        regIndex MICA_SHADOW_CFG 16 8 off, regIndex VER_QN 16 8 off, regIndex VER_QS 16 8 off, regIndex VER_QP 16 8 off,
        regIndex VER_TRAY_CFG 64 8 off with
  | some k, _, _, _, _, _, _, _, _ => some (d.writeLinkCfg k v.toNat)
  | _, some n, _, _, _, _, _, _, _ => some (d.writeCa n v.toNat).settleAll
  | _, _, some n, _, _, _, _, _, _ => some (d.writePolRate n v.toNat)
  | _, _, _, some n, _, _, _, _, _ => some (d.writePolBurst n v.toNat)
  | _, _, _, _, some p, _, _, _, _ => some (d.writeShadowCfg p v.toNat)
  | _, _, _, _, _, some p, _, _, _ => some (d.writeQuota 0 p v.toNat)
  | _, _, _, _, _, _, some p, _, _ => some (d.writeQuota 1 p v.toNat)
  | _, _, _, _, _, _, _, some p, _ => some (d.writeQuota 2 p v.toNat)
  | _, _, _, _, _, _, _, _, some t => some (d.writeTrayCfg t v.toNat)
  | _, _, _, _, _, _, _, _, _ => none

/-- The same for the registers of chapter 17. -/
def Dev.secWrite (d : Dev) (off : Nat) (v : Word) : Option Dev :=
  match regIndex SEC_TENANT_LO 16 16 off, regIndex SEC_TENANT_HI 16 16 off, regIndex SEC_CONF 16 8 off, regIndex SEC_RANGE 64 8 off,
        regIndex SEC_STRM 1152 8 off with
  | some p, _, _, _, _ => some (d.writeTenant p false v.toNat)
  | _, some p, _, _, _ => some (d.writeTenant p true v.toNat)
  | _, _, some p, _, _ => some (d.writeConf p v.toNat)
  | _, _, _, some n, _ => some (d.writeRange n v.toNat)
  | _, _, _, _, some j => some (d.writeStrm (j / 32) (j % 32) v.toNat)
  | _, _, _, _, _ => none

/-- Single registers whose write does more than store. [DEDUCED: log 15] -/
def Dev.oneWrite (d : Dev) (off : Nat) (v : Word) : Option Dev :=
  if off = TB_CTRL then some (d.writeTbCtrl v.toNat)
  else if off = CUE_CTRL then some (if bitAt v.toNat 0 then d.stageApply else d)
  else if off = CXL_WIN_N then some (d.writeWin false v.toNat)
  else if off = CXL_WIN_S then some (d.writeWin true v.toNat)
  else if off = SW_AUDIT_CFG then some (d.writeAuditCfg v.toNat)
  else if off = GTH_CACHE_CFG then some (d.writeCacheCfg v.toNat)
  else if off = MICA_CTRL then some (if bitAt v.toNat 0 then d.retestTile (fld v.toNat 1 4) else d)
  else if off = VER_POOL_N then some (d.writePool 0 v.toNat)
  else if off = VER_POOL_S then some (d.writePool 1 v.toNat)
  else if off = VER_TRAY_CTRL then some (if bitAt v.toNat 6 then d.rebuild (fld v.toNat 0 6) else d)
  else if off = PAIR_CTRL then some (d.writePairCtrl v.toNat)
  else if off = FLT_CTRL then some (d.writeFltCtrl v.toNat)
  else if off = FLT_CNT_CLR then some (d.cntClr v.toNat)
  else if off = PWR_CTRL then some (if bitAt v.toNat 0 then { d with pwr := { d.pwr with cfgDone := true } } else d)
  else none

/-- A write of the register at a BAR0 offset; an undefined offset ignores it. [DEDUCED: log 129] -/
def Dev.csrPut (d : Dev) (off : Nat) (v : Word) : Dev :=
  if d.writeBarred off ∨ 2 ^ 24 ≤ off then d
  else match d.famWrite off v, d.secWrite off v, d.oneWrite off v with
  | some e, _, _ => e
  | _, some e, _ => e
  | _, _, some e => e
  | _, _, _ => d.plainWrite off v.toNat

/-- The BAR0 offset of a register access: the address itself, or the low bits of a CSR address. -/
def csrOffset (a : Nat) : Option Nat :=
  if a < 2 ^ 24 then some a else if spaceOf a = 8 ∧ offOf a < 2 ^ 24 then some (offOf a) else none

/-- The host writes a register: other than a naturally aligned 8 B access it is dropped and counted (R535). -/
def Dev.barWrite (d : Dev) (addr : Word) (size : Nat) (v : Word) : Dev :=
  match csrOffset addr.toNat with
  | none => d
  | some off => if size = 8 ∧ off % 8 = 0 then d.csrPut off v else d.bump CXL_BAD_CSR_CNT

/-- The host reads a register: other than a naturally aligned 8 B access it reads all ones, and is counted (R535). [DESIGN CHOICE: log 19] -/
def Dev.barRead (d : Dev) (addr : Word) (size : Nat) : Dev :=
  match csrOffset addr.toNat with
  | none => d
  | some off =>
    if size = 8 ∧ off % 8 = 0 then
      let x := d.csrRead off
      x.1.emit (.csrData addr x.2)
    else (d.bump CXL_BAD_CSR_CNT).emit (.csrData addr (BitVec.ofNat 64 (2 ^ (8 * min size 8) - 1)))

/-! ## Scripts (R93, R572) -/

/-- The offset of a CSR address. [DEDUCED: log 17] -/
def scriptCsr (a : Nat) : Option Nat := if spaceOf a = 8 then some (offOf a) else none

/-- Whether a context may read the register: a partition context TB_NOW and CUE_NOW only, reserved context 15 every CSR. [DEDUCED: log 17] -/
def mayReadCsr (c : CtxId) (off : Option Nat) : Bool := match off with
  | none => false
  | some o => c.ctx == 15 || o == TB_NOW || o == CUE_NOW

/-- What csrr reads: TB_NOW as the context's partition may see it. [DEDUCED: log 17, 18] -/
def Dev.scriptRead (d : Dev) (c : CtxId) (p off : Nat) : Dev × Word :=
  if off = TB_NOW ∧ c.ctx ≠ 15 then
    let t := d.tbNow p
    (t.1, BitVec.ofNat 64 t.2)
  else d.csrRead off

/-! ## Meanings -/

/-- CSR_WRITE. -/
def execCsrWrite (addr : Word) (size : Nat) (v : Word) (s : State) : Host.Outcome State Fault Refusal := s.run (·.barWrite addr size v)

/-- MALFORMED_CSR_READ. -/
def execMalformedCsrRead (addr : Word) (size : Nat) (s : State) : Host.Outcome State Fault Refusal := s.run (·.barRead addr size)

/-- csrr. -/
def execCsrr (c : CtxId) (f : RegFnF) (s : State) : Host.Outcome State Fault Refusal :=
  s.run (issue c (encode (.csrr f)) [f.rd.toNat, f.ra.toNat] (fun d x =>
    let off := scriptCsr (x.gr f.ra.toNat).toNat
    if mayReadCsr c off then
      let t := d.scriptRead c x.part (off.getD 0)
      t.1.setCtx c (x.setG f.rd.toNat t.2).retire
    else d.raise c .accessViolation .ok x.pc (encode (.csrr f))))

/-- csrw: reserved context 15 only. -/
def execCsrw (c : CtxId) (f : RegFnF) (s : State) : Host.Outcome State Fault Refusal :=
  s.run (issue c (encode (.csrw f)) [f.ra.toNat, f.rb.toNat] (fun d x =>
    match scriptCsr (x.gr f.ra.toNat).toNat with
    | some off =>
      if c.ctx = 15 then (d.setCtx c x.retire).csrPut off (x.gr f.rb.toNat)
      else d.raise c .accessViolation .ok x.pc (encode (.csrw f))
    | none => d.raise c .accessViolation .ok x.pc (encode (.csrw f))))

end Sys2Proof.Machine
end

