-- ==== Sys2Proof/Machine/Dispatch.lean ====
section
/-! DEFINITION. The dispatch of the commands: one arm per constructor of Instr, each one direct call of that command's meaning. -/

namespace Sys2Proof.Machine

/-- The effect of a command on everything but the queue of waiting commands. -/
def exec (i : Instr) (s : State) : Host.Outcome State Fault Refusal :=
  match i with
  -- cue, timebase and wings
  | .cueBoundary telOk => Sys2Proof.Machine.execCueBoundary telOk s
  | .wuOverrun e => Sys2Proof.Machine.execWuOverrun e s
  | .msBoundary m => Sys2Proof.Machine.execMsBoundary m s
  | .wingsSlot r => Sys2Proof.Machine.execWingsSlot r s
  | .eccWriteback addr => Sys2Proof.Machine.execEccWriteback addr s
  | .ppsEdge aclk sub => Sys2Proof.Machine.execPpsEdge aclk sub s
  | .holdover => Sys2Proof.Machine.execHoldover s
  | .freeRun => Sys2Proof.Machine.execFreeRun s
  | .applyShares => Sys2Proof.Machine.execApplyShares s
  | .csrWrite addr size v => Sys2Proof.Machine.execCsrWrite addr size v s
  -- dispatch
  | .opreq link t => Sys2Proof.Machine.execOpreq link t s
  | .contextFree c => Sys2Proof.Machine.execContextFree c s
  | .admitTimeout tile p => Sys2Proof.Machine.execAdmitTimeout tile p s
  | .budgetTimeout c => Sys2Proof.Machine.execBudgetTimeout c s
  | .rdcContrib link t => Sys2Proof.Machine.execRdcContrib link t s
  | .rdcAbort link t => Sys2Proof.Machine.execRdcAbort link t s
  -- transactions
  | .rd link t => Sys2Proof.Machine.execRd link t s
  | .wr link t => Sys2Proof.Machine.execWr link t s
  | .wrf link t => Sys2Proof.Machine.execWrf link t s
  | .atom link t => Sys2Proof.Machine.execAtom link t s
  | .msg link t => Sys2Proof.Machine.execMsg link t s
  | .ack link a => Sys2Proof.Machine.execAck link a s
  | .nak link a => Sys2Proof.Machine.execNak link a s
  | .evtReceived e => Sys2Proof.Machine.execEvtReceived e s
  | .receipt link tag => Sys2Proof.Machine.execReceipt link tag s
  | .flagWrite link stream rseq => Sys2Proof.Machine.execFlagWrite link stream rseq s
  | .wrfTimeout link stream rseq => Sys2Proof.Machine.execWrfTimeout link stream rseq s
  | .replayExpiry link tag => Sys2Proof.Machine.execReplayExpiry link tag s
  | .meshEdgeFailed edge => Sys2Proof.Machine.execMeshEdgeFailed edge s
  | .tAckExpiry tag => Sys2Proof.Machine.execTAckExpiry tag s
  | .tDoneExpiry tag => Sys2Proof.Machine.execTDoneExpiry tag s
  | .lostExpiry tag => Sys2Proof.Machine.execLostExpiry tag s
  | .msgRecordExpiry srcDev tag => Sys2Proof.Machine.execMsgRecordExpiry srcDev tag s
  | .noticeResend id => Sys2Proof.Machine.execNoticeResend id s
  | .evtRepeat id => Sys2Proof.Machine.execEvtRepeat id s
  -- coherence
  | .rds link m => Sys2Proof.Machine.execRds link m s
  | .rdx link m => Sys2Proof.Machine.execRdx link m s
  | .upg link m => Sys2Proof.Machine.execUpg link m s
  | .evc link m => Sys2Proof.Machine.execEvc link m s
  | .evd link m => Sys2Proof.Machine.execEvd link m s
  | .sr link m => Sys2Proof.Machine.execSr link m s
  | .gack link m => Sys2Proof.Machine.execGack link m s
  | .tSnpExpiry line => Sys2Proof.Machine.execTSnpExpiry line s
  | .tGackExpiry line => Sys2Proof.Machine.execTGackExpiry line s
  | .caEnable n v => Sys2Proof.Machine.execCaEnable n v s
  | .caDisable n v => Sys2Proof.Machine.execCaDisable n v s
  | .drainDone n => Sys2Proof.Machine.execDrainDone n s
  -- switch core
  | .auditPass => Sys2Proof.Machine.execAuditPass s
  | .linkTransmit link => Sys2Proof.Machine.execLinkTransmit link s
  | .reseqGapLost flow => Sys2Proof.Machine.execReseqGapLost flow s
  | .polRateWrite n v => Sys2Proof.Machine.execPolRateWrite n v s
  | .polBurstWrite n v => Sys2Proof.Machine.execPolBurstWrite n v s
  | .swAuditCfgWrite v => Sys2Proof.Machine.execSwAuditCfgWrite v s
  -- reductions
  | .reduceOpen e p => Sys2Proof.Machine.execReduceOpen e p s
  | .contrib e p => Sys2Proof.Machine.execContrib e p s
  | .abort e p => Sys2Proof.Machine.execAbort e p s
  | .groupReduce p group => Sys2Proof.Machine.execGroupReduce p group s
  | .part link t => Sys2Proof.Machine.execPart link t s
  | .partEnd link t => Sys2Proof.Machine.execPartEnd link t s
  | .res link t => Sys2Proof.Machine.execRes link t s
  | .resEnd link t => Sys2Proof.Machine.execResEnd link t s
  | .abortNotice link t => Sys2Proof.Machine.execAbortNotice link t s
  | .groupDeadline p group => Sys2Proof.Machine.execGroupDeadline p group s
  | .earlyExpiry tile idx => Sys2Proof.Machine.execEarlyExpiry tile idx s
  | .groupHoldExpiry p group => Sys2Proof.Machine.execGroupHoldExpiry p group s
  -- gather
  | .gather e p => Sys2Proof.Machine.execGather e p s
  | .pooled e p => Sys2Proof.Machine.execPooled e p s
  | .blockFetchDone tile p slot version block => Sys2Proof.Machine.execBlockFetchDone tile p slot version block s
  | .gthTableAdd a => Sys2Proof.Machine.execGthTableAdd a s
  | .gthTableRemove slot => Sys2Proof.Machine.execGthTableRemove slot s
  | .gthTableQuery slot => Sys2Proof.Machine.execGthTableQuery slot s
  | .gthSlotFree slot => Sys2Proof.Machine.execGthSlotFree slot s
  | .gthCacheCfgWrite v => Sys2Proof.Machine.execGthCacheCfgWrite v s
  -- filter
  | .select e p => Sys2Proof.Machine.execSelect e p s
  | .topk e p => Sys2Proof.Machine.execTopk e p s
  -- check-value
  | .compute e p => Sys2Proof.Machine.execCompute e p s
  | .snoopEngine e p => Sys2Proof.Machine.execSnoopEngine e p s
  | .snoopPort e p => Sys2Proof.Machine.execSnoopPort e p s
  -- attention
  | .dense e p => Sys2Proof.Machine.execDense e p s
  | .sketch e p => Sys2Proof.Machine.execSketch e p s
  | .score e p => Sys2Proof.Machine.execScore e p s
  | .sketchSelect e p => Sys2Proof.Machine.execSketchSelect e p s
  | .exact e p => Sys2Proof.Machine.execExact e p s
  | .merge e p => Sys2Proof.Machine.execMerge e p s
  | .shadow e p => Sys2Proof.Machine.execShadow e p s
  | .arrayWithdraw tile array => Sys2Proof.Machine.execArrayWithdraw tile array s
  -- codec
  | .pack e p => Sys2Proof.Machine.execPack e p s
  | .unpack e p => Sys2Proof.Machine.execUnpack e p s
  -- engines in general
  | .workUnit e p => Sys2Proof.Machine.execWorkUnit e p s
  | .ticketComplete c slot => Sys2Proof.Machine.execTicketComplete c slot s
  | .cueCapExpiry e p => Sys2Proof.Machine.execCueCapExpiry e p s
  | .spaceAccessComplete c key => Sys2Proof.Machine.execSpaceAccessComplete c key s
  -- analogue shell
  | .calRun u why => Sys2Proof.Machine.execCalRun u why s
  | .calRunDone u r => Sys2Proof.Machine.execCalRunDone u r s
  | .retest tile => Sys2Proof.Machine.execRetest tile s
  | .micaShadowCfgWrite p v => Sys2Proof.Machine.execMicaShadowCfgWrite p v s
  | .tjSample temps => Sys2Proof.Machine.execTjSample temps s
  -- regions and versions
  | .regionCreate p policy mirrored => Sys2Proof.Machine.execRegionCreate p policy mirrored s
  | .destroy r => Sys2Proof.Machine.execDestroy r s
  | .place r slot tier len list => Sys2Proof.Machine.execPlace r slot tier len list s
  | .load r slot tier version list => Sys2Proof.Machine.execLoad r slot tier version list s
  | .unplace r slot force => Sys2Proof.Machine.execUnplace r slot force s
  | .pin r slot => Sys2Proof.Machine.execPin r slot s
  | .unpin r slot => Sys2Proof.Machine.execUnpin r slot s
  | .seal r slot pub expect => Sys2Proof.Machine.execSeal r slot pub expect s
  | .publish r version expect => Sys2Proof.Machine.execPublish r version expect s
  | .openVersion r version => Sys2Proof.Machine.execOpenVersion r version s
  | .close r version => Sys2Proof.Machine.execClose r version s
  | .discard r version => Sys2Proof.Machine.execDiscard r version s
  | .revoke r version => Sys2Proof.Machine.execRevoke r version s
  | .drainComplete r version => Sys2Proof.Machine.execDrainComplete r version s
  | .quarantineEnd extent => Sys2Proof.Machine.execQuarantineEnd extent s
  | .trayReadMiss tray => Sys2Proof.Machine.execTrayReadMiss tray s
  | .rebuild tray => Sys2Proof.Machine.execRebuild tray s
  | .rebuildPiece tray piece => Sys2Proof.Machine.execRebuildPiece tray piece s
  | .verQuotaWrite tier p v => Sys2Proof.Machine.execVerQuotaWrite tier p v s
  | .verPoolWrite tier v => Sys2Proof.Machine.execVerPoolWrite tier v s
  | .verTrayCfgWrite tray v => Sys2Proof.Machine.execVerTrayCfgWrite tray v s
  -- sessions
  | .sessionCreate a => Sys2Proof.Machine.execSessionCreate a s
  | .delete id => Sys2Proof.Machine.execDelete id s
  | .append a => Sys2Proof.Machine.execAppend a s
  | .park id deadline => Sys2Proof.Machine.execPark id deadline s
  | .checkpoint id deadline => Sys2Proof.Machine.execCheckpoint id deadline s
  | .revive id deadline => Sys2Proof.Machine.execRevive id deadline s
  | .fork id child => Sys2Proof.Machine.execFork id child s
  | .move a => Sys2Proof.Machine.execMove a s
  | .claim id => Sys2Proof.Machine.execClaim id s
  | .query id => Sys2Proof.Machine.execQuery id s
  | .handover id => Sys2Proof.Machine.execHandover id s
  | .phaseCommit id => Sys2Proof.Machine.execPhaseCommit id s
  | .sessionDeadline id => Sys2Proof.Machine.execSessionDeadline id s
  | .windowTimeout id => Sys2Proof.Machine.execWindowTimeout id s
  | .logSeal id => Sys2Proof.Machine.execLogSeal id s
  | .offer link t => Sys2Proof.Machine.execOffer link t s
  | .data link t => Sys2Proof.Machine.execData link t s
  | .commit link t => Sys2Proof.Machine.execCommit link t s
  | .moveAbort link t => Sys2Proof.Machine.execMoveAbort link t s
  | .ownerQuery link t => Sys2Proof.Machine.execOwnerQuery link t s
  | .finish link t => Sys2Proof.Machine.execFinish link t s
  | .moveInTimeout id => Sys2Proof.Machine.execMoveInTimeout id s
  | .unconfQuery id => Sys2Proof.Machine.execUnconfQuery id s
  -- the understudy pair
  | .hb link f => Sys2Proof.Machine.execHb link f s
  | .hbTimeout link => Sys2Proof.Machine.execHbTimeout link s
  | .mwr link f => Sys2Proof.Machine.execMwr link f s
  | .mrec link f => Sys2Proof.Machine.execMrec link f s
  | .mmap link f => Sys2Proof.Machine.execMmap link f s
  | .mack link f => Sys2Proof.Machine.execMack link f s
  | .mirrorResend stream mseq => Sys2Proof.Machine.execMirrorResend stream mseq s
  | .down link => Sys2Proof.Machine.execDown link s
  | .audit link f => Sys2Proof.Machine.execAudit link f s
  | .key link f => Sys2Proof.Machine.execKey link f s
  | .bulkEnd link f => Sys2Proof.Machine.execBulkEnd link f s
  | .stepFrame link f => Sys2Proof.Machine.execStepFrame link f s
  | .bulkSend => Sys2Proof.Machine.execBulkSend s
  | .admissionStep step r => Sys2Proof.Machine.execAdmissionStep step r s
  | .join => Sys2Proof.Machine.execJoin s
  | .admitPair => Sys2Proof.Machine.execAdmitPair s
  | .takeover => Sys2Proof.Machine.execTakeover s
  | .yieldPair => Sys2Proof.Machine.execYieldPair s
  | .step => Sys2Proof.Machine.execStep s
  | .unpair => Sys2Proof.Machine.execUnpair s
  | .takeoverScan => Sys2Proof.Machine.execTakeoverScan s
  | .conflictClaim id => Sys2Proof.Machine.execConflictClaim id s
  | .journalExpiry => Sys2Proof.Machine.execJournalExpiry s
  -- faults and recovery
  | .ctxWatchdog c => Sys2Proof.Machine.execCtxWatchdog c s
  | .engHang e p => Sys2Proof.Machine.execEngHang e p s
  | .ctxReset c byHost => Sys2Proof.Machine.execCtxReset c byHost s
  | .engReset e => Sys2Proof.Machine.execEngReset e s
  | .partReset p => Sys2Proof.Machine.execPartReset p s
  | .warmReset cause => Sys2Proof.Machine.execWarmReset cause s
  | .powerCycle cause => Sys2Proof.Machine.execPowerCycle cause s
  | .fatal cause => Sys2Proof.Machine.execFatal cause s
  | .escalate origin step => Sys2Proof.Machine.execEscalate origin step s
  | .report r => Sys2Proof.Machine.execReport r s
  | .pbEntryWrite tile => Sys2Proof.Machine.execPbEntryWrite tile s
  | .fltCntClr addr => Sys2Proof.Machine.execFltCntClr addr s
  | .pbRead seq count => Sys2Proof.Machine.execPbRead seq count s
  -- security
  | .secSeedNew => Sys2Proof.Machine.execSecSeedNew s
  | .secSeedLoad blob => Sys2Proof.Machine.execSecSeedLoad blob s
  | .secSeedExport => Sys2Proof.Machine.execSecSeedExport s
  | .secTenantWrite p hi v => Sys2Proof.Machine.execSecTenantWrite p hi v s
  | .secConfWrite p v => Sys2Proof.Machine.execSecConfWrite p v s
  | .secRangeWrite n v => Sys2Proof.Machine.execSecRangeWrite n v s
  | .secStrmWrite k j v => Sys2Proof.Machine.execSecStrmWrite k j v s
  | .getVersion src => Sys2Proof.Machine.execGetVersion src s
  | .getCapabilities src => Sys2Proof.Machine.execGetCapabilities src s
  | .negotiateAlgorithms src => Sys2Proof.Machine.execNegotiateAlgorithms src s
  | .getDigests src => Sys2Proof.Machine.execGetDigests src s
  | .getCertificate src offset len => Sys2Proof.Machine.execGetCertificate src offset len s
  | .challenge src nonce => Sys2Proof.Machine.execChallenge src nonce s
  | .getMeasurements src nonce index => Sys2Proof.Machine.execGetMeasurements src nonce index s
  | .spdmUnsupported src code => Sys2Proof.Machine.execSpdmUnsupported src code s
  | .spdmResponse link code ok => Sys2Proof.Machine.execSpdmResponse link code ok s
  | .keyx link payload => Sys2Proof.Machine.execKeyx link payload s
  | .authResend link => Sys2Proof.Machine.execAuthResend link s
  -- links
  | .flit link bytes cwCorrected cwBad => Sys2Proof.Machine.execFlit link bytes cwCorrected cwBad s
  | .ident link m => Sys2Proof.Machine.execIdent link m s
  | .creditInit link grants => Sys2Proof.Machine.execCreditInit link grants s
  | .downMessage link reason => Sys2Proof.Machine.execDownMessage link reason s
  | .phyLocked link => Sys2Proof.Machine.execPhyLocked link s
  | .trainingTimeout link => Sys2Proof.Machine.execTrainingTimeout link s
  | .linkRetry link => Sys2Proof.Machine.execLinkRetry link s
  | .linkIdleTimeout link => Sys2Proof.Machine.execLinkIdleTimeout link s
  | .deskewLoss link => Sys2Proof.Machine.execDeskewLoss link s
  | .glLinkCfgWrite k v => Sys2Proof.Machine.execGlLinkCfgWrite k v s
  -- CXL
  | .cxlMemRead x => Sys2Proof.Machine.execCxlMemRead x s
  | .cxlMemWrite x data => Sys2Proof.Machine.execCxlMemWrite x data s
  | .h2dSnoop hpa => Sys2Proof.Machine.execH2dSnoop hpa s
  | .rdcurrData id ok data => Sys2Proof.Machine.execRdcurrData id ok data s
  | .cxlWinWrite stratum v => Sys2Proof.Machine.execCxlWinWrite stratum v s
  | .mailboxUnsupported opcode => Sys2Proof.Machine.execMailboxUnsupported opcode s
  -- bundles
  | .thrCfg p ctxs qdepth storeKib => Sys2Proof.Machine.execThrCfg p ctxs qdepth storeKib s
  | .bundleBegin p slot len => Sys2Proof.Machine.execBundleBegin p slot len s
  | .bundleData p slot offset data => Sys2Proof.Machine.execBundleData p slot offset data s
  | .bundleCommit p slot => Sys2Proof.Machine.execBundleCommit p slot s
  | .bundleUnload p slot => Sys2Proof.Machine.execBundleUnload p slot s
  | .bundleQuery p slot => Sys2Proof.Machine.execBundleQuery p slot s
  -- bring-up and power
  | .resetN addr => Sys2Proof.Machine.execResetN addr s
  | .perstN => Sys2Proof.Machine.execPerstN s
  | .powerDown => Sys2Proof.Machine.execPowerDown s
  | .railFault rail => Sys2Proof.Machine.execRailFault rail s
  | .stageDone r => Sys2Proof.Machine.execStageDone r s
  | .cfgDone => Sys2Proof.Machine.execCfgDone s
  | .avsStep tile => Sys2Proof.Machine.execAvsStep tile s
  -- Thorum: ALU (R565)
  | .add c f => Sys2Proof.Machine.execAdd c f s
  | .sub c f => Sys2Proof.Machine.execSub c f s
  | .and c f => Sys2Proof.Machine.execAnd c f s
  | .or c f => Sys2Proof.Machine.execOr c f s
  | .xor c f => Sys2Proof.Machine.execXor c f s
  | .shl c f => Sys2Proof.Machine.execShl c f s
  | .shr c f => Sys2Proof.Machine.execShr c f s
  | .sra c f => Sys2Proof.Machine.execSra c f s
  | .mul c f => Sys2Proof.Machine.execMul c f s
  | .mulhu c f => Sys2Proof.Machine.execMulhu c f s
  | .mulh c f => Sys2Proof.Machine.execMulh c f s
  | .divu c f => Sys2Proof.Machine.execDivu c f s
  | .remu c f => Sys2Proof.Machine.execRemu c f s
  | .min c f => Sys2Proof.Machine.execMin c f s
  | .max c f => Sys2Proof.Machine.execMax c f s
  | .minu c f => Sys2Proof.Machine.execMinu c f s
  | .maxu c f => Sys2Proof.Machine.execMaxu c f s
  | .sxtb c f => Sys2Proof.Machine.execSxtb c f s
  | .sxth c f => Sys2Proof.Machine.execSxth c f s
  | .sxtw c f => Sys2Proof.Machine.execSxtw c f s
  | .clz c f => Sys2Proof.Machine.execClz c f s
  | .popc c f => Sys2Proof.Machine.execPopc c f s
  | .sel c f p => Sys2Proof.Machine.execSel c f p s
  | .cmpeq c f => Sys2Proof.Machine.execCmpeq c f s
  | .cmpne c f => Sys2Proof.Machine.execCmpne c f s
  | .cmplt c f => Sys2Proof.Machine.execCmplt c f s
  | .cmpltu c f => Sys2Proof.Machine.execCmpltu c f s
  | .cmple c f => Sys2Proof.Machine.execCmple c f s
  | .cmpleu c f => Sys2Proof.Machine.execCmpleu c f s
  | .cmpgt c f => Sys2Proof.Machine.execCmpgt c f s
  | .cmpgtu c f => Sys2Proof.Machine.execCmpgtu c f s
  | .cmpge c f => Sys2Proof.Machine.execCmpge c f s
  | .cmpgeu c f => Sys2Proof.Machine.execCmpgeu c f s
  | .pmov c f => Sys2Proof.Machine.execPmov c f s
  | .pget c f => Sys2Proof.Machine.execPget c f s
  | .pand c f => Sys2Proof.Machine.execPand c f s
  | .por c f => Sys2Proof.Machine.execPor c f s
  | .pxor c f => Sys2Proof.Machine.execPxor c f s
  | .pnot c f => Sys2Proof.Machine.execPnot c f s
  -- Thorum: immediates and branches (R564)
  | .addi c f => Sys2Proof.Machine.execAddi c f s
  | .andi c f => Sys2Proof.Machine.execAndi c f s
  | .ori c f => Sys2Proof.Machine.execOri c f s
  | .xori c f => Sys2Proof.Machine.execXori c f s
  | .shli c f => Sys2Proof.Machine.execShli c f s
  | .shri c f => Sys2Proof.Machine.execShri c f s
  | .srai c f => Sys2Proof.Machine.execSrai c f s
  | .cmpi c f => Sys2Proof.Machine.execCmpi c f s
  | .li c f => Sys2Proof.Machine.execLi c f s
  | .lis c f => Sys2Proof.Machine.execLis c f s
  | .b c f => Sys2Proof.Machine.execB c f s
  | .bl c f => Sys2Proof.Machine.execBl c f s
  | .beqz c f => Sys2Proof.Machine.execBeqz c f s
  | .bnez c f => Sys2Proof.Machine.execBnez c f s
  | .bp c f => Sys2Proof.Machine.execBp c f s
  | .bnp c f => Sys2Proof.Machine.execBnp c f s
  | .jr c f => Sys2Proof.Machine.execJr c f s
  -- Thorum: LOCAL (R70)
  | .ldlB c f => Sys2Proof.Machine.execLdlB c f s
  | .ldlH c f => Sys2Proof.Machine.execLdlH c f s
  | .ldlW c f => Sys2Proof.Machine.execLdlW c f s
  | .ldlD c f => Sys2Proof.Machine.execLdlD c f s
  | .ldd c f => Sys2Proof.Machine.execLdd c f s
  | .stlB c f => Sys2Proof.Machine.execStlB c f s
  | .stlH c f => Sys2Proof.Machine.execStlH c f s
  | .stlW c f => Sys2Proof.Machine.execStlW c f s
  | .stlD c f => Sys2Proof.Machine.execStlD c f s
  | .std c f => Sys2Proof.Machine.execStd c f s
  -- Thorum: spaces, copies, engines, waiting
  | .ld c f => Sys2Proof.Machine.execLd c f s
  | .st c f => Sys2Proof.Machine.execSt c f s
  | .atomInstr c f => Sys2Proof.Machine.execAtomInstr c f s
  | .copy c f => Sys2Proof.Machine.execCopy c f s
  | .enq c f => Sys2Proof.Machine.execEnq c f s
  | .waitT c f => Sys2Proof.Machine.execWaitT c f s
  | .waitE c f => Sys2Proof.Machine.execWaitE c f s
  | .waitETimeout c => Sys2Proof.Machine.execWaitETimeout c s
  | .waitC c f => Sys2Proof.Machine.execWaitC c f s
  | .waitCExpiry c => Sys2Proof.Machine.execWaitCExpiry c s
  | .rel c f => Sys2Proof.Machine.execRel c f s
  | .acq c f => Sys2Proof.Machine.execAcq c f s
  | .fenceM c f => Sys2Proof.Machine.execFenceM c f s
  | .msgSend c f => Sys2Proof.Machine.execMsgSend c f s
  | .msgRecv c f => Sys2Proof.Machine.execMsgRecv c f s
  | .ses c f => Sys2Proof.Machine.execSes c f s
  | .ver c f => Sys2Proof.Machine.execVer c f s
  | .dins c f => Sys2Proof.Machine.execDins c f s
  | .dext c f => Sys2Proof.Machine.execDext c f s
  | .dmov c f => Sys2Proof.Machine.execDmov c f s
  | .dclr c f => Sys2Proof.Machine.execDclr c f s
  | .csrr c f => Sys2Proof.Machine.execCsrr c f s
  | .csrw c f => Sys2Proof.Machine.execCsrw c f s
  | .rdtb c f => Sys2Proof.Machine.execRdtb c f s
  | .rdcue c f => Sys2Proof.Machine.execRdcue c f s
  | .evt c f => Sys2Proof.Machine.execEvt c f s
  | .trap c f => Sys2Proof.Machine.execTrap c f s
  | .endScript c f => Sys2Proof.Machine.execEndScript c f s
  | .undefinedEncoding c w => Sys2Proof.Machine.execUndefinedEncoding c w s
  -- reserved encodings and the remaining ports
  | .reservedType link typ t => Sys2Proof.Machine.execReservedType link typ t s
  | .reservedCmsg link cmsg m => Sys2Proof.Machine.execReservedCmsg link cmsg m s
  | .reservedPtype link ptype f => Sys2Proof.Machine.execReservedPtype link ptype f s
  | .cxlPortRetrain width rate => Sys2Proof.Machine.execCxlPortRetrain width rate s
  | .tapInstruction ir => Sys2Proof.Machine.execTapInstruction ir s
  | .malformedCsrRead addr size => Sys2Proof.Machine.execMalformedCsrRead addr size s

end Sys2Proof.Machine
end

