-- ==== Sys2Proof/Safety.lean ====
section
/-! DEFINITION. The terms that statements about the block use: a device that runs, what a command yields, what an instruction of a
script changes, and the canonical form of memory. -/

namespace Sys2Proof.Machine

/-! ## Commands -/

/-- The device is powered and its boot ROM has not stopped it. RESET_N and POWER_DOWN act on any other device too (R543, R546). -/
def State.live (s : State) : Prop := s.dev.pwr.powered = true ∧ s.dev.pwr.romFatal = false

/-- The command completes: the device becomes d, and the queue stays. -/
def Yields (i : Instr) (s : State) (d : Dev) : Prop := exec i s = .next { s with dev := d }

/-- The commands that act on a device that is not live. -/
def actsAlways : Instr → Bool
  | .resetN _ => true
  | .powerDown => true
  | _ => false

/-- The device serves the mailbox: it is READY and not fatal. [DEDUCED: log 114] -/
def State.serves (s : State) : Prop := s.live ∧ s.dev.flt.fatal = false ∧ s.dev.pwr.ready = true

/-! ## Requests that arrive -/

/-- The device once a transaction has been taken from its link's buffer, policed, and written into cells of its ingress queue; its
colour. -/
def Dev.ingress (d : Dev) (k typ : Nat) (t : Txn) : Dev × Color :=
  let f := d.holdRx k 0
  let x := f.1.admitWire k typ t
  (x.1.joinIngress k typ t x.2 f.2, x.2)

/-- The front packet of an ingress queue leaves its cells. -/
def Dev.outOfIngress (d : Dev) (k tc : Nat) : Dev :=
  match d.swQ (ingressQ k tc) with
  | p :: _ => (d.leaveQ (ingressQ k tc) p).progress (ingressQ k tc)
  | [] => d

/-- The device, and the identity of the request, once its consumer has taken it from its ingress cells and the cells of its answer are
reserved. -/
def Dev.takenIn (d : Dev) (k typ : Nat) (t : Txn) : Dev × ReqId :=
  let x := ((d.ingress k typ t).1.outOfIngress k t.tc.toNat).reqId k typ t
  (x.1.reserve k x.2.rsv, x.2)

/-- A transaction is not turned away before its checks: it can arrive on its link, the marker lets it pass, nothing waits before it, its
answer cells are free, and the device is not fatal. -/
def Dev.passes (d : Dev) (k typ : Nat) (t : Txn) : Prop :=
  let x := d.ingress k typ t
  d.mayArrive k typ t = true ∧ x.2 ≠ .red ∧ d.swQ (ingressQ k t.tc.toNat) = [] ∧ x.1.rsvFits k (answerCells typ t) = true ∧
    d.flt.fatal = false

/-- Command i is the arrival of request t of TYPE typ on link k: where no check of R137 refuses it and its tag has no record, it gets one
and runs; where a check refuses it, it is refused with that status. -/
def ArrivesAs (i : Instr) (k typ : Nat) (t : Txn) : Prop :=
  ∀ (s : State), s.live → s.dev.passes k typ t →
    let x := s.dev.takenIn k typ t
    (∀ p, x.1.checkRequest k typ t = .ok → x.1.streamPart k t.stream.toNat = some p → x.1.tagRec k t.tag = none →
      Yields i s (((((x.1.setTagRec k t.tag (freshTag x.2 typ)).noteAccepted typ x.2 t).noteMesh typ t k).runRequest handlers.oper) p typ x.2
        t).settleAll) ∧
    (x.1.checkRequest k typ t ≠ .ok → Yields i s (x.1.refuse typ x.2 (x.1.checkRequest k typ t)).settleAll)

/-- Command i is the arrival of MSG t on PEER link k. One for this device that no check refuses, and whose tag has no record, is stored
or goes to its engine; one for another device is forwarded. -/
def ArrivesAsMsg (i : Instr) (k : Nat) (t : Txn) : Prop :=
  ∀ (s : State), s.live → s.dev.passes k 5 t →
    let y := s.dev.ingress k 5 t
    let x := s.dev.takenIn k 5 t
    (t.route.dstDev.toNat = s.dev.devId → s.dev.role k = 3 → x.1.checkMsg k t = .ok →
      Tab.find? x.1.txn.msgTags (msgKey t.route.srcDev.toNat t.tag) = none → Yields i s (x.1.freshMsg handlers.notice x.2 t).settleAll) ∧
    (t.route.dstDev.toNat ≠ s.dev.devId → s.dev.role k = 3 →
      Yields i s ((y.1.outOfIngress k t.tc.toNat).forwardMsg t y.2).settleAll)

/-! ## Memory -/

/-- The canonical form of NEAR and STRATUM: every table rises, and lists nothing that an unlisted key reads as. -/
abbrev Mem.wf (m : Mem) : Prop := Tab.Wf 0 m.bytes ∧ Tab.Wf false m.marks ∧ Tab.Wf Ecc.good m.ecc ∧ Tab.Wf false m.dirty

/-- No granule is marked or holds an error. -/
def Mem.clean (m : Mem) : Prop := ∀ g, Tab.get false m.marks g = false ∧ Tab.get Ecc.good m.ecc g = .good

/-! ## Coherence messages -/

/-- The NEAR line that a coherence message names. -/
def cohLine (m : CohMsg) : Nat := offOf m.addr.toNat / 128

/-- A message of the REQ channel is a new request for a line of NEAR: well formed, on a link of its agent, no repeat, of a way that the
agent has, while the device is not fatal. -/
def Dev.newRequest (d : Dev) (k cmsg : Nat) (m : CohMsg) : Prop :=
  cohMalformed cmsg m = false ∧ d.cohTaken k m = true ∧ d.flt.fatal = false ∧ spaceOf m.addr.toNat = 1 ∧
    offOf m.addr.toNat < nearSize ∧ m.addr.toNat % 128 = 0 ∧ d.cohRepeat k (cohLine m) m = none ∧ m.way.toNat < d.caWays m.ca.toNat

/-- A new request may fill the way it names: the agent is active, the line is its partition's, and no other line is in the way. -/
def Dev.mayFill (d : Dev) (m : CohMsg) : Prop :=
  d.caState m.ca.toNat = .active ∧ d.owns (d.caPart m.ca.toNat) m.addr.toNat 128 = true ∧ inPromptBook m.addr.toNat 128 = false ∧
    ∀ e, Tab.find? d.coh.filter (d.wayKey m.ca.toNat (cohLine m) m.way.toNat) = some e → e.line = (cohLine m)

/-! ## Engines -/

/-- Engine e, which is not hung, works next on descriptor x of partition p: one of this class and operation, whose first checks pass where
it is new, which is attached where it must be, and for whose work unit the partition has slots left in the cue. -/
def State.starts (s : State) (e : EngId) (p cls op : Nat) (pre : Dev → DescEntry → Status) (x : DescEntry) : Prop :=
  s.live ∧ e.cls = cls ∧ e ∉ s.dev.eng.hung ∧ s.dev.atWork e p = some x ∧ x.op = op ∧ (x.work = 0 → pre s.dev x = .ok) ∧
    x.unattached = false ∧ (s.dev.engSlot e p).isSome = true

/-- The device on which the body of a work unit runs: its slots taken, its party named, and the unit counted. -/
def Dev.unitOf (d : Dev) (e : EngId) (p : Nat) (x : DescEntry) : Dev × DescEntry :=
  let d := d.engSlotted e p
  ({ d with coh := { d.coh with party := descParty x.id } } : Dev).startUnit e x

/-- The device after a work unit, its party as before. -/
def Dev.endUnit (d before : Dev) : Dev := { d with coh := { d.coh with party := before.coh.party } }

/-- Command i is one work unit of engine e on descriptor x: slots taken, the unit counted, then the body. -/
def UnitRuns (i : Instr) (e : EngId) (p : Nat) (s : State) (x : DescEntry) (body : Dev → DescEntry → Dev) : Prop :=
  Yields i s ((body (s.dev.unitOf e p x).1 (s.dev.unitOf e p x).2).endUnit s.dev)

/-- The command of an operation of a class. It runs a unit of the front descriptor with the body; a check that fails ends a new descriptor
without a unit; where the partition has no slots left, the engine is hung or has no work, or a shadow is due, nothing happens. -/
def RunsUnits (i : EngId → Nat → Instr) (cls op : Nat) (pre : EngId → Dev → DescEntry → Status) (body : EngId → Dev → DescEntry → Dev) : Prop :=
  ∀ (e : EngId) (p : Nat) (s : State),
    ((cls = 0 → s.dev.shadowDue e p = false) → ∀ x,
      (s.starts e p cls op (pre e) x → UnitRuns (i e p) e p s x (body e)) ∧
      (s.live → e.cls = cls → e ∉ s.dev.eng.hung → s.dev.atWork e p = some x → x.op = op → x.work = 0 → pre e s.dev x ≠ .ok →
        Yields (i e p) s (s.dev.failDesc x (pre e s.dev x))) ∧
      (s.dev.atWork e p = some x → s.dev.engSlot e p = none → (x.work = 0 → pre e s.dev x = .ok) → exec (i e p) s = .next s)) ∧
    ((e ∈ s.dev.eng.hung ∨ s.dev.atWork e p = none ∨ (cls = 0 ∧ s.dev.shadowDue e p = true)) → exec (i e p) s = .next s)

/-! ## Operations on regions -/

/-- The host's command i of a code does operation q on the region it names. It is answered at once where the device is fatal, not READY, or no
region has that ID; it waits behind operations of the region that are under way; a region of a session, and one under DESTROY, allow OPEN and CLOSE
alone. -/
def HostOp (i : RegionId → Instr) (op : Nat) (q : VerReq) : Prop :=
  ∀ (r : RegionId) (s : State), s.live →
    (s.dev.flt.fatal = true → Yields (i r) s (s.dev.emit (.mailbox op .poison []))) ∧
    (s.dev.flt.fatal = false → s.dev.pwr.ready = false → Yields (i r) s (s.dev.emit (.mailbox op .busy []))) ∧
    (s.serves → s.dev.regionFor none r = none → Yields (i r) s (s.dev.emit (.mailbox op .badRequest []))) ∧
    (∀ x, s.serves → s.dev.regionFor none r = some x →
      (s.dev.regionBusy r.index = true →
        Yields (i r) s { s.dev with ver := { s.dev.ver with waiting := s.dev.ver.waiting ++ [(.mailbox op, r, q)] } }) ∧
      (s.dev.regionBusy r.index = false →
        (x.session ≠ 0 → q.openClose = false → Yields (i r) s (s.dev.emit (.mailbox op .access []))) ∧
        (x.session = 0 → x.dying.isSome = true → q.openClose = false → Yields (i r) s (s.dev.emit (.mailbox op .badRequest []))) ∧
        ((q.openClose = true ∨ (x.session = 0 ∧ x.dying = none)) → Yields (i r) s (s.dev.verDo r.index (.mailbox op) q))))

/-! ## Sessions -/

/-- Record i of the session table lies in NEAR or STRATUM, on whole granules. -/
def Dev.tableAt (d : Dev) (id : Nat) : Prop := inMem (d.recAt id) 128 = true ∧ d.recAt id % 64 = 0 ∧ id < 2 ^ 24

/-- A transaction of TYPE typ with the fields that its bytes carry, and no others: its payload of LEN bytes, and what follows its header. -/
def spelt (typ : Nat) (t : Txn) : Prop :=
  t.rsv = false ∧ t.data.length = (if typ = 0 then 0 else t.len.toNat) ∧
  (typ ≠ 2 → t.flagAddr = 0 ∧ t.flagVal = 0 ∧ t.priorCnt = 0 ∧ t.prevRseq = 0 ∧ t.prevV = false) ∧
  (typ ≠ 4 → t.opcode = 0 ∧ t.nops = 0 ∧ t.ops = []) ∧ (typ = 4 → t.addr = 0 ∧ t.ops.length = t.nops.toNat) ∧
  (typ ≠ 5 → t.route = blankTxn.route)

/-- A region ID is within its 40 bits. -/
def idFits (r : RegionId) : Prop := r.index < 2 ^ 25 ∧ r.gen < 2 ^ 15

def Bed.fits (b : Bed) : Prop := idFits b.region ∧ b.version < 2 ^ 32 ∧ b.first < 2 ^ 15 ∧ b.rows < 2 ^ 15

/-- Every field of a record is within its width (R381). -/
def SesRec.fits (r : SesRec) : Prop :=
  r.part < 2 ^ 4 ∧ r.owner < 2 ^ 12 ∧ r.tier < 2 ∧ r.policy < 2 ^ 2 ∧ r.op < 2 ^ 4 ∧ r.phase < 2 ^ 4 ∧ r.epoch < 2 ^ 32 ∧ 1 ≤ r.layers ∧ r.layers ≤ 2 ^ 8 ∧
  1 ≤ r.groups ∧ r.groups ≤ 2 ^ 8 ∧ 32 ≤ r.dim ∧ r.dim ≤ 256 ∧ r.dim % 32 = 0 ∧ r.fmt < 2 ^ 4 ∧ r.len < 2 ^ 23 ∧ r.maxRows < 2 ^ 16 ∧ r.map < 2 ^ 64 ∧
  idFits r.region ∧ r.peerDev < 2 ^ 12 ∧ r.peerPart < 2 ^ 4 ∧ r.peerSes < 2 ^ 24 ∧ r.logVer < 2 ^ 32 ∧ r.logPos < 2 ^ 23 ∧ r.tail0 < 2 ^ 15 ∧
  r.beds.length ≤ 4 ∧ (∀ b ∈ r.beds, b.fits) ∧ r.prior < 2 ∧ r.stamp < 2 ^ 64

/-- The host's command i starts operation op on a session, with its checks in their order (R391, R392): what is malformed, the checks of the
record, RETRY_FROM_START after a takeover, an operation in progress, and the table of states; else it runs as k says. -/
def SesStarts (i : Instr) (code op id : Nat) (bad : Dev → Bool) (k : Dev → SesRec → Dev) : Prop :=
  ∀ (s : State), s.serves →
    let d := s.dev
    let r := d.sesRec id
    let say := fun (x : Dev) (st : Status) => x.sesTell d (.mailbox code) id op 0 st []
    let retry := r.op = 8 ∧ op ≠ 7 ∧ op ≠ 11
    (bad d = true → Yields i s (say d .badRequest)) ∧
    (bad d = false → d.sesCheck none id ≠ .ok → Yields i s (say d (d.sesCheck none id))) ∧
    (bad d = false → d.sesCheck none id = .ok →
      (retry → Yields i s (say ((d.setSes id { r with op := 0 }).bump PAIR_RETRY_CNT) .retryFromStart)) ∧
      (¬retry → (d.sesOp id).isSome = true → op ≠ 12 → Yields i s (say d .busy)) ∧
      (¬retry → (d.sesOp id = none ∨ op = 12) →
        (∀ st, stateRule op r.state = some st → Yields i s (say d st)) ∧ (stateRule op r.state = none → Yields i s (k d r))))

/-! ## Instructions of a script -/

/-- Context c issues the legal word w now: it runs, w stands at its PC, none of the named g registers is waited for, and its core has an
issue slot for it. -/
def State.issues (s : State) (c : CtxId) (w : BitVec 32) (regs : List Nat) : Prop :=
  s.live ∧ s.dev.issues c w regs = true ∧ staticOk w = true

/-- Nothing but context c and the account of the cue's slots differs: no other context, no register, no byte of memory, no queue. -/
def OnlyCtx (s t : State) (c : CtxId) : Prop :=
  t.pending = s.pending ∧ (∀ c' : CtxId, ctxKey c' ≠ ctxKey c → t.dev.ctx c' = s.dev.ctx c') ∧
    { t.dev with
      thr := { t.dev.thr with ctxs := s.dev.thr.ctxs }
      cue := { t.dev.cue with ptr := s.dev.cue.ptr, gone := s.dev.cue.gone, credit := s.dev.cue.credit } } = s.dev

/-- The instruction retired and wrote v to g[rd]; g0 keeps reading 0; nothing else of the context changed. -/
def GWritten (x y : Ctx) (rd : Nat) (v : Word) : Prop :=
  y.pc = x.pc + 1 ∧ (∀ r, y.gr r = if r = rd ∧ r ≠ 0 then v else x.gr r) ∧
    { y with g := x.g, pc := x.pc, idleCues := x.idleCues } = x

/-- The instruction retired and wrote v to p[rd]; p0 keeps reading 1; nothing else of the context changed. -/
def PWritten (x y : Ctx) (rd : Nat) (v : Bool) : Prop :=
  y.pc = x.pc + 1 ∧ (∀ r, r < 8 → y.pr r = if r = rd ∧ r ≠ 0 then v else x.pr r) ∧
    { y with p := x.p, pc := x.pc, idleCues := x.idleCues } = x

/-- The instruction retired and wrote v to d[rd]; nothing else of the context changed. -/
def DWritten (x y : Ctx) (rd : Nat) (v : Desc) : Prop :=
  y.pc = x.pc + 1 ∧ (∀ r, y.dr r = if r = rd then v else x.dr r) ∧ { y with d := x.d, pc := x.pc, idleCues := x.idleCues } = x

/-- One byte of a context's LOCAL. -/
def Ctx.localByte (x : Ctx) (a : Nat) : Byte := Tab.get 0 x.loc a

/-- The instruction retired and stored n bytes, byte i being v i, at LOCAL offset a; nothing else of the context changed. -/
def LWritten (x y : Ctx) (a n : Nat) (v : Nat → Byte) : Prop :=
  y.pc = x.pc + 1 ∧ (∀ b, y.localByte b = if a ≤ b ∧ b < a + n then v (b - a) else x.localByte b) ∧
    { y with loc := x.loc, pc := x.pc, idleCues := x.idleCues } = x

/-- The instruction retired at the given next PC and changed nothing else of the context. -/
def Jumped (x y : Ctx) (pc : Nat) : Prop := y = { x with pc := pc, idleCues := 0 }

/-- Wherever context c issues w in a state of the context that p admits, command i completes and changes the context as q says,
and nothing else. -/
def ActsIf (i : Instr) (c : CtxId) (w : BitVec 32) (regs : List Nat) (p : Ctx → Prop) (q : Ctx → Ctx → Prop) : Prop :=
  ∀ s : State, s.issues c w regs → p (s.dev.ctx c) → ∃ t, exec i s = .next t ∧ OnlyCtx s t c ∧ q (s.dev.ctx c) (t.dev.ctx c)

/-- Wherever context c issues w, command i completes and changes the context as q says, and nothing else. -/
def Acts (i : Instr) (c : CtxId) (w : BitVec 32) (regs : List Nat) (q : Ctx → Ctx → Prop) : Prop :=
  ActsIf i c w regs (fun _ => True) q

/-- Instruction t, an event of kind i, writes g[rd] with v of g[ra] and g[rb]. -/
def Binary (i : CtxId → RegF → Instr) (t : RegF → ThInstr) (v : Word → Word → Word) : Prop :=
  ∀ (c : CtxId) (f : RegF), Acts (i c f) c (encode (t f)) [f.rd.toNat, f.ra.toNat, f.rb.toNat]
    (fun x y => GWritten x y f.rd.toNat (v (x.gr f.ra.toNat) (x.gr f.rb.toNat)))

/-- Instruction t, an event of kind i, writes g[rd] with v of g[ra]. -/
def Unary (i : CtxId → RegF → Instr) (t : RegF → ThInstr) (v : Word → Word) : Prop :=
  ∀ (c : CtxId) (f : RegF), Acts (i c f) c (encode (t f)) [f.rd.toNat, f.ra.toNat]
    (fun x y => GWritten x y f.rd.toNat (v (x.gr f.ra.toNat)))

/-- Instruction t, an event of kind i, writes p[rd] with whether v holds of g[ra] and g[rb]. -/
def Compares (i : CtxId → RegF → Instr) (t : RegF → ThInstr) (v : Word → Word → Prop) : Prop :=
  ∀ (c : CtxId) (f : RegF), Acts (i c f) c (encode (t f)) [f.ra.toNat, f.rb.toNat]
    (fun x y => ∃ r : Bool, PWritten x y f.rd.toNat r ∧ (r = true ↔ v (x.gr f.ra.toNat) (x.gr f.rb.toNat)))

/-- Instruction t, an event of kind i, writes p[rd] with v of p[ra] and p[rb]. -/
def OnPreds (i : CtxId → RegF → Instr) (t : RegF → ThInstr) (v : Bool → Bool → Bool) : Prop :=
  ∀ (c : CtxId) (f : RegF), Acts (i c f) c (encode (t f)) []
    (fun x y => PWritten x y f.rd.toNat (v (x.pr f.ra.toNat) (x.pr f.rb.toNat)))

/-- Instruction t, an event of kind i, writes g[rd] with v of g[ra] and imm14. -/
def WithImm (i : CtxId → ImmF → Instr) (t : ImmF → ThInstr) (v : Word → BitVec 14 → Word) : Prop :=
  ∀ (c : CtxId) (f : ImmF), Acts (i c f) c (encode (t f)) [f.rd.toNat, f.ra.toNat]
    (fun x y => GWritten x y f.rd.toNat (v (x.gr f.ra.toNat) f.imm))

/-- Branch t, an event of kind i: the PC goes to pc + off20 where p holds, else to pc + 1; nothing else of the context changes. -/
def Branches (i : CtxId → BrF → Instr) (t : BrF → ThInstr) (regs : BrF → List Nat) (p : BrF → Ctx → Prop) : Prop :=
  ∀ (c : CtxId) (f : BrF), Acts (i c f) c (encode (t f)) (regs f)
    (fun x y => (p f x → Jumped x y (BitVec.ofNat 64 x.pc + f.off.signExtend 64).toNat) ∧ (¬p f x → Jumped x y (x.pc + 1)))

/-- A LOCAL load of n bytes: byte k of g[rd] is the byte at the address plus k, and the higher bytes are 0. -/
def LoadsLocal (i : CtxId → ImmF → Instr) (t : ImmF → ThInstr) (n : Nat) : Prop :=
  ∀ (c : CtxId) (f : ImmF), ActsIf (i c f) c (encode (t f)) [f.rd.toNat, f.ra.toNat] (fun x => badLocal (memAddr x f n) n = false)
    (fun x y => ∃ v : Word, GWritten x y f.rd.toNat v ∧
      ∀ k, k < 8 → v.extractLsb' (8 * k) 8 = if k < n then x.localByte ((memAddr x f n).toNat + k) else 0)

/-- A LOCAL store of the n low bytes of g[rd]. -/
def StoresLocal (i : CtxId → ImmF → Instr) (t : ImmF → ThInstr) (n : Nat) : Prop :=
  ∀ (c : CtxId) (f : ImmF), ActsIf (i c f) c (encode (t f)) [f.rd.toNat, f.ra.toNat]
    (fun x => badLocal (memAddr x f n) n = false ∧ inImages (memAddr x f n).toNat = false)
    (fun x y => LWritten x y (memAddr x f n).toNat n (fun k => (x.gr f.rd.toNat).extractLsb' (8 * k) 8))

/-- A ticket of a kind is issued: in the lowest free slot, with the slot's next generation; its value is written to g[rd], and the
instruction retires. -/
def TicketTaken (x y : Ctx) (kind : TicketKind) (rd slot gen : Nat) : Prop :=
  slot < 64 ∧ Tab.find? x.tickets slot = none ∧ (∀ j, j < slot → (Tab.find? x.tickets j).isSome = true) ∧ gen = Tab.get 0 x.gens slot ∧
    Tab.find? y.tickets slot = some { gen := gen, kind := kind, done := none, lost := false, seq := x.issued } ∧
    (∀ j, j ≠ slot → Tab.find? y.tickets j = Tab.find? x.tickets j) ∧ Tab.get 0 y.gens slot = (gen + 1) % 1024 ∧ y.pc = x.pc + 1 ∧
    (∀ r, y.gr r = if r = rd ∧ r ≠ 0 then BitVec.ofNat 64 (slot + gen % 1024 * 64) else x.gr r) ∧
    { y with g := x.g, pc := x.pc, idleCues := x.idleCues, tickets := x.tickets, gens := x.gens, issued := x.issued } = x

/-- Where context c issues w in a context that p admits, command i raises exception e at the instruction. -/
def RaisesIf (i : Instr) (c : CtxId) (w : BitVec 32) (regs : List Nat) (p : Ctx → Prop) (e : Exc) : Prop :=
  ∀ s : State, s.issues c w regs → p (s.dev.ctx c) → Yields i s ((s.dev.slotted c).raise c e .ok (s.dev.ctx c).pc w)

end Sys2Proof.Machine
end

