-- ==== Sys2Proof/Certificates/Slice0/Obligations.lean ====
section
/-! DEFINITION. The statements for the provers. A statement says of every state what a command does there, by the rules of the manual that its
docstring names; live states are those of a device that is powered and not held in its boot ROM (Sys2Proof/Safety.lean). -/

open Sys2Proof Sys2Proof.Machine

/-! ## The block and its commands -/

/-- A step takes the command at the front of the queue and is its effect on the state with the rest of the queue. -/
def Obligations.StepTakesFront : Prop :=
  ∀ (c : Instr) (rest : List Instr) (s : State), s.pending = c :: rest → step s = exec c { s with pending := rest }

/-- Every command completes: it neither faults nor is refused, and leaves the queue as it was. A device that is off or held in its boot ROM
changes by RESET_N and POWER_DOWN alone; an empty queue changes nothing (the model's choice, log entries 1 and 3). -/
def Obligations.EveryCommandCompletes : Prop :=
  (∀ (i : Instr) (s : State), ∃ t, exec i s = .next t ∧ t.pending = s.pending) ∧
  (∀ (i : Instr) (s : State), ¬s.live → actsAlways i = false → exec i s = .next s) ∧
  (∀ s : State, s.pending = [] → step s = .next s)

/-- R35, R54, R55, R546, R547: after reset release TBASE and CUE_COUNT are 0, the timebase is UNLOCKED, the device is not READY, NEAR and
STRATUM hold zeros without a mark, nothing is cached, loaded, open or paired, and no command waits. -/
def Obligations.ResetState : Prop :=
  let d := State.reset.dev
  State.reset.pending = [] ∧ State.reset.live ∧ d.tb.tbase = 0 ∧ d.tb.sub = 0 ∧ d.tb.cueCount = 0 ∧ d.tb.state = .unlocked ∧
    d.tb.cueLen = 900 ∧ d.pwr.ready = false ∧ d.flt.fatal = false ∧ d.pair.state = .unpaired ∧ (∀ a, d.mem.byte a = 0) ∧ d.mem.clean ∧
    Mem.wf d.mem ∧ (∀ c : CtxId, (d.ctx c).run = .free) ∧ (∀ ca line, d.entryOf ca line = none) ∧ (∀ ca, d.caState ca = .disabled) ∧
    (∀ e p, d.engQ e p = []) ∧ d.rdc.groups = [] ∧ d.ses.used = [] ∧ d.sw.cells = []

/-! ## Thorum: words -/

/-- R561, R564, R565: words written out from the encoding tables. -/
def Obligations.SampleWords : Prop :=
  decode 0xE4800021 = some (.trap { p := 1, z := 0, imm := 0x21 }) ∧
  decode 0x60000CC0 = some (.ldd { rd := 0, ra := 0, imm := 0xCC0 }) ∧
  decode 0xC004207E = some (.dins { dd := 0, ra := 4, pos := 64, wm1 := 63, z := 0 }) ∧
  decode 0x98F38000 = some (.waitT { rd := 15, ra := 14, rb := 0, fn := 0 }) ∧
  decode 0x3CF00003 = some (.bnez { ra := 15, off := 3 }) ∧ decode 0xE8001000 = some (.endScript { rd := 0, ra := 0, rb := 16, fn := 0 })

/-- Decoding the word of a legal instruction gives it back, and every legal word is the word of one instruction: no bit of a legal word is
dropped, whatever its operands. -/
def Obligations.DecodeEncode : Prop :=
  (∀ i : ThInstr, staticOk (encode i) = true → decode (encode i) = some i) ∧
  (∀ w : BitVec 32, staticOk w = true → ∃ i, decode w = some i ∧ encode i = w) ∧ (∀ w : BitVec 32, staticOk w = false → decode w = none)

/-! ## Thorum: registers, predicates, branches and LOCAL -/

/-- R565: the two-operand ALU instructions. Products and quotients are exact; shift amounts are bits [5:0]; division by 0 gives all ones, and
its remainder g[ra]. R565: the one-operand ALU instructions and sel. R564: immediates. addi sign-extends imm14, the bitwise ones zero-extend
it, and shifts take their amount from it. -/
def Obligations.AluResults : Prop :=
  (Binary .add .add (fun a b => a + b) ∧ Binary .sub .sub (fun a b => a - b) ∧ Binary .and .and (fun a b => a &&& b) ∧
    Binary .or .or (fun a b => a ||| b) ∧ Binary .xor .xor (fun a b => a ^^^ b) ∧
    Binary .shl .shl (fun a b => a <<< (b.toNat % 64)) ∧ Binary .shr .shr (fun a b => a >>> (b.toNat % 64)) ∧
    Binary .sra .sra (fun a b => a.sshiftRight (b.toNat % 64)) ∧ Binary .mul .mul (fun a b => a * b) ∧
    Binary .mulhu .mulhu (fun a b => (a.zeroExtend 128 * b.zeroExtend 128).extractLsb' 64 64) ∧
    Binary .mulh .mulh (fun a b => (a.signExtend 128 * b.signExtend 128).extractLsb' 64 64) ∧
    Binary .divu .divu (fun a b => if b = 0 then BitVec.allOnes 64 else a / b) ∧
    Binary .remu .remu (fun a b => if b = 0 then a else a % b) ∧
    Binary .min .min (fun a b => if a.toInt ≤ b.toInt then a else b) ∧ Binary .max .max (fun a b => if a.toInt ≤ b.toInt then b else a) ∧
    Binary .minu .minu (fun a b => if a ≤ b then a else b) ∧ Binary .maxu .maxu (fun a b => if a ≤ b then b else a)) ∧
  (Unary .sxtb .sxtb (fun a => (a.truncate 8).signExtend 64) ∧ Unary .sxth .sxth (fun a => (a.truncate 16).signExtend 64) ∧
    Unary .sxtw .sxtw (fun a => (a.truncate 32).signExtend 64) ∧ Unary .clz .clz (fun a => a.clz) ∧
    Unary .popc .popc (fun a => BitVec.ofNat 64 ((List.range 64).countP (a.getLsbD ·))) ∧
    (∀ (c : CtxId) (f : RegF) (p : BitVec 3), Acts (.sel c f p) c (encode (.sel f p)) [f.rd.toNat, f.ra.toNat, f.rb.toNat]
      (fun x y => GWritten x y f.rd.toNat (if x.pr p.toNat then x.gr f.ra.toNat else x.gr f.rb.toNat)))) ∧
  (WithImm .addi .addi (fun a i => a + i.signExtend 64) ∧ WithImm .andi .andi (fun a i => a &&& i.zeroExtend 64) ∧
    WithImm .ori .ori (fun a i => a ||| i.zeroExtend 64) ∧ WithImm .xori .xori (fun a i => a ^^^ i.zeroExtend 64) ∧
    WithImm .shli .shli (fun a i => a <<< (i.toNat % 64)) ∧ WithImm .shri .shri (fun a i => a >>> (i.toNat % 64)) ∧
    WithImm .srai .srai (fun a i => a.sshiftRight (i.toNat % 64)) ∧
    (∀ (c : CtxId) (f : LongF), Acts (.li c f) c (encode (.li f)) [f.rd.toNat] (fun x y => GWritten x y f.rd.toNat (f.imm.signExtend 64))) ∧
    (∀ (c : CtxId) (f : LongF), Acts (.lis c f) c (encode (.lis f)) [f.rd.toNat] (fun x y =>
      GWritten x y f.rd.toNat ((x.gr f.rd.toNat).extractLsb' 0 44 ++ f.imm))))

/-- R564, R565: compares write one predicate register; cmpi by its CC, whose immediate is zero-extended for ltu, leu and gtu. R565: moves and
operations of predicate registers. -/
def Obligations.CompareResults : Prop :=
  (Compares .cmpeq .cmpeq (fun a b => a = b) ∧ Compares .cmpne .cmpne (fun a b => a ≠ b) ∧
    Compares .cmplt .cmplt (fun a b => a.toInt < b.toInt) ∧ Compares .cmpltu .cmpltu (fun a b => a.toNat < b.toNat) ∧
    Compares .cmple .cmple (fun a b => a.toInt ≤ b.toInt) ∧ Compares .cmpleu .cmpleu (fun a b => a.toNat ≤ b.toNat) ∧
    Compares .cmpgt .cmpgt (fun a b => b.toInt < a.toInt) ∧ Compares .cmpgtu .cmpgtu (fun a b => b.toNat < a.toNat) ∧
    Compares .cmpge .cmpge (fun a b => b.toInt ≤ a.toInt) ∧ Compares .cmpgeu .cmpgeu (fun a b => b.toNat ≤ a.toNat) ∧
    (∀ (c : CtxId) (f : CmpF), Acts (.cmpi c f) c (encode (.cmpi f)) [f.ra.toNat] (fun x y =>
      let a := x.gr f.ra.toNat
      ∃ r : Bool, PWritten x y f.pd.toNat r ∧
        (f.cc = 0 → (r = true ↔ a = f.imm.signExtend 64)) ∧ (f.cc = 1 → (r = true ↔ a ≠ f.imm.signExtend 64)) ∧
        (f.cc = 2 → (r = true ↔ a.toInt < f.imm.toInt)) ∧ (f.cc = 3 → (r = true ↔ a.toNat < f.imm.toNat)) ∧
        (f.cc = 4 → (r = true ↔ a.toInt ≤ f.imm.toInt)) ∧ (f.cc = 5 → (r = true ↔ a.toNat ≤ f.imm.toNat)) ∧
        (f.cc = 6 → (r = true ↔ f.imm.toInt < a.toInt)) ∧ (f.cc = 7 → (r = true ↔ f.imm.toNat < a.toNat))))) ∧
  (OnPreds .pand .pand (fun a b => a && b) ∧ OnPreds .por .por (fun a b => a || b) ∧ OnPreds .pxor .pxor (fun a b => a ^^ b) ∧
    (∀ (c : CtxId) (f : RegF), Acts (.pnot c f) c (encode (.pnot f)) [] (fun x y => PWritten x y f.rd.toNat (!x.pr f.ra.toNat))) ∧
    (∀ (c : CtxId) (f : RegF), Acts (.pmov c f) c (encode (.pmov f)) [f.ra.toNat]
      (fun x y => PWritten x y f.rd.toNat (decide (x.gr f.ra.toNat ≠ 0)))) ∧
    (∀ (c : CtxId) (f : RegF), Acts (.pget c f) c (encode (.pget f)) [f.rd.toNat]
      (fun x y => GWritten x y f.rd.toNat (if x.pr f.ra.toNat then 1 else 0))))

/-- R561, R564: branches. bl also writes the next PC into g[ra]. -/
def Obligations.BranchTargets : Prop :=
  Branches .b .b (fun _ => []) (fun _ _ => True) ∧
  Branches .beqz .beqz (fun f => [f.ra.toNat]) (fun f x => x.gr f.ra.toNat = 0) ∧
  Branches .bnez .bnez (fun f => [f.ra.toNat]) (fun f x => x.gr f.ra.toNat ≠ 0) ∧
  Branches .bp .bp (fun _ => []) (fun f x => x.pr f.ra.toNat = true) ∧
  Branches .bnp .bnp (fun _ => []) (fun f x => x.pr f.ra.toNat = false) ∧
  (∀ (c : CtxId) (f : RegFnF), Acts (.jr c f) c (encode (.jr f)) [f.ra.toNat] (fun x y => Jumped x y (x.gr f.ra.toNat).toNat)) ∧
  (∀ (c : CtxId) (f : BrF), Acts (.bl c f) c (encode (.bl f)) [f.ra.toNat] (fun x y =>
    y.pc = (BitVec.ofNat 64 x.pc + f.off.signExtend 64).toNat ∧
    (∀ r, y.gr r = if r = f.ra.toNat ∧ r ≠ 0 then BitVec.ofNat 64 (x.pc + 1) else x.gr r) ∧
    { y with g := x.g, pc := x.pc, idleCues := x.idleCues } = x))

/-- R10, R70: LOCAL loads, also of a whole descriptor. R10, R70: LOCAL stores: the stored bytes are those of g[rd] or d[rd], lowest first, and
every other byte of LOCAL stays. R69, R70, R88: a misaligned or too high LOCAL address raises BAD_LOCAL, and a store into the image range
ACCESS_VIOLATION. -/
def Obligations.LocalAccesses : Prop :=
  (LoadsLocal .ldlB .ldlB 1 ∧ LoadsLocal .ldlH .ldlH 2 ∧ LoadsLocal .ldlW .ldlW 4 ∧ LoadsLocal .ldlD .ldlD 8 ∧
    (∀ (c : CtxId) (f : ImmF), ActsIf (.ldd c f) c (encode (.ldd f)) [f.ra.toNat] (fun x => badLocal (memAddr x f 64) 64 = false)
      (fun x y => ∃ v : Desc, DWritten x y f.rd.toNat v ∧
        ∀ k, k < 64 → v.extractLsb' (8 * k) 8 = x.localByte ((memAddr x f 64).toNat + k)))) ∧
  (StoresLocal .stlB .stlB 1 ∧ StoresLocal .stlH .stlH 2 ∧ StoresLocal .stlW .stlW 4 ∧ StoresLocal .stlD .stlD 8 ∧
    (∀ (c : CtxId) (f : ImmF), ActsIf (.std c f) c (encode (.std f)) [f.ra.toNat]
      (fun x => badLocal (memAddr x f 64) 64 = false ∧ inImages (memAddr x f 64).toNat = false)
      (fun x y => LWritten x y (memAddr x f 64).toNat 64 (fun k => (x.dr f.rd.toNat).extractLsb' (8 * k) 8)))) ∧
  (∀ (c : CtxId) (f : ImmF),
      (∀ n, n ∈ [1, 2, 4, 8, 64] → ∀ x : Ctx,
        badLocal (memAddr x f n) n = true ↔ (memAddr x f n).toNat % n ≠ 0 ∨ 2 ^ 18 ≤ (memAddr x f n).toNat) ∧
      RaisesIf (.ldlB c f) c (encode (.ldlB f)) [f.rd.toNat, f.ra.toNat] (fun x => badLocal (memAddr x f 1) 1 = true) .badLocal ∧
      RaisesIf (.ldlH c f) c (encode (.ldlH f)) [f.rd.toNat, f.ra.toNat] (fun x => badLocal (memAddr x f 2) 2 = true) .badLocal ∧
      RaisesIf (.ldlW c f) c (encode (.ldlW f)) [f.rd.toNat, f.ra.toNat] (fun x => badLocal (memAddr x f 4) 4 = true) .badLocal ∧
      RaisesIf (.ldlD c f) c (encode (.ldlD f)) [f.rd.toNat, f.ra.toNat] (fun x => badLocal (memAddr x f 8) 8 = true) .badLocal ∧
      RaisesIf (.ldd c f) c (encode (.ldd f)) [f.ra.toNat] (fun x => badLocal (memAddr x f 64) 64 = true) .badLocal ∧
      RaisesIf (.stlD c f) c (encode (.stlD f)) [f.rd.toNat, f.ra.toNat] (fun x => badLocal (memAddr x f 8) 8 = true) .badLocal ∧
      RaisesIf (.std c f) c (encode (.std f)) [f.ra.toNat] (fun x => badLocal (memAddr x f 64) 64 = true) .badLocal ∧
      RaisesIf (.stlB c f) c (encode (.stlB f)) [f.rd.toNat, f.ra.toNat]
        (fun x => badLocal (memAddr x f 1) 1 = false ∧ 0x30000 ≤ (memAddr x f 1).toNat) .accessViolation ∧
      RaisesIf (.stlD c f) c (encode (.stlD f)) [f.rd.toNat, f.ra.toNat]
        (fun x => badLocal (memAddr x f 8) 8 = false ∧ 0x30000 ≤ (memAddr x f 8).toNat) .accessViolation ∧
      RaisesIf (.std c f) c (encode (.std f)) [f.ra.toNat]
        (fun x => badLocal (memAddr x f 64) 64 = false ∧ 0x30000 ≤ (memAddr x f 64).toNat) .accessViolation)

/-- R564: descriptor registers. dins replaces bits [POS + W - 1 : POS] and dext reads them; dmov and dclr write a whole register. -/
def Obligations.DescriptorRegisters : Prop :=
  (∀ (c : CtxId) (f : DinsF), Acts (.dins c f) c (encode (.dins f)) [f.ra.toNat] (fun x y => ∃ v : Desc, DWritten x y f.dd.toNat v ∧
    ∀ k, k < 512 → v.getLsbD k = if f.pos.toNat ≤ k ∧ k < f.pos.toNat + (f.wm1.toNat + 1)
      then (x.gr f.ra.toNat).getLsbD (k - f.pos.toNat) else (x.dr f.dd.toNat).getLsbD k)) ∧
  (∀ (c : CtxId) (f : DextF), Acts (.dext c f) c (encode (.dext f)) [f.rd.toNat] (fun x y => ∃ v : Word, GWritten x y f.rd.toNat v ∧
    ∀ k, k < 64 → v.getLsbD k = (decide (k < f.wm1.toNat + 1) && (x.dr f.ds.toNat).getLsbD (f.pos.toNat + k)))) ∧
  (∀ (c : CtxId) (f : RegF), Acts (.dmov c f) c (encode (.dmov f)) [] (fun x y => DWritten x y f.rd.toNat (x.dr f.ra.toNat))) ∧
  (∀ (c : CtxId) (f : RegF), Acts (.dclr c f) c (encode (.dclr f)) [] (fun x y => DWritten x y f.rd.toNat 0))

/-! ## Thorum: waiting, ordering, time, events and ends -/

/-- R73, R74, R91: wait.t takes a completed ticket's status and frees its slot, or waits; a value that names no held ticket raises BAD_TICKET. -/
def Obligations.WaitTicket : Prop :=
  ∀ (c : CtxId) (f : RegFnF) (s : State), s.issues c (encode (.waitT f)) [f.rd.toNat, f.ra.toNat] →
    let x := s.dev.ctx c
    let v := (x.gr f.ra.toNat).toNat
    (∀ t, Tab.find? x.tickets (v % 64) = some t → t.gen = v / 64 % 1024 →
      (∀ st, t.done = some st → ∃ t', exec (.waitT c f) s = .next t' ∧ OnlyCtx s t' c ∧
        Tab.find? (t'.dev.ctx c).tickets (v % 64) = none ∧
        (∀ j, j ≠ v % 64 → Tab.find? (t'.dev.ctx c).tickets j = Tab.find? x.tickets j) ∧
        GWritten x { t'.dev.ctx c with tickets := x.tickets } f.rd.toNat (BitVec.ofNat 64 (statusCode st))) ∧
      (t.done = none → Yields (.waitT c f) s ((s.dev.slotted c).setCtx c { x with run := .waitT (v % 64) f.rd.toNat }))) ∧
    ((∀ t, Tab.find? x.tickets (v % 64) = some t → t.gen ≠ v / 64 % 1024) →
      Yields (.waitT c f) s ((s.dev.slotted c).raise c .badTicket .ok x.pc (encode (.waitT f))))

/-- R91: wait.e answers the masked event bits and clears them, or waits for one, with a limit in cues where its operand gives one; at the limit
the context resumes with 0. R91: wait.c waits for the imm16-th cue boundary; then the context runs on. -/
def Obligations.WaitEvents : Prop :=
  ((∀ (c : CtxId) (f : RegFnF) (s : State), s.issues c (encode (.waitE f)) [f.rd.toNat, f.ra.toNat, f.rb.toNat] →
      let x := s.dev.ctx c
      let m := (x.gr f.ra.toNat).extractLsb' 0 32
      let n := (x.gr f.rb.toNat).toNat % 2 ^ 16
      (x.events &&& m ≠ 0 → ∃ t, exec (.waitE c f) s = .next t ∧ OnlyCtx s t c ∧ (t.dev.ctx c).events = x.events &&& ~~~m ∧
        GWritten x { t.dev.ctx c with events := x.events } f.rd.toNat ((x.events &&& m).zeroExtend 64)) ∧
      (x.events &&& m = 0 → n = 0 → Yields (.waitE c f) s ((s.dev.slotted c).setCtx c { x with run := .waitE m none f.rd.toNat })) ∧
      (x.events &&& m = 0 → n ≠ 0 →
        Yields (.waitE c f) s ((s.dev.slotted c).setCtx c { x with run := .waitE m (some (s.dev.tb.cueCount + n)) f.rd.toNat }))) ∧
    (∀ (c : CtxId) (s : State) (m : BitVec 32) (n rd : Nat), s.live → (s.dev.ctx c).run = .waitE m (some n) rd →
      (s.dev.ctx c).pendErr = none → n ≤ s.dev.tb.cueCount →
      ∃ t, exec (.waitETimeout c) s = .next t ∧ OnlyCtx s t c ∧ (t.dev.ctx c).run = .running ∧
        GWritten (s.dev.ctx c) { t.dev.ctx c with run := (s.dev.ctx c).run } rd 0)) ∧
  ((∀ (c : CtxId) (f : ShortF), ∀ s : State, s.issues c (encode (.waitC f)) [] →
      Yields (.waitC c f) s ((s.dev.slotted c).setCtx c { s.dev.ctx c with run := .waitC (s.dev.tb.cueCount + f.imm.toNat) })) ∧
    (∀ (c : CtxId) (s : State) (n : Nat), s.live → (s.dev.ctx c).run = .waitC n → (s.dev.ctx c).pendErr = none →
      n ≤ s.dev.tb.cueCount → ∃ t, exec (.waitCExpiry c) s = .next t ∧ OnlyCtx s t c ∧
        Jumped { s.dev.ctx c with run := .running } (t.dev.ctx c) ((s.dev.ctx c).pc + 1)) ∧
    (∀ (c : CtxId) (s : State) (n : Nat), (s.dev.ctx c).run = .waitC n → s.dev.tb.cueCount < n → exec (.waitCExpiry c) s = .next s))

/-- R109, R110: rel retires once no space access of the context is outstanding, acq once no load or atomic is; until then nothing changes (R65:
a stalled context takes no slot). fence.m (R153) retires once every MSG ticket has completed. -/
def Obligations.OrderingInstructions : Prop :=
  (∀ (c : CtxId) (f : ShortF), ActsIf (.rel c f) c (encode (.rel f)) [] (fun x => x.outst = []) (fun x y => Jumped x y (x.pc + 1))) ∧
  (∀ (c : CtxId) (f : ShortF) (s : State), (s.dev.ctx c).outst ≠ [] → staticOk (encode (.rel f)) = true → exec (.rel c f) s = .next s) ∧
  (∀ (c : CtxId) (f : ShortF), ActsIf (.acq c f) c (encode (.acq f)) [] (fun x => ∀ a ∈ x.outst, a.kind = .store)
    (fun x y => Jumped x y (x.pc + 1))) ∧
  (∀ (c : CtxId) (f : ShortF) (s : State), (∃ a ∈ (s.dev.ctx c).outst, a.kind ≠ .store) → staticOk (encode (.acq f)) = true →
    exec (.acq c f) s = .next s) ∧
  (∀ (c : CtxId) (f : RegFnF), ActsIf (.fenceM c f) c (encode (.fenceM f)) [f.rd.toNat, f.rd.toNat + 1]
    (fun x => ∀ t ∈ x.tickets, t.2.kind = .msg → t.2.done.isSome = true)
    (fun x y => y.pc = x.pc + 1 ∧ y.tickets = x.tickets.filter (fun t => t.2.kind != .msg) ∧
      (∀ r, r ≠ f.rd.toNat → r ≠ f.rd.toNat + 1 → y.gr r = x.gr r) ∧
      (f.rd.toNat ≠ 0 → (∀ t ∈ x.tickets, t.2.kind = .msg → t.2.lost = false ∧ t.2.done = some .ok) →
        y.gr f.rd.toNat = BitVec.ofNat 64 (statusCode .ok) ∧ y.gr (f.rd.toNat + 1) = 0)))

/-- R34, R35, R514, R572: rdtb reads a time of the cue in progress, rounded down to the cue for a partition in confidential mode; rdcue reads
the cue number in the second and the low 42 bits of CUE_COUNT. R92, R573: evt sets an event bit of a context of the same partition, or
reports HOST_EVT with the low 32 bits of g[rb]; it raises ACCESS_VIOLATION for another partition's context. trap raises TRAP where p[p] is 1
and else does nothing. -/
def Obligations.TimeEventsAndTraps : Prop :=
  ((∀ (c : CtxId) (f : RegFnF) (s : State), s.issues c (encode (.rdtb f)) [f.rd.toNat] → s.dev.tb.sub < 250 →
      ∃ t sub, exec (.rdtb c f) s = .next t ∧ s.dev.tb.sub ≤ sub ∧ sub < 250 ∧ t.dev.tb = { s.dev.tb with sub := sub } ∧
        t.dev.mem = s.dev.mem ∧ t.dev.csr = s.dev.csr ∧
        GWritten (s.dev.ctx c) (t.dev.ctx c) f.rd.toNat (BitVec.ofNat 64
          (if s.dev.isConf (s.dev.ctx c).part then (s.dev.tb.tbase + sub) - (s.dev.tb.tbase + sub) % 250 else s.dev.tb.tbase + sub))) ∧
    (∀ (c : CtxId) (f : RegFnF) (s : State), s.issues c (encode (.rdcue f)) [f.rd.toNat] →
      ∃ t v, exec (.rdcue c f) s = .next t ∧ OnlyCtx s t c ∧ GWritten (s.dev.ctx c) (t.dev.ctx c) f.rd.toNat v ∧
        v.extractLsb' 0 22 = BitVec.ofNat 22 (s.dev.tb.tbase % 1000000000 / 250) ∧ v.extractLsb' 22 42 = BitVec.ofNat 42 s.dev.tb.cueCount)) ∧
  ((∀ (c : CtxId) (f : RegFnF) (s : State), s.issues c (encode (.evt f)) [f.ra.toNat, f.rb.toNat] →
      let x := s.dev.ctx c
      let v := (x.gr f.ra.toNat).toNat
      let u : CtxId := { tile := if v % 16 = 15 then c.tile else v % 16, core := v / 16 % 16, ctx := v / 256 % 16 }
      (v / 2 ^ 15 % 2 = 1 → Yields (.evt c f) s (((s.dev.slotted c).setCtx c x.retire).report 0x0003 0 (ctxOrigin c x.part)
        ((x.gr f.rb.toNat).toNat % 2 ^ 32) 0 0)) ∧
      (v < 2 ^ 15 → (v % 16 < 12 ∨ v % 16 = 15) → u.ctx ≠ 15 → s.dev.ctxPart u = some x.part →
        Yields (.evt c f) s (((s.dev.slotted c).setCtx c x.retire).setEvent u (8 + v / 2 ^ 12 % 8))) ∧
      (v < 2 ^ 15 → (v % 16 < 12 ∨ v % 16 = 15) → s.dev.ctxPart u ≠ some x.part →
        Yields (.evt c f) s ((s.dev.slotted c).raise c .accessViolation .ok x.pc (encode (.evt f))))) ∧
    (∀ (d : Dev) (u : CtxId) (bit : Nat), bit < 32 → (∀ m l r, (d.ctx u).run ≠ .waitE m l r) →
      (d.setEvent u bit).ctx u = { d.ctx u with events := (d.ctx u).events ||| BitVec.twoPow 32 bit }) ∧
    (∀ (c : CtxId) (f : ShortF),
      ActsIf (.trap c f) c (encode (.trap f)) [] (fun x => x.pr f.p.toNat = false) (fun x y => Jumped x y (x.pc + 1)) ∧
      RaisesIf (.trap c f) c (encode (.trap f)) [] (fun x => x.pr f.p.toNat = true) .trap))

/-- R87, R563, R567: end with a defined status and at most 4,096 result bytes waits for the outstanding accesses, then completes the request
with the bytes from LOCAL 0x1000; other operands raise BAD_INSTR. R75: a script that ends leaves its context ended with no request, takes
its unstarted descriptors off every engine queue, and completes their tickets with ABORTED; the started ones stay. -/
def Obligations.EndOfScript : Prop :=
  (∀ (c : CtxId) (f : RegFnF) (s : State), s.issues c (encode (.endScript f)) [f.ra.toNat, f.rb.toNat] →
      let x := s.dev.ctx c
      let n := (x.gr f.rb.toNat).toNat
      (∀ st, statusOf (x.gr f.ra.toNat).toNat = some st → n ≤ 4096 → x.outst = [] →
        Yields (.endScript c f) s (((s.dev.slotted c).setCtx c x.retire).endScript c st (leNat (x.local 0x1000 4)) (x.local 0x1000 n))) ∧
      (∀ st, statusOf (x.gr f.ra.toNat).toNat = some st → n ≤ 4096 → x.outst ≠ [] → exec (.endScript c f) s = .next s) ∧
      ((statusOf (x.gr f.ra.toNat).toNat = none ∨ 4096 < n) →
        Yields (.endScript c f) s ((s.dev.slotted c).raise c .badInstr .ok x.pc (encode (.endScript f))))) ∧
  (∀ (d : Dev) (c : CtxId),
      ((d.endCtx c).ctx c).run = .ended ∧ ((d.endCtx c).ctx c).req = none ∧
      (∀ l ∈ (d.endCtx c).eng.queue, ∀ x ∈ l.2, x.ctx = c → x.started = true) ∧
      (∀ l ∈ d.eng.queue, ∀ x ∈ l.2, (x.ctx ≠ c ∨ x.started = true) → ∃ l' ∈ (d.endCtx c).eng.queue, l'.1 = l.1 ∧ x ∈ l'.2) ∧
      (∀ t ∈ (d.ctx c).tickets, t.2.done = none →
        (∃ l ∈ d.eng.queue, ∃ x ∈ l.2, x.ctx = c ∧ x.started = false ∧ x.slot = t.1 ∧ x.gen = t.2.gen) →
        (t.1, { t.2 with done := some Status.aborted }) ∈ ((d.endCtx c).ctx c).tickets))

/-- R88, R469: what an exception records and how the script's request is answered: exception number, PC and context, then the end of the script
with the status of the exception. R88: the statuses of the exceptions; SPACE_ERROR carries the status of the access that failed. R88, R560:
a word that is no instruction raises BAD_INSTR, and so does a PC outside the code section. -/
def Obligations.ExceptionRecord : Prop :=
  (∀ (d : Dev) (c : CtxId) (e : Exc) (st : Status) (pc : Nat) (w : BitVec 32), c.tile < 16 → c.core < 16 → c.ctx < 16 → (d.ctx c).part < 16 →
      ∃ d' : Dev, d.raise c e st pc w = d'.endScript c (excStatus e st) 0 [] ∧ d'.thr = d.thr ∧ d'.eng = d.eng ∧ d'.mem = d.mem ∧
        d'.flt.lastPc = BitVec.ofNat 64 pc ∧ d'.flt.lastCtx.extractLsb' 32 32 = BitVec.ofNat 32 (excNumber e) ∧
        d'.flt.lastCtx.extractLsb' 16 16 = 1 ∧
        d'.flt.lastCtx.extractLsb' 0 16 = BitVec.ofNat 16 ((d.ctx c).part + 16 * c.tile + 256 * c.core + 4096 * c.ctx)) ∧
  (∀ st : Status, excStatus .badInstr st = .badRequest ∧ excStatus .badLocal st = .badRequest ∧ excStatus .accessViolation st = .access ∧
      excStatus .ticketExhausted st = .badRequest ∧ excStatus .badTicket st = .badRequest ∧ excStatus .poisonUse st = .poison ∧
      excStatus .spaceError st = st ∧ excStatus .trap st = .badRequest) ∧
  (∀ (c : CtxId) (w : BitVec 32) (s : State), s.live → (s.dev.ctx c).run = .running → (s.dev.issueSlot c).isSome = true →
      (s.dev.wordAt (s.dev.ctx c) = none →
        Yields (.undefinedEncoding c w) s ((s.dev.slotted c).raise c .badInstr .ok (s.dev.ctx c).pc w)) ∧
      (s.dev.wordAt (s.dev.ctx c) = some w → staticOk w = false →
        Yields (.undefinedEncoding c w) s ((s.dev.slotted c).raise c .badInstr .ok (s.dev.ctx c).pc w)) ∧
      (s.dev.wordAt (s.dev.ctx c) = some w → staticOk w = true → exec (.undefinedEncoding c w) s = .next s))

/-! ## Thorum: spaces, tickets and registers of the device -/

/-- R101, R566, R567: ld, st and atom issue a space access in program order, unless 32 are outstanding; an access to LOCAL or CSR space, a write
to POOL or HOST, and one outside the partition's memory raise ACCESS_VIOLATION. R566, R567: an aligned load from STRATUM, of granules
without an error, gives its destination register the bytes there, zero-extended, and is no longer outstanding; a misaligned one answers
BAD_REQUEST, which a status form receives in its register. -/
def Obligations.SpaceAccesses : Prop :=
  (∀ (c : CtxId) (f : SpcF) (s : State),
      let x := s.dev.ctx c
      let a := (x.gr f.ra.toNat).toNat
      let n := 2 ^ f.sz.toNat
      let ldRegs := [f.ra.toNat, f.rd.toNat] ++ (if f.st = 1 then [f.rd.toNat + 1] else [])
      let stRegs := [f.ra.toNat, f.rb.toNat] ++ (if f.st = 1 then [f.rd.toNat] else [])
      let atRegs := [f.ra.toNat, f.rb.toNat, f.rd.toNat] ++ (if f.st = 1 then [f.rd.toNat + 1] else []) ++
        (if f.aop = 9 then [f.rb.toNat + 1] else [])
      let acc : AccKind → BitVec 32 → Word → Word → SpaceAcc := fun k w v1 v2 =>
        { kind := k, addr := x.gr f.ra.toNat, n := n, rd := f.rd.toNat, st := f.st == 1, aop := f.aop.toNat, v1 := v1, v2 := v2, pc := x.pc,
          instr := w, acc := none }
      let issued : SpaceAcc → Dev := fun e => (s.dev.slotted c).setCtx c { x with pc := x.pc + 1, idleCues := 0, outst := x.outst ++ [e] }
      (s.issues c (encode (.ld f)) ldRegs →
        (spaceOf a ≠ 0 → spaceOf a ≠ 8 → s.dev.ctxRights x.part a n .load = true → x.outst.length < 32 →
          Yields (.ld c f) s (issued (acc .load (encode (.ld f)) 0 0))) ∧
        ((spaceOf a = 0 ∨ spaceOf a = 8 ∨ (spaceOf a ≤ 2 ∧ inMem a n = true ∧ s.dev.owns x.part a n = false)) →
          Yields (.ld c f) s ((s.dev.slotted c).raise c .accessViolation .ok x.pc (encode (.ld f))))) ∧
      (s.issues c (encode (.st f)) stRegs →
        (spaceOf a ≠ 0 → spaceOf a ≠ 8 → s.dev.ctxRights x.part a n .store = true → x.outst.length < 32 →
          Yields (.st c f) s (issued (acc .store (encode (.st f)) (x.gr f.rb.toNat) 0))) ∧
        ((spaceOf a = 0 ∨ spaceOf a = 3 ∨ spaceOf a = 4 ∨ spaceOf a = 8 ∨ (spaceOf a ≤ 2 ∧ inMem a n = true ∧ s.dev.owns x.part a n = false)) →
          Yields (.st c f) s ((s.dev.slotted c).raise c .accessViolation .ok x.pc (encode (.st f))))) ∧
      (s.issues c (encode (.atomInstr f)) atRegs →
        (spaceOf a ≠ 0 → spaceOf a ≠ 8 → s.dev.ctxRights x.part a n .atomic = true → x.outst.length < 32 →
          Yields (.atomInstr c f) s (issued (acc .atomic (encode (.atomInstr f)) (x.gr f.rb.toNat)
            (if f.aop = 9 then x.gr (f.rb.toNat + 1) else 0)))) ∧
        ((spaceOf a = 0 ∨ spaceOf a = 3 ∨ spaceOf a = 4 ∨ spaceOf a = 8) →
          Yields (.atomInstr c f) s ((s.dev.slotted c).raise c .accessViolation .ok x.pc (encode (.atomInstr f))))) ∧
      (32 ≤ x.outst.length → spaceOf a ≠ 0 → spaceOf a ≠ 8 → s.dev.ctxRights x.part a n .load = true → staticOk (encode (.ld f)) = true →
        exec (.ld c f) s = .next s)) ∧
  (∀ (c : CtxId) (i : Nat) (s : State) (a : SpaceAcc), s.live → (s.dev.ctx c).run = .running → (s.dev.ctx c).outst = [a] → i = 0 →
      a.kind = .load → a.acc = none → a.n ∈ [1, 2, 4, 8] → s.dev.coh.groups = [] → s.dev.coh.accs = [] → s.dev.coh.wayWait = [] → s.dev.pwr.duty ≠ 0 →
      (a.addr.toNat % a.n = 0 → spaceOf a.addr.toNat = 2 → inMem a.addr.toNat a.n = true → a.st = false →
        (∀ g, Tab.get false s.dev.mem.marks g = false ∧ Tab.get Ecc.good s.dev.mem.ecc g = .good) →
        ∃ t, exec (.spaceAccessComplete c i) s = .next t ∧ (t.dev.ctx c).outst = [] ∧ t.dev.mem = s.dev.mem ∧
          ∀ r, (t.dev.ctx c).gr r = if r = a.rd ∧ r ≠ 0 then BitVec.ofNat 64 (leNat (s.dev.mem.bytesAt a.addr.toNat a.n)) else (s.dev.ctx c).gr r) ∧
      (a.addr.toNat % a.n ≠ 0 → a.st = true → a.rd ≠ 0 →
        ∃ t, exec (.spaceAccessComplete c i) s = .next t ∧ (t.dev.ctx c).outst = [] ∧ (t.dev.ctx c).run = .running ∧ t.dev.mem = s.dev.mem ∧
          (t.dev.ctx c).gr a.rd = BitVec.ofNat 64 (statusCode .badRequest) ∧ (t.dev.ctx c).gr (a.rd + 1) = 0))

/-- R72, R73, R568: copy takes a ticket and starts a COPY; the operands that R104 or R101 refuse make a COPY that fails with that status. With
all 64 tickets held it raises TICKET_EXHAUSTED. -/
def Obligations.CopyIssue : Prop :=
  ∀ (c : CtxId) (f : CpyF) (s : State), s.issues c (encode (.copy f)) [f.rd.toNat, f.ra.toNat, f.rb.toNat, f.rc.toNat] →
    let x := s.dev.ctx c
    let dst := x.gr f.ra.toNat
    let src := x.gr f.rb.toNat
    let n := (x.gr f.rc.toNat).toNat
    let st := s.dev.checkCopy x.part dst.toNat src.toNat n
    (x.exhausted = false → localBad dst.toNat n = false → localBad src.toNat n = false →
      (spaceOf dst.toNat = 0 → n ≠ 0 → dst.toNat + n ≤ 0x30000) →
      ∃ t slot gen, exec (.copy c f) s = .next t ∧ TicketTaken x (t.dev.ctx c) .copy f.rd.toNat slot gen ∧
        t.dev.thr.copies = s.dev.thr.copies ++
          [{ ctx := c, slot := slot, gen := gen, part := x.part, dst := dst, src := src, len := n
             failed := if st = Status.ok then none else some st
             host := [], moved := false, result := .ok, waitMack := [] }] ∧
        t.dev.mem = s.dev.mem ∧ t.dev.eng = s.dev.eng) ∧
    (x.exhausted = true → Yields (.copy c f) s ((s.dev.slotted c).raise c .ticketExhausted .ok x.pc (encode (.copy f))))

/-- R76, R79, R569: enq takes a ticket and puts the descriptor at the end of its engine's queue of the partition; a descriptor that R79 rejects
completes its ticket with BAD_REQUEST; a full queue holds the instruction. -/
def Obligations.EnqueueDescriptor : Prop :=
  ∀ (c : CtxId) (f : RegFnF) (s : State), s.issues c (encode (.enq f)) [f.rd.toNat] →
    let x := s.dev.ctx c
    let v := x.dr f.ra.toNat
    let e := descEng c v
    x.exhausted = false → dfld v 210 12 * 64 + 64 ≤ 2 ^ 18 →
    (descRejected v = false → (s.dev.engQ e x.part).length < 32 →
      ∃ t slot gen y, exec (.enq c f) s = .next t ∧ TicketTaken x (t.dev.ctx c) .desc f.rd.toNat slot gen ∧
        (t.dev.engQ e x.part).getLast? = some y ∧ y.word = v ∧ y.ctx = c ∧ y.slot = slot ∧ y.gen = gen ∧ y.part = x.part ∧
        y.started = false ∧ y.status = none ∧ (t.dev.engQ e x.part).length = (s.dev.engQ e x.part).length + 1 ∧ t.dev.mem = s.dev.mem) ∧
    (descRejected v = true → ∃ t slot, exec (.enq c f) s = .next t ∧ OnlyCtx s t c ∧
      (Tab.find? (t.dev.ctx c).tickets slot).map (·.done) = some (some .badRequest)) ∧
    (descRejected v = false → 32 ≤ (s.dev.engQ e x.part).length → exec (.enq c f) s = .next s)

/-- R165, R570: a msg.send that the checks pass and for which a tag is free takes a ticket and sends the MSG that the descriptor spells. R571:
ses and ver take a ticket and run the operation that the descriptor names for the context's partition. R163, R570: msg.recv takes the oldest
message once the earlier loads have completed, and reads 0 where there is none. -/
def Obligations.MessageAndPrimitiveIssue : Prop :=
  ((∀ (c : CtxId) (f : RegFnF) (s : State), s.issues c (encode (.msgSend f)) [f.rd.toNat] →
      let x := s.dev.ctx c
      let v := x.dr f.ra.toNat
      let d := s.dev.slotted c
      let sent := d.sendMsg x.part (msgOfDesc d v (x.local (dfld v 192 18) (dfld v 210 13)))
        (.ctxMsg c (x.issueTicket .msg).2.1 (x.issueTicket .msg).2.2)
      x.exhausted = false → dfld v 192 18 + dfld v 210 13 ≤ 2 ^ 18 → dfld v 124 4 ≠ 0xA → dfld v 124 4 ≠ 0xB →
      d.checkSend x.part v = .ok →
      (sent.2.isSome = true → ∃ t slot gen, exec (.msgSend c f) s = .next t ∧ TicketTaken x (t.dev.ctx c) .msg f.rd.toNat slot gen ∧
        t.dev = sent.1.setCtx c (t.dev.ctx c)) ∧
      (sent.2 = none → exec (.msgSend c f) s = .next s)) ∧
    (∀ (c : CtxId) (f : RegFnF) (s : State), (s.dev.ctx c).exhausted = false →
      let x := s.dev.ctx c
      let v := x.dr f.ra.toNat
      (s.issues c (encode (.ses f)) [f.rd.toNat] → primCheck 0x10 0x19 v = .ok → ∃ d slot gen,
        OnlyCtx s { s with dev := d } c ∧ TicketTaken x (d.ctx c) .prim f.rd.toNat slot gen ∧
        Yields (.ses c f) s (d.sesPrim x.part v (.prim c slot gen (dfld v 8 1 == 1) (dfld v 9 1 == 1) (dfld v 10 18)))) ∧
      (s.issues c (encode (.ver f)) [f.rd.toNat] → primCheck 0x20 0x2C v = .ok → ∃ d slot gen,
        OnlyCtx s { s with dev := d } c ∧ TicketTaken x (d.ctx c) .prim f.rd.toNat slot gen ∧
        Yields (.ver c f) s (d.verPrim x.part v (.prim c slot gen false (dfld v 9 1 == 1) (dfld v 10 18)))))) ∧
  (∀ (c : CtxId) (f : RegFnF),
      ActsIf (.msgRecv c f) c (encode (.msgRecv f)) [] (fun x => x.msgq = []) (fun x y => DWritten x y f.rd.toNat 0) ∧
      ActsIf (.msgRecv c f) c (encode (.msgRecv f)) [] (fun x => x.msgq ≠ [] ∧ ∀ a ∈ x.outst, a.kind = .store) (fun x y =>
        ∃ m rest v, x.msgq = m :: rest ∧ y.msgq = rest ∧ DWritten x { y with msgq := x.msgq } f.rd.toNat v ∧
          v.extractLsb' 0 12 = BitVec.ofNat 12 m.srcDev ∧ v.extractLsb' 12 13 = BitVec.ofNat 13 m.len ∧ v.getLsbD 25 = true ∧
          v.extractLsb' 64 64 = m.addr ∧ v.extractLsb' 128 64 = m.notify))

/-- R93, R572: a context of a partition reads TB_NOW, rounded down to the cue in confidential mode, and CUE_NOW; any other access of it to a
register raises ACCESS_VIOLATION. Reserved context 15 writes any register. -/
def Obligations.ScriptRegisters : Prop :=
  ∀ (c : CtxId) (f : RegFnF) (s : State),
    let x := s.dev.ctx c
    let a := (x.gr f.ra.toNat).toNat
    (s.issues c (encode (.csrr f)) [f.rd.toNat, f.ra.toNat] → spaceOf a = 8 →
      (offOf a = CUE_NOW → ∃ t, exec (.csrr c f) s = .next t ∧ OnlyCtx s t c ∧
        GWritten x (t.dev.ctx c) f.rd.toNat (BitVec.ofNat 64 s.dev.cueNow)) ∧
      (c.ctx ≠ 15 → offOf a = TB_NOW → s.dev.tb.sub < 250 → ∃ t sub, exec (.csrr c f) s = .next t ∧ s.dev.tb.sub ≤ sub ∧ sub < 250 ∧
        t.dev.tb = { s.dev.tb with sub := sub } ∧ t.dev.mem = s.dev.mem ∧ GWritten x (t.dev.ctx c) f.rd.toNat (BitVec.ofNat 64
          (if s.dev.isConf x.part then (s.dev.tb.tbase + sub) - (s.dev.tb.tbase + sub) % 250 else s.dev.tb.tbase + sub))) ∧
      (c.ctx ≠ 15 → offOf a ≠ CUE_NOW → offOf a ≠ TB_NOW →
        Yields (.csrr c f) s ((s.dev.slotted c).raise c .accessViolation .ok x.pc (encode (.csrr f))))) ∧
    (s.issues c (encode (.csrw f)) [f.ra.toNat, f.rb.toNat] → spaceOf a = 8 →
      (c.ctx = 15 → Yields (.csrw c f) s (((s.dev.slotted c).setCtx c { x with pc := x.pc + 1, idleCues := 0 }).csrPut (offOf a) (x.gr f.rb.toNat))) ∧
      (c.ctx ≠ 15 → Yields (.csrw c f) s ((s.dev.slotted c).raise c .accessViolation .ok x.pc (encode (.csrw f)))))

/-! ## Dispatch and the life of contexts -/

/-- R68, R85: what a context holds when a request starts in it: its PC, registers and the argument block. -/
def Obligations.DispatchState : Prop :=
  ∀ (d : Dev) (c : CtxId) (p : Nat) (b : Bundle) (e : Binding) (r : ReqId) (t : Txn) (stamp : Nat),
    let x := (d.startCtx c p b e r t stamp).ctx c
    x.run = .running ∧ x.pc = e.entry ∧ x.code = b.uid ∧ x.part = p ∧ x.budget = e.budget ∧ x.startCue = d.tb.cueCount ∧ x.req = some r ∧
      x.tickets = [] ∧ x.outst = [] ∧
      x.gr 1 = BitVec.ofNat 64 (r.opcode % 2 ^ 16 + p * 2 ^ 16 + r.link * 2 ^ 20 + (if d.role r.link = 3 then 2 ^ 26 else 0)) ∧
      x.gr 2 = BitVec.ofNat 64 t.data.length ∧ x.gr 3 = BitVec.ofNat 64 t.ops.length ∧
      (∀ k, k < 4 → x.gr (4 + k) = t.ops.getD k 0) ∧ x.gr 8 = BitVec.ofNat 64 (d.seenTime p stamp) ∧ (∀ k, 9 ≤ k → x.gr k = 0) ∧
      (∀ k, 1 ≤ k → x.pr k = false) ∧ (∀ k, x.dr k = 0) ∧
      (∀ k, k < 192 → x.localByte k = t.data.getD k 0) ∧ (∀ k, 192 ≤ k → x.localByte k = (d.ctx c).localByte k)

/-- R75, R83, R85, R97: a context is freed once its script has ended and nothing of it is outstanding, and takes the oldest queued request of
its partition; a queued request times out with BUSY and a script with TIMEOUT. -/
def Obligations.ContextCommands : Prop :=
  (∀ (c : CtxId) (s : State), s.live →
    let x := s.dev.ctx c
    let d := s.dev.setCtx c { x with run := .free, tickets := [], part := 0, code := 0 }
    x.run = .ended → (∀ t ∈ x.tickets, t.2.done.isSome = true) → x.outst = [] →
    (s.dev.ctxPart c = none → Yields (.contextFree c) s d) ∧
    (∀ p, s.dev.ctxPart c = some p → s.dev.dispatchQ c.tile p = [] → Yields (.contextFree c) s d) ∧
    (∀ p q rest b e, s.dev.ctxPart c = some p → s.dev.dispatchQ c.tile p = q :: rest → s.dev.binding p q.req.opcode = some (b, e) →
      Yields (.contextFree c) s ((d.setDispatchQ c.tile p rest).startCtx c p b e q.req q.txn q.stamp))) ∧
  (∀ (c : CtxId) (s : State), (s.dev.ctx c).run ≠ .ended → exec (.contextFree c) s = .next s) ∧
  (∀ (tile p : Nat) (s : State), s.live →
    let q := s.dev.dispatchQ tile p
    Yields (.admitTimeout tile p) s ((q.filter (fun r => r.cueIn + r.admitCues ≤ s.dev.tb.cueCount)).foldl
      (fun d r => d.complete r.req .opreq .busy 0 [])
      (s.dev.setDispatchQ tile p (q.filter (fun r => s.dev.tb.cueCount < r.cueIn + r.admitCues))))) ∧
  (∀ (c : CtxId) (s : State), s.live → (s.dev.ctx c).active = true →
    ((s.dev.ctx c).startCue + (s.dev.ctx c).budget ≤ s.dev.tb.cueCount →
      Yields (.budgetTimeout c) s (s.dev.endScript c .timeout 0 [])) ∧
    (s.dev.tb.cueCount < (s.dev.ctx c).startCue + (s.dev.ctx c).budget → exec (.budgetTimeout c) s = .next s))

/-! ## Faults and recovery -/

/-- R480 to R483, R488: the hub counts a report; the first of its origin and code goes to the staging queue of its tile, and another one of the
same cue is counted as a duplicate and not staged. R483: a counter stops at 2^63 - 1 and sets SAT, bit 63, with it; until then it counts the
events. R486 to R491: the oldest staged entry of a tile is written as 64 B at the head of the prompt book, which advances; PB_READ answers
64 B for each of the 1 to 64 entries asked for. -/
def Obligations.ReportsAndPromptBook : Prop :=
  (∀ (s : State) (r : Report), s.live → r.code ≠ 0x0003 → bypassesStorm r.code = false → s.dev.reg FLT_REPORT_CNT < 2 ^ 62 →
      s.dev.reg FLT_DUP_CNT < 2 ^ 62 →
      ((∀ e ∈ s.dev.flt.storm, ¬(e.origin = r.origin ∧ e.code = r.code)) → s.dev.flt.storm.length < 4096 →
        (Tab.get [] s.dev.flt.staging (r.origin.toNat / 16 % 16)).length < 256 →
        ∃ t, exec (.report r) s = .next t ∧ t.dev.reg FLT_REPORT_CNT = s.dev.reg FLT_REPORT_CNT + 1 ∧
          Tab.get [] t.dev.flt.staging (r.origin.toNat / 16 % 16) =
            Tab.get [] s.dev.flt.staging (r.origin.toNat / 16 % 16) ++ [reportEntry r] ∧
          t.dev.mem = s.dev.mem ∧ t.dev.thr = s.dev.thr ∧ t.dev.tb = s.dev.tb) ∧
      (∀ e, s.dev.flt.storm.find? (fun e => e.origin == r.origin && e.code == r.code) = some e → e.valid = true → e.cue = r.cue →
        ∃ t, exec (.report r) s = .next t ∧ t.dev.reg FLT_REPORT_CNT = s.dev.reg FLT_REPORT_CNT + 1 ∧
          t.dev.reg FLT_DUP_CNT = s.dev.reg FLT_DUP_CNT + 1 ∧ t.dev.flt.staging = s.dev.flt.staging ∧ t.dev.mem = s.dev.mem)) ∧
  (∀ v n : Nat, v < 2 ^ 64 →
      (v % 2 ^ 63 + n < 2 ^ 63 - 1 → countUp v n = v + n) ∧
      (2 ^ 63 - 1 ≤ v % 2 ^ 63 + n → countUp v n % 2 ^ 63 = 2 ^ 63 - 1 ∧ countUp v n / 2 ^ 63 = 1)) ∧
  ((∀ (s : State) (tile : Nat) (e : PbEntry) (rest : List PbEntry), s.live → s.dev.pwr.memDone = true →
      Tab.get [] s.dev.flt.staging tile = e :: rest → e.kind ≠ 1 → e.kind ≠ 3 → s.dev.flt.head < 2 ^ 32 →
      ∃ t, exec (.pbEntryWrite tile) s = .next t ∧ t.dev.flt.head = (s.dev.flt.head + 1) % 2 ^ 32 ∧
        Tab.get [] t.dev.flt.staging tile = rest ∧
        t.dev.mem.bytesAt (2 ^ 60 + 0x77F000000 + s.dev.flt.head % 262144 * 64) 64 = pbBytes e s.dev.flt.head ∧
        (∀ a, (a < 2 ^ 60 + 0x77F000000 + s.dev.flt.head % 262144 * 64 ∨ 2 ^ 60 + 0x77F000000 + s.dev.flt.head % 262144 * 64 + 64 ≤ a) →
          t.dev.mem.byte a = s.dev.mem.byte a)) ∧
    (∀ (s : State) (seq : BitVec 32) (n : Nat), s.live → 1 ≤ n → n ≤ 64 →
      ∃ body, Yields (.pbRead seq n) s (s.dev.emit (.mailbox 0xC360 .ok body)) ∧ body.length = 64 * n) ∧
    (∀ (s : State) (seq : BitVec 32) (n : Nat), s.live → (n = 0 ∨ 64 < n) →
      Yields (.pbRead seq n) s (s.dev.emit (.mailbox 0xC360 .badRequest []))))

/-- R485: a write of FLT_CNT_CLR that names a statistics counter makes that counter 0 and changes nothing else; one that names anything else
changes nothing. Every counter reads 0 after a reset. -/
def Obligations.CounterClear : Prop :=
  (∀ (s : State) (a : Word), s.live →
    (spaceOf a.toNat = 8 → offOf a.toNat < 2 ^ 24 → (csrFam (offOf a.toNat)).any (·.counter) = true →
      ∃ t, exec (.fltCntClr a) s = .next t ∧ t.dev.reg (offOf a.toNat) = 0 ∧
        (∀ o, o ≠ offOf a.toNat → t.dev.reg o = s.dev.reg o) ∧ { t.dev with csr := s.dev.csr } = s.dev) ∧
    ((spaceOf a.toNat ≠ 8 ∨ 2 ^ 24 ≤ offOf a.toNat ∨ (csrFam (offOf a.toNat)).any (·.counter) = false) → exec (.fltCntClr a) s = .next s)) ∧
  (∀ o : Nat, (csrFam o).any (·.counter) = true → State.reset.dev.reg o = 0 ∧
    (∀ (addr : BitVec 3) (s t : State), exec (.resetN addr) s = .next t → t.dev.reg o = 0) ∧
    (∀ (cause : Nat) (s t : State), s.live → s.dev.flt.fatal = true → s.dev.stepBegins 4 = true → exec (.warmReset cause) s = .next t → t.dev.reg o = 0))

/-- R468 to R475: watchdogs, hangs and the recovery steps. A host command that names no such context or engine is turned away with FLT_EVT; a
fatal declaration in force absorbs them all. -/
def Obligations.RecoverySteps : Prop :=
  (∀ (c : CtxId) (s : State), s.live → s.dev.wdogDue c = true →
    ∃ t, exec (.ctxWatchdog c) s = .next t ∧ (t.dev.ctx c).wdogFired = true ∧ (t.dev.ctx c).run = (s.dev.ctx c).run ∧ t.dev.mem = s.dev.mem) ∧
  (∀ (e : EngId) (p : Nat) (s : State) (x : DescEntry), s.live → (s.dev.engQ e p).find? (fun x => (s.dev.ctx x.ctx).wdogFired) = some x →
    ¬(e ∈ s.dev.eng.hung) → Tab.get 0 s.dev.eng.lastUnit (engKey e) + s.dev.wdogGrace ≤ s.dev.tb.cueCount →
    ∃ t, exec (.engHang e p) s = .next t ∧ e ∈ t.dev.eng.hung ∧ t.dev.eng.queue = s.dev.eng.queue ∧ t.dev.mem = s.dev.mem) ∧
  (∀ (c : CtxId) (s : State), s.live → s.dev.flt.fatal = false →
    (c.tile < 12 → c.ctx ≠ 15 → (s.dev.ctx c).run ≠ .free → Yields (.ctxReset c true) s (s.dev.ctxReset c 0)) ∧
    ((12 ≤ c.tile ∨ c.ctx = 15) → Yields (.ctxReset c true) s (s.dev.setRegBit FLT_EVT 6))) ∧
  (∀ (e : EngId) (s : State), s.live → s.dev.flt.fatal = false →
    (engExists e = true → ¬(e ∈ s.dev.eng.hung) → Yields (.engReset e) s (s.dev.engReset e)) ∧
    (engExists e = false → Yields (.engReset e) s (s.dev.setRegBit FLT_EVT 6))) ∧
  (∀ (p : Nat) (s : State), s.live → s.dev.flt.fatal = false → p < 16 → Yields (.partReset p) s (s.dev.partReset p)) ∧
  (∀ (o : BitVec 32) (s : State), s.live → s.dev.flt.fatal = false →
    (s.dev.autoMax < 4 → Yields (.escalate o 3) s (s.dev.stepNeeded o 4 3)) ∧
    (4 ≤ s.dev.autoMax → Yields (.escalate o 3) s (s.dev.fatal 2 4)) ∧
    (5 ≤ s.dev.autoMax → Yields (.escalate o 4) s (s.dev.fatal 2 5)) ∧
    (3 ≤ s.dev.autoMax → Yields (.escalate o 2) s (s.dev.partReset (o.toNat / 2 ^ 20 % 16)))) ∧
  (∀ (c : CtxId) (e : EngId) (p : Nat) (o : BitVec 32) (n : Nat) (s : State), s.dev.flt.fatal = true →
    exec (.ctxReset c true) s = .next s ∧ exec (.engReset e) s = .next s ∧ exec (.partReset p) s = .next s ∧
      exec (.escalate o n) s = .next s ∧ exec (.fatal n) s = .next s)

/-- R476, R477: the fatal declaration: the state it leaves, the DOWN frames, the report, POISON for all that is open, and DOMAIN_DOWN 16 times,
1 cue apart, to the accelerators. -/
def Obligations.FatalDeclaration : Prop :=
  ∀ (s : State) (cause : Nat), s.live → s.dev.flt.fatal = false →
    let after := if cause = 2 ∨ cause = 5 ∨ cause = 6 then 4 else if cause = 4 then 5 else 0
    let f : Flt := { s.dev.flt with fatal := true, cause := cause, fatalCue := s.dev.tb.cueCount, fatalPin := true, after := after }
    let d0 : Dev := ({ s.dev with flt := f, cxl := { s.dev.cxl with viral := true } }.setRegBit FLT_EVT 0).setRegBit CXL_EVT 2
    let d1 : Dev := (d0.upLinks 4).foldl (fun d k => d.pairPlain k 5 0 0 0) d0
    let d2 : Dev := ({ d1 with pair := { d1.pair with downLeft := 3 } }).report 0x001D 2 hubOrigin cause s.dev.openRequests 0
    let d3 : Dev := d2.poisonWaits.poisonLines.poisonRequests.poisonAccesses.stopOwn
    Yields (.fatal cause) s (d3.startEvt (d3.upLinks 1) 1 (d3.devId % 4096 + cause * 2 ^ 12) 16 1)

/-! ## Transactions -/

/-- R137, R138, R145: a request that arrives is checked, recorded and run, or refused with the status of the first check that fails. The built-
in operations are OPREQs with their own operation codes; a reserved TYPE is refused with BAD_REQUEST. -/
def Obligations.RequestsRun : Prop :=
  ∀ (k : Nat) (t : Txn),
    ArrivesAs (.rd k t) k 0 t ∧ ArrivesAs (.wr k t) k 1 t ∧ ArrivesAs (.wrf k t) k 2 t ∧ ArrivesAs (.atom k t) k 3 t ∧
    ArrivesAs (.opreq k t) k 4 t ∧ ArrivesAs (.rdcContrib k t) k 4 { t with opcode := 0xFF10 } ∧
    ArrivesAs (.rdcAbort k t) k 4 { t with opcode := 0xFF11 } ∧
    (∀ (typ : BitVec 4) (s : State), s.live → 9 ≤ typ.toNat → s.dev.passes k typ.toNat t →
      Yields (.reservedType k typ t) s
        ((s.dev.takenIn k typ.toNat t).1.refuse typ.toNat (s.dev.takenIn k typ.toNat t).2 .badRequest).settleAll)

/-- R161, R162, R252, R404: a MSG that arrives on a PEER link, and each notice of the reduction and session engines, which is a MSG whose NOTIFY
names its kind. -/
def Obligations.MessagesRun : Prop :=
  ∀ (k : Nat) (t : Txn),
    ArrivesAsMsg (.msg k t) k t ∧ ArrivesAsMsg (.part k t) k (asNotice t 0) ∧ ArrivesAsMsg (.partEnd k t) k (asNotice t 1) ∧
    ArrivesAsMsg (.res k t) k (asNotice t 2) ∧ ArrivesAsMsg (.resEnd k t) k (asNotice t 3) ∧
    ArrivesAsMsg (.abortNotice k t) k (asNotice t 4) ∧ ArrivesAsMsg (.offer k t) k (asSesNotice t 0) ∧
    ArrivesAsMsg (.data k t) k (asSesNotice t 1) ∧ ArrivesAsMsg (.commit k t) k (asSesNotice t 2) ∧
    ArrivesAsMsg (.moveAbort k t) k (asSesNotice t 3) ∧ ArrivesAsMsg (.ownerQuery k t) k (asSesNotice t 4) ∧
    ArrivesAsMsg (.finish k t) k (asSesNotice t 5) ∧
    (∀ n, n < 16 → (asNotice t n).route.notify.extractLsb' 60 4 = 0xA ∧ (asNotice t n).route.notify.extractLsb' 36 4 = BitVec.ofNat 4 n ∧
      (asSesNotice t n).route.notify.extractLsb' 60 4 = 0xB ∧ (asSesNotice t n).route.notify.extractLsb' 24 4 = BitVec.ofNat 4 n)

/-- R137: the checks of a request come in their order: a reserved field and a tag beyond the allowance give BAD_REQUEST before the role, the
stream and the privileged classes give ACCESS, and these before a bad LEN gives BAD_REQUEST. -/
def Obligations.CheckOrder : Prop :=
  ∀ (d : Dev) (k typ : Nat) (t : Txn),
    (t.rsv = true → d.checkRequest k typ t = .badRequest) ∧
    (d.tagLimit k ≤ t.tag.toNat → d.checkRequest k typ t = .badRequest) ∧
    (check1 typ t = false → t.tag.toNat < d.tagLimit k →
      (d.role k ≠ 1 → d.role k ≠ 3 → d.checkRequest k typ t = .access) ∧
      (d.role k = 3 → typ < 4 → d.checkRequest k typ t = .access) ∧
      (d.role k = 1 → typ < 6 → d.streamPart k t.stream.toNat = none → d.checkRequest k typ t = .access) ∧
      (∀ p, d.role k = 1 → typ ≤ 4 → d.streamPart k t.stream.toNat = some p →
        (6 ≤ t.tc.toNat → bitAt (d.regFld POL_PRIV 0 16) p = false → d.checkRequest k typ t = .access) ∧
        (t.tc.toNat < 6 → typ ≤ 2 → (t.len.toNat = 0 ∨ 4096 < t.len.toNat) → d.checkRequest k typ t = .badRequest)))

/-- R82: an OPREQ whose operation code is not bound, or whose argument is too short, gets BAD_REQUEST; one that its role may not send ACCESS;
else it starts in a free context, waits in the queue of its tile, or gets BUSY where that is full. -/
def Obligations.OpreqDispatch : Prop :=
  ∀ (d : Dev) (p : Nat) (r : ReqId) (t : Txn),
    (d.binding p r.opcode = none → d.dispatch p r t = d.complete r .opreq .badRequest 0 []) ∧
    (∀ b e, d.binding p r.opcode = some (b, e) →
      ((192 < t.data.length ∨ t.data.length < e.minArg) → d.dispatch p r t = d.complete r .opreq .badRequest 0 []) ∧
      (t.data.length ≤ 192 → e.minArg ≤ t.data.length →
        (bitAt e.roles (if d.role r.link = 3 then 1 else 0) = false → d.dispatch p r t = d.complete r .opreq .access 0 []) ∧
        (bitAt e.roles (if d.role r.link = 3 then 1 else 0) = true →
          (∀ c, d.freeCtx p (opreqTile r.link t) = some c → d.dispatch p r t = d.stampNow.1.startCtx c p b e r t d.stampNow.2) ∧
          (d.freeCtx p (opreqTile r.link t) = none → (d.dispatchQ (opreqTile r.link t) p).length < (d.thrCfg p).2.1 →
            ∃ q, d.dispatch p r t = d.stampNow.1.setDispatchQ (opreqTile r.link t) p (d.dispatchQ (opreqTile r.link t) p ++ [q]) ∧
              q.req = r ∧ q.txn = t ∧ q.cueIn = d.tb.cueCount ∧ q.admitCues = e.admitCues) ∧
          (d.freeCtx p (opreqTile r.link t) = none → (d.thrCfg p).2.1 ≤ (d.dispatchQ (opreqTile r.link t) p).length →
            d.dispatch p r t = d.complete r .opreq .busy 0 []))))

/-- R139, R140, R149 to R151, R167, R199: answers to the device's own requests, which pass the cells of their ingress queue: a receipt moves the
tag to RECEIPTED, a completion ends the request with its status and data, an answer that matches none is counted, and an EVT is dropped and
counted. An answer for another device goes on toward it, or is dropped where no link leads there. -/
def Obligations.AnswersArrive : Prop :=
  (∀ (k : Nat) (a : Answer) (s : State), s.live → s.dev.isUp k = true →
    let y := (s.dev.passCells k).noteCong k a.tc.toNat a.cong
    (y.passesBy k a = none →
      (y.answered k a = none →
        (s.dev.spellsAnswer k a false = true → Yields (.ack k a) s { y with txn := { y.txn with strayAnswers := y.txn.strayAnswers + 1 } }) ∧
        (s.dev.spellsAnswer k a true = true → Yields (.nak k a) s { y with txn := { y.txn with strayAnswers := y.txn.strayAnswers + 1 } })) ∧
      (∀ key r, y.answered k a = some (key, r) →
        (s.dev.spellsAnswer k a false = true → a.compl = false → Yields (.ack k a) s (y.setReq key { r with phase := .receipted })) ∧
        (s.dev.spellsAnswer k a false = true → a.compl = true →
          Yields (.ack k a) s (((y.freeReq key).requestEnd r (some (.ok, a.data))).settleAll)) ∧
        (s.dev.spellsAnswer k a true = true → ∀ st, statusOf a.status.toNat = some st → st ≠ .ok →
          Yields (.nak k a) s (((y.freeReq key).requestEnd r (some (st, []))).settleAll)))) ∧
    (∀ dst, y.passesBy k a = some dst → s.dev.spellsAnswer k a false = true →
      (y.leastQueued (y.fwdLinks dst) = none → Yields (.ack k a) s { y with txn := { y.txn with fwdDropped := y.txn.fwdDropped + 1 } }) ∧
      (∀ j, y.leastQueued (y.fwdLinks dst) = some j → Yields (.ack k a) s (y.ansOut j a false)))) ∧
  (∀ (k : Nat) (tc : BitVec 3) (cong : Bool) (s : State), s.live → s.dev.isUp k = true → s.dev.spellsEvt k tc cong = true →
    Yields (.evtReceived ⟨k, tc, cong⟩) s (((s.dev.passCells k).noteCong k tc.toNat cong).bump (GL_EVT_DROP_CNT + 8 * k)))

/-- R139, R146, R149, R150, R152, R164: receipts, and the ends of records: a result held for replay, the tag of a lost request, the record of a
completed MSG. R28, R129, R130, R147, R254, R257: a WRF whose conditions hold has its flag written as 8 B; one that waits 40 cues for its
count gets TIMEOUT; a notice answered BUSY, and an EVT that is repeated, are sent again when due; a failed mesh edge stays failed, and the
packets of the cue that may have gone by it are sent again by another path and discarded where they have been accepted (R147). -/
def Obligations.RecordsAndTags : Prop :=
  ((∀ (k : Nat) (tag : BitVec 13) (s : State) (r : TagRec), s.live → s.dev.tagRec k tag = some r →
      (s.dev.rsvFits k 1 = true → r.done = false → r.receipted = false →
        Yields (.receipt k tag) s ((s.dev.setTagRec k tag { r with receipted := true }).ansOut k (receiptOf r.id) false)) ∧
      ((r.done = true ∨ r.receipted = true) → s.dev.msgPending k tag = none → s.dev.waitingFor k tag = none → exec (.receipt k tag) s = .next s) ∧
      (s.dev.rsvFits k 1 = false → exec (.receipt k tag) s = .next s) ∧
      (r.done = true → r.kind = .opreq → r.ret ≠ [] → r.doneCue + 48 ≤ s.dev.tb.cueCount →
        ∃ t, exec (.replayExpiry k tag) s = .next t ∧ t.dev.tagRec k tag = some { r with dropped := true, ret := [] } ∧
          (∀ e ∈ t.dev.txn.replay, ¬(e.1 = k ∧ e.2.1 = tag.toNat)) ∧ { t.dev with txn := s.dev.txn } = s.dev)) ∧
    (∀ (key : Nat) (s : State) (r : ReqTag), s.live → Tab.find? s.dev.txn.req key = some r →
      (r.phase = .sent → r.lastSend + 8 ≤ s.dev.tb.cueCount → r.n < 3 → Yields (.tAckExpiry key) s (s.dev.resendReq key r)) ∧
      (r.phase = .sent → r.lastSend + 8 ≤ s.dev.tb.cueCount → 3 ≤ r.n →
        Yields (.tAckExpiry key) s (((s.dev.setReq key { r with phase := .lost, lastSend := s.dev.tb.cueCount }).requestEnd r none).settleAll)) ∧
      (r.phase = .receipted → r.lastSend + (if r.typ = 5 then 24 else 40) ≤ s.dev.tb.cueCount → r.n < 3 →
        Yields (.tDoneExpiry key) s (s.dev.resendReq key r)) ∧
      (r.phase = .lost → r.lastSend + 8 ≤ s.dev.tb.cueCount →
        ∃ t, exec (.lostExpiry key) s = .next t ∧ Tab.find? t.dev.txn.req key = none ∧
          (∀ j, j ≠ key → Tab.find? t.dev.txn.req j = Tab.find? s.dev.txn.req j) ∧ { t.dev with txn := s.dev.txn } = s.dev) ∧
      (s.dev.tb.cueCount < r.lastSend + 8 →
        exec (.tAckExpiry key) s = .next s ∧ exec (.tDoneExpiry key) s = .next s ∧ exec (.lostExpiry key) s = .next s)) ∧
    (∀ (k key : Nat) (tag : BitVec 13) (s : State) (m : MsgRec), s.live → s.dev.rsvFits k 1 = true → s.dev.tagRec k tag = none →
      s.dev.msgPending k tag = some (key, m) →
      Yields (.receipt k tag) s
        (({ s.dev with txn := { s.dev.txn with msgTags := Tab.insert s.dev.txn.msgTags key { m with receipted := true } } } : Dev).sendReceipt k 5 m.txn)) ∧
    (∀ (src : BitVec 12) (tag : BitVec 13) (s : State) (m : MsgRec), s.live →
      Tab.find? s.dev.txn.msgTags (src.toNat * 8192 + tag.toNat) = some m → m.done = true → m.doneCue + 128 ≤ s.dev.tb.cueCount →
      ∃ t, exec (.msgRecordExpiry src tag) s = .next t ∧ Tab.find? t.dev.txn.msgTags (src.toNat * 8192 + tag.toNat) = none ∧
        { t.dev with txn := s.dev.txn } = s.dev)) ∧
  ((∀ (k : Nat) (st : BitVec 8) (rs : BitVec 16) (s : State) (h : HeldWrf), s.live →
      (s.dev.src k st).held.find? (fun h => h.rseq == rs.toNat) = some h →
      (flagReady (s.dev.src k st) h = true → h.failing = false →
        ∃ held, (∀ x ∈ held, x.rseq = h.rseq → x.failing = true) ∧ Yields (.flagWrite k st rs) s
          ((s.dev.setSrc k st { s.dev.src k st with held := held }).homeAccess .store h.txn.flagAddr.toNat 8
            (leBytes 8 h.txn.flagVal.toNat) 0 ((s.dev.streamPart k st.toNat).getD 16) (.flag k st h.rseq)).settleAll) ∧
      (h.accepted + 40 ≤ s.dev.tb.cueCount → countReached (s.dev.src k st) h = false → wrfFailed (s.dev.src k st) h = false →
        Yields (.wrfTimeout k st rs) s
          (((s.dev.setSrc k st (wrfResolve (s.dev.src k st) h.rseq)).finishTag h.id .wrf .timeout 0 []).settleSrc k st)) ∧
      (s.dev.tb.cueCount < h.accepted + 40 → exec (.wrfTimeout k st rs) s = .next s)) ∧
    (∀ (id : Nat) (s : State) (r : Resend), s.live → s.dev.txn.resends.find? (fun r => r.id == id) = some r → r.due ≤ s.dev.tb.cueCount →
      let d : Dev := { s.dev with txn := { s.dev.txn with resends := s.dev.txn.resends.filter (fun x => x.id ≠ id) } }
      let x := d.sendMsg r.part r.txn (.notice r.part r.group r.uid r.until')
      (r.unsent = false → r.until' ≤ s.dev.tb.cueCount → Yields (.noticeResend id) s d) ∧
      ((r.unsent = true ∨ s.dev.tb.cueCount < r.until') →
        (x.2.isSome = true → Yields (.noticeResend id) s x.1.settleGroups) ∧
        (x.2 = none → Yields (.noticeResend id) s
          { x.1 with txn := { x.1.txn with resends := x.1.txn.resends ++ [{ r with due := s.dev.tb.cueCount + 1 }] } }))) ∧
    (∀ (id : Nat) (s : State) (e : EvtRep), s.live → s.dev.txn.evts.find? (fun e => e.id == id) = some e →
      (s.dev.tb.cueCount < e.due → exec (.evtRepeat id) s = .next s) ∧
      (e.due ≤ s.dev.tb.cueCount → e.left ≤ 1 → ∃ d : Dev, d.txn.evts = s.dev.txn.evts.filter (fun x => x.id ≠ id) ∧
        { d with txn := s.dev.txn } = s.dev ∧
        Yields (.evtRepeat id) s ((e.links.filter d.isUp).foldl (fun d k => d.sendEvt k e.code e.info) d))) ∧
    (∀ (edge : Nat) (s : State), s.live → edge < 17 →
      ∃ t, exec (.meshEdgeFailed edge) s = .next t ∧ edge ∈ t.dev.txn.meshFailed ∧
        (∀ j, j ∈ t.dev.txn.meshFailed ↔ j = edge ∨ j ∈ s.dev.txn.meshFailed) ∧
        t.dev.txn.meshDropped = s.dev.txn.meshDropped +
          (s.dev.txn.mesh.filter (fun m => m.cue == s.dev.tb.cueCount && edgeOnPath edge m.src m.dst)).length ∧
        t.dev.txn.req = s.dev.txn.req ∧ t.dev.txn.tags = s.dev.txn.tags ∧ { t.dev with txn := s.dev.txn } = s.dev))

/-! ## Coherence -/

/-- R175, R178, R185: a new request of an agent takes its place in the queue of its line, behind the atomic groups of the line, and starts
there; an EVC or EVD does so whatever the partition. R195: a draining agent's new request gets CNAK ACCESS. R181: an HDM snoop of the host
is answered with RspIHitI (R519). R185: a CMSG that no home knows is counted for its agent. -/
def Obligations.CoherenceRequests : Prop :=
  ∀ (k : Nat) (m : CohMsg) (s : State), s.live →
    let y := s.dev.takeRx k 1
    let entered : Nat → Dev := fun cmsg => ((y.takeTurn (cohLine m) (.coh k cmsg m)).homeEnd).settleAll
    (s.dev.spellsCoh k 1 1 m = true → y.newRequest k 1 m → y.mayFill m → Yields (.rds k m) s (entered 1)) ∧
    (s.dev.spellsCoh k 1 2 m = true → y.newRequest k 2 m → y.mayFill m → Yields (.rdx k m) s (entered 2)) ∧
    (s.dev.spellsCoh k 1 3 m = true → y.newRequest k 3 m → y.mayFill m → Yields (.upg k m) s (entered 3)) ∧
    (s.dev.spellsCoh k 1 4 m = true → y.newRequest k 4 m → Yields (.evc k m) s (entered 4)) ∧
    (s.dev.spellsCoh k 1 5 m = true → y.newRequest k 5 m → Yields (.evd k m) s (entered 5)) ∧
    (s.dev.spellsCoh k 1 1 m = true → y.newRequest k 1 m → y.caState m.ca.toNat = .draining →
      Yields (.rds k m) s (y.cnak k (cohLine m) m .access).settleAll) ∧
    (∀ cmsg, cmsg ∈ [1, 2, 3] → s.dev.spellsCoh k 1 cmsg m = true → y.newRequest k cmsg m → y.caState m.ca.toNat = .active →
      y.owns (y.caPart m.ca.toNat) m.addr.toNat 128 = true → inPromptBook m.addr.toNat 128 = false → y.wayTaken (cohLine m) m = true →
      Yields (if cmsg = 1 then .rds k m else if cmsg = 2 then .rdx k m else .upg k m) s (y.waitWay k cmsg m).settleAll) ∧
    (∀ hpa, Yields (.h2dSnoop hpa) s (s.dev.emit (.rspIHitI hpa))) ∧
    (∀ c : BitVec 5, 5 < c.toNat → c.toNat < 16 → s.dev.spellsCoh k 1 c.toNat m = true →
      Yields (.reservedCmsg k c m) s (y.caErr m.ca.toNat).settleAll) ∧
    (∀ c : BitVec 5, 17 < c.toNat → s.dev.spellsCoh k 3 c.toNat m = true →
      Yields (.reservedCmsg k c m) s ((s.dev.takeRx k 3).caErr m.ca.toNat).settleAll)

/-- R114, R175, R185: on an idle line of good granules, for an active agent whose named way holds no other line, RDS grants E where no other
agent holds the line and S where others hold it in S; RDX grants M; the entry the grant names is EM or S, the line waits for GACK, and the
data is NEAR's. UPG of a holder grants M without data. R185: the rest of the IDLE table: requests that the agent's own entry forbids,
evictions, dirty evictions, whose data reaches NEAR, and the snoops that other agents' entries call for. -/
def Obligations.CoherenceGrants : Prop :=
  (∀ (d : Dev) (k line : Nat) (m : CohMsg), d.mem.clean → d.caState m.ca.toNat = .active → d.wayTaken line m = false →
      let ca := m.ca.toNat
      let granted : Dev → Nat → FState → Bytes → Prop := fun t cmsg st data =>
        (∃ (g : CohMsg) (l : List Out), t.out = d.out ++ [.coh k cmsg g] ++ l ∧ g.ca = m.ca ∧ g.rseq = m.rseq ∧ g.data = data) ∧
        (t.entryOf ca line).map (·.2) = some st ∧ (∀ b, b < 16 → b ≠ ca → t.entryOf b line = d.entryOf b line) ∧
        (t.hline line).phase = .waitAck ∧ t.mem = d.mem
      (d.entryOf ca line = none → d.others ca line = [] → granted (d.startCoh k line 1 m) 0x19 .em (d.mem.bytesAt (lineAddr line) 128)) ∧
      (d.entryOf ca line = none → d.others ca line ≠ [] → (∀ h ∈ d.others ca line, h.2 = .s) →
        granted (d.startCoh k line 1 m) 0x18 .s (d.mem.bytesAt (lineAddr line) 128)) ∧
      (d.entryOf ca line = none → d.others ca line = [] → granted (d.startCoh k line 2 m) 0x1A .em (d.mem.bytesAt (lineAddr line) 128)) ∧
      (∀ e, d.entryOf ca line = some e → e.2 ≠ .em → (d.clearEntry ca line).entryOf ca line = none → d.others ca line = [] →
        granted (d.startCoh k line 3 m) 0x1B .em [])) ∧
  (∀ (d : Dev) (k line : Nat) (m : CohMsg), d.caState m.ca.toNat = .active → d.wayTaken line m = false →
      let ca := m.ca.toNat
      let snooping : Dev → SnpKind → List Nat → Prop := fun t kind cas =>
        (t.hline line).phase = .waitSnp ∧ (t.hline line).txn.map (fun t => (t.snp, t.waiting.map (·.1))) = some (kind, cas) ∧ t.mem = d.mem
      (∀ e, d.entryOf ca line = some e → (d.clearEntry ca line).entryOf ca line = none →
        d.startCoh k line 1 m = d.cnak k line m .badRequest ∧ d.startCoh k line 2 m = d.cnak k line m .badRequest ∧
        (e.2 = .em → d.startCoh k line 3 m = d.cnak k line m .badRequest) ∧
        (e.2 ≠ .o → (d.startCoh k line 4 m).entryOf ca line = none ∧ (d.startCoh k line 4 m).mem = d.mem) ∧
        (e.2 = .o → (d.startCoh k line 4 m).lineMarked line = true) ∧
        (e.2 ≠ .s → d.mirrors = false → m.data.length = 128 → ∀ a, (d.startCoh k line 5 m).mem.byte a =
          if lineAddr line ≤ a ∧ a < lineAddr line + 128 then m.data.getD (a - lineAddr line) 0 else d.mem.byte a)) ∧
      (d.entryOf ca line = none →
        d.startCoh k line 4 m = d.cohAnswer k line 0x1C m .ok ∧ d.startCoh k line 5 m = d.cohAnswer k line 0x1C m .ok) ∧
      (d.entryOf ca line = none → d.lineMarked line = false →
        (∀ h, (d.others ca line).find? (fun h => h.2 != .s) = some h → snooping (d.startCoh k line 1 m) .sns [h.1]) ∧
        (d.others ca line ≠ [] → snooping (d.startCoh k line 2 m) .sni ((d.others ca line).map (·.1)))))

/-- R186, R187, R191: an SR that a line waits for is recorded, and the last one ends the wait; GACK of the granted request frees the line; a
snoop or a grant that is not answered is sent again up to 3 times, 2 and 8 cues apart, and then the agent is failed. -/
def Obligations.SnoopAnswers : Prop :=
  (∀ (k : Nat) (m : CohMsg) (s : State) (t : HomeTxn), s.live →
    let y := s.dev.takeRx k 3
    let h := y.hline (cohLine m)
    s.dev.spellsCoh k 3 0x10 m = true → m.htile.toNat = lineHome (cohLine m) → cohMalformed 0x10 m = false → y.cohTaken k m = true → h.txn = some t → h.phase = .waitSnp → t.txid = m.id.toNat →
    spaceOf m.addr.toNat = 1 → t.waiting.any (fun w => w.1 == m.ca.toNat) = true →
    newstOk t.snp ((y.entryOf m.ca.toNat (cohLine m)).map (·.2)) m.newst.toNat = true →
    let u : HomeTxn := { t with
      waiting := t.waiting.filter (fun w => w.1 ≠ m.ca.toNat)
      resp := t.resp ++ [(m.ca.toNat, m.newst.toNat)]
      data := if m.d then some (slice m.data 0 128) else t.data }
    let z := y.setLine (cohLine m) { h with txn := some u }
    (u.waiting ≠ [] → Yields (.sr k m) s z.homeEnd.settleAll) ∧
    (u.waiting = [] → Yields (.sr k m) s (z.finishSnoops (cohLine m) u).homeEnd.settleAll)) ∧
  (∀ (k : Nat) (m : CohMsg) (s : State) (t : HomeTxn), s.live →
    let y := s.dev.takeRx k 3
    let h := y.hline (cohLine m)
    s.dev.spellsCoh k 3 0x11 m = true → cohMalformed 0x11 m = false → y.cohTaken k m = true → h.txn = some t → h.phase = .waitAck → sameReq m t.serves = true →
    spaceOf m.addr.toNat = 1 →
    Yields (.gack k m) s
      (((y.keepDone (cohLine m) m none).setLine (cohLine m) { h with phase := .idle, txn := none }).pumpLine (cohLine m)).homeEnd.settleAll) ∧
  (∀ (line : Nat) (s : State) (t : HomeTxn), s.live → (s.dev.hline line).phase = .waitSnp → (s.dev.hline line).txn = some t →
    (t.lastSend + 2 ≤ s.dev.tb.cueCount → t.resends < 3 → ∃ d : Dev,
      (d.hline line).txn = some { t with resends := t.resends + 1, lastSend := s.dev.tb.cueCount } ∧ d.mem = s.dev.mem ∧
      Yields (.tSnpExpiry line) s d.settleAll) ∧
    (t.lastSend + 2 ≤ s.dev.tb.cueCount → 3 ≤ t.resends →
      Yields (.tSnpExpiry line) s (t.waiting.foldl (fun d w => d.caFail w.1) s.dev).settleAll)) ∧
  (∀ (line k c : Nat) (m : CohMsg) (g : Nat × CohMsg) (s : State) (t : HomeTxn), s.live → (s.dev.hline line).phase = .waitAck →
    (s.dev.hline line).txn = some t → t.serves = .coh k c m → t.grant = some g → t.lastSend + 8 ≤ s.dev.tb.cueCount →
    (t.resends < 3 → ∃ d : Dev, (∃ o l, d.out = s.dev.out ++ o ++ [.coh k g.1 { g.2 with rtx := true }] ++ l) ∧
      Yields (.tGackExpiry line) s d.settleAll) ∧
    (3 ≤ t.resends →
      let d := s.dev.caFail m.ca.toNat
      (¬((d.hline line).phase = .waitAck ∧ (d.hline line).txn = some t) → Yields (.tGackExpiry line) s d.settleAll) ∧
      ((d.hline line).phase = .waitAck → (d.hline line).txn = some t →
        Yields (.tGackExpiry line) s ((d.setLine line { d.hline line with phase := .idle, txn := none }).pumpLine line).homeEnd.settleAll)))

/-- R194 to R196: enabling, draining and disabling an agent: a declaration with allowed fields makes it active; disabling an active agent drains
its lines, and it is disabled once it holds none. -/
def Obligations.AgentStates : Prop :=
  (∀ (n : Nat) (v : Word) (s : State), s.live → n < 16 → s.dev.caState n = .disabled → v.toNat < 2 ^ 49 → fld v.toNat 9 4 ≤ 13 →
    (∀ k ∈ bitsSet 36 (fld v.toNat 13 36), s.dev.role k = 1 ∧
      ∀ j, j < 16 → j ≠ n → s.dev.regFld (GL_CA_CFG + 8 * j) 0 1 = 1 → k ∉ s.dev.caLinks j) →
    ∃ d : Dev, d.caState n = .active ∧ d.reg (GL_CA_CFG + 8 * n) = setFld v.toNat 0 1 1 ∧ d.mem = s.dev.mem ∧
      Yields (.caEnable n v) s d.settleAll) ∧
  (∀ (n : Nat) (v : Word) (s : State), s.live → n < 16 → s.dev.caState n = .active →
    ∃ d : Dev, d.caState n = .draining ∧ d.regFld (GL_CA_CFG + 8 * n) 0 1 = 0 ∧ d.mem = s.dev.mem ∧
      (∀ j, j ≠ n → d.caState j = s.dev.caState j) ∧
      Yields (.caDisable n v) s (((d.linesOf n).foldl (fun d h => d.takeTurn h.1 (.drain n)) d).homeEnd.settleAll)) ∧
  (∀ (n : Nat) (s : State), s.live → n < 16 → s.dev.caState n = .draining → s.dev.linesOf n = [] → s.dev.coh.lines = [] →
    ∃ t, exec (.drainDone n) s = .next t ∧ t.dev.caState n = .disabled ∧ t.dev.mem = s.dev.mem ∧ t.dev.coh.filter = s.dev.coh.filter) ∧
  (∀ (n : Nat) (s : State), s.dev.caState n ≠ .draining → exec (.drainDone n) s = .next s)

/-! ## The switch core and the engines -/

/-- R206, R207, R211 to R213, R223: the colours of a marker and what each costs; the settings of markers; the audit; the order in which a link
sends; and a gap in an ordered flow that is given up after 8 cues. -/
def Obligations.SwitchCommands : Prop :=
  (∀ (d : Dev) (k tc bytes : Nat),
    let n := 8 * k + tc
    let y := d.police k tc bytes
    let tokens : Dev → Nat × Nat := fun d => (Tab.get 0 d.sw.tc n, Tab.get 0 d.sw.tp n)
    let l := d.lenOn k bytes * 256
    ((d.marker n).en = false → y.2 = .green ∧ tokens y.1 = tokens d) ∧
    ((d.marker n).en = true →
      (y.2 = .red ↔ (tokens d).2 < l) ∧ (y.2 = .yellow ↔ l ≤ (tokens d).2 ∧ (tokens d).1 < l) ∧
      (y.2 = .red → tokens y.1 = tokens d) ∧ (y.2 = .yellow → tokens y.1 = ((tokens d).1, (tokens d).2 - l)) ∧
      (y.2 = .green → tokens y.1 = ((tokens d).1 - l, (tokens d).2 - l)))) ∧
  (∀ (n : Nat) (v : Word) (s : State), s.live → n < 288 →
    let old := s.dev.reg (POL_BURST + 16 * n)
    (markerBad v.toNat old = true → Yields (.polRateWrite n v) s (s.dev.setRegBit POL_STAT 0)) ∧
    (markerBad v.toNat old = false → ∃ t, exec (.polRateWrite n v) s = .next t ∧ t.dev.reg (POL_RATE + 16 * n) = v.toNat ∧
      (bitAt old 48 = true → t.dev.sw = s.dev.sw) ∧ t.dev.mem = s.dev.mem)) ∧
  (∀ (n : Nat) (v : Word) (s : State), s.live → n < 288 →
    let rate := s.dev.reg (POL_RATE + 16 * n)
    let b := v.toNat % 2 ^ 49
    (markerBad rate b = true → Yields (.polBurstWrite n v) s (s.dev.setRegBit POL_STAT 0)) ∧
    (markerBad rate b = false → ∃ t, exec (.polBurstWrite n v) s = .next t ∧ t.dev.reg (POL_BURST + 16 * n) = b ∧ t.dev.mem = s.dev.mem ∧
      (bitAt (s.dev.reg (POL_BURST + 16 * n)) 48 = false → bitAt b 48 = true →
        Tab.get 0 t.dev.sw.tc n = fld b 0 24 * 256 ∧ Tab.get 0 t.dev.sw.tp n = fld b 24 24 * 256))) ∧
  (∀ (v : Word) (s : State), s.live →
    (512 ≤ fld v.toNat 0 16 → Yields (.swAuditCfgWrite v) s (s.dev.putReg SW_AUDIT_CFG (v.toNat % 2 ^ 17))) ∧
    (fld v.toNat 0 16 < 512 → ∃ t, exec (.swAuditCfgWrite v) s = .next t ∧ t.dev.auditAge = s.dev.auditAge ∧ t.dev.sw = s.dev.sw)) ∧
  (∀ s : State, s.live →
    (s.dev.regFld SW_AUDIT_CFG 16 1 = 1 → s.dev.sw.auditCue + 4000 ≤ s.dev.tb.cueCount →
      Yields .auditPass s ((List.range 612).foldl Dev.auditQ { s.dev with sw := { s.dev.sw with auditCue := s.dev.tb.cueCount } })) ∧
    ((s.dev.regFld SW_AUDIT_CFG 16 1 ≠ 1 ∨ s.dev.tb.cueCount < s.dev.sw.auditCue + 4000) → exec .auditPass s = .next s)) ∧
  (∀ (d : Dev) (q : Nat),
    let lost : QPkt → Bool := fun p => p.cells.any (fun i => (Tab.find? d.sw.cells i).any d.leaked)
    (∀ p ∈ (d.auditQ q).swQ q, p ∈ d.swQ q ∧ lost p = false) ∧
    (∀ p ∈ d.swQ q, (∀ b ∈ d.swQ q, lost b = true → b.handle ≠ p.handle) → p ∈ (d.auditQ q).swQ q)) ∧
  (∀ (d : Dev) (k : Nat) (p : QPkt) (l : List QPkt),
    (d.swQ (answerQ k) = p :: l → (d.egress k).2 = some (answerQ k, p)) ∧
    (d.swQ (answerQ k) = [] → d.swQ (classQ k 7) = p :: l → d.shaperLets k 7 p = true → (d.egress k).2 = some (classQ k 7, p)) ∧
    (d.swQ (answerQ k) = [] → d.swQ (classQ k 7) = [] → d.swQ (classQ k 6) = p :: l → d.shaperLets k 6 p = true →
      (d.egress k).2 = some (classQ k 6, p))) ∧
  (∀ (k : Nat) (s : State) (q : Nat) (p : QPkt), s.live → s.dev.isUp k = true → (s.dev.egress k).2 = some (q, p) →
    let c := s.dev.chan k 0
    let n := s.dev.flitsFor k (wireBytes p.wire)
    (c.txSlots = [] → (c.txSeq + 32768 - c.txAck) % 32768 + n ≤ c.txGrant →
      Yields (.linkTransmit k) s (((s.dev.egress k).1.sendFront k q p).unblock.resumeAll handlers)) ∧
    ((c.txSlots ≠ [] ∨ c.txGrant < (c.txSeq + 32768 - c.txAck) % 32768 + n) → exec (.linkTransmit k) s = .next s)) ∧
  (∀ (i : Nat) (s : State), s.live → (s.dev.flow i).held ≠ [] →
    let f := s.dev.flow i
    ((∃ e ∈ f.held, e.2.1 + 8 ≤ s.dev.tb.cueCount) → ∃ n, (∃ e ∈ f.held, n = sub16 e.1 f.exp) ∧ (∀ e ∈ f.held, n ≤ sub16 e.1 f.exp) ∧
      let y := ({ f with exp := (f.exp + n) % 65536 } : Reseq).release f.held.length
      Yields (.reseqGapLost i) s (((((s.dev.bumpBy SW_RESEQ_LOST n).setFlow i y.1).releaseFlow i y.2).landFlow i).settleMacks)) ∧
    ((∀ e ∈ f.held, s.dev.tb.cueCount < e.2.1 + 8) → exec (.reseqGapLost i) s = .next s))

/-- R221 to R224: a resequencer drops, and counts as late, a packet outside its window of 4,096 or already held; the expected one is released
with those that follow it in order; any other is held. A sender numbers its packets in turn and keeps its flow within the window. -/
def Obligations.OrderedFlows : Prop :=
  (∀ (f : Reseq) (now seq : Nat) (p : FlowPkt), f.exp < 65536 → seq < 65536 →
    let y := f.arrive now seq p
    ((4096 ≤ (seq + 65536 - f.exp) % 65536 ∨ (Tab.find? f.held seq).isSome = true) → y = (f, [], 1)) ∧
    ((seq + 65536 - f.exp) % 65536 < 4096 → Tab.find? f.held seq = none →
      y.2.2 = 0 ∧ y.1.exp = (f.exp + y.2.1.length) % 65536 ∧ y.1.sent = f.sent ∧ y.1.flight = f.flight ∧
      (seq = f.exp → y.2.1.head? = some (now, p.2)) ∧
      (seq ≠ f.exp → Tab.find? f.held f.exp = none → y.2.1 = [] ∧ Tab.find? y.1.held seq = some (now, p.2)) ∧
      (∀ j, j < y.2.1.length → ∀ x, y.2.1[j]? = some x →
        x = (now, p.2) ∧ (f.exp + j) % 65536 = seq ∨ Tab.find? f.held ((f.exp + j) % 65536) = some x))) ∧
  (∀ (f : Reseq) (now n : Nat) (p : FlowPkt) (ps : List FlowPkt), f.exp < 65536 → f.sent < 65536 → (∀ e ∈ f.flight, now < e.2.1) →
    f.waits = p :: ps →
    (4096 ≤ (f.sent + 65536 - f.exp) % 65536 → f.run now (n + 1) = (f, [], 0)) ∧
    ((f.sent + 65536 - f.exp) % 65536 < 4096 → f.run now (n + 1) =
      ({ f with sent := (f.sent + 1) % 65536, flight := Tab.insert f.flight f.sent (now + p.1, p.2), waits := ps } : Reseq).run now n))

/-- R226 to R230, R234, R235, R238, R239, R256, R260: reduction groups: OPEN of a group without a tree puts it in COLLECT; a contribution is
recorded; ABORT and DEADLINE abort it; a group with all its contributions is summed; an early entry that no group claims is answered BUSY; a
group that has ended is freed after HOLD cues. -/
def Obligations.ReductionGroups : Prop :=
  (∀ (e : EngId) (p : Nat) (s : State) (x : DescEntry), s.starts e p 1 1 (openPre e) x →
    let g : Group := { groupOf x (s.dev.reg RDC_CFG) s.dev.tb.cueCount [] with uid := s.dev.rdc.nextUid }
    g.role = 0 → spaceOf (x.fl 320 64) ≠ 3 → spaceOf (x.fl 320 64) ≠ 4 → s.dev.coh.groups = [] →
    (s.dev.rdc.groups.filter (fun h => groupEngine h.gid == e)).length < 64 → s.dev.group x.part g.gid = none → s.dev.rdc.early = [] →
    ∃ t, exec (.reduceOpen e p) s = .next t ∧ t.dev.rdc.groups = s.dev.rdc.groups ++ [g] ∧ t.dev.mem = s.dev.mem ∧ g.state = .collect ∧
      g.contribs = []) ∧
  (∀ (e : EngId) (x : DescEntry) (d : Dev), openPre e d x = .ok ↔
    let g := groupOf x (d.reg RDC_CFG) d.tb.cueCount []
    (e = groupEngine g.gid ∧ openBad x g = false) ∧ d.inOwn x.part g.stage g.stageLen = true ∧
      (g.writes = true → d.inOwn x.part g.result g.resLen = true) ∧ d.inOwn x.part (treeRange x).1 (treeRange x).2 = true) ∧
  (∀ (e : EngId) (p : Nat) (s : State) (x : DescEntry) (g : Group), s.starts e p 1 2 noPre x → s.dev.group x.part (x.fl 64 32) = some g →
    g.state = .collect → x.fl 96 16 < g.nlocal → Tab.find? g.contribs (x.fl 96 16) = none →
    ∃ t, exec (.contrib e p) s = .next t ∧ t.dev.mem = s.dev.mem ∧ t.dev.group x.part (x.fl 64 32) =
      some { g with contribs := Tab.insert g.contribs (x.fl 96 16) (.ctx x.ctx x.slot x.gen) }) ∧
  (∀ (e : EngId) (p : Nat) (s : State) (x : DescEntry) (g : Group), s.starts e p 1 3 noPre x → s.dev.group x.part (x.fl 64 32) = some g →
    g.state ≠ .done → ∃ d : Dev, d.rdc = s.dev.rdc ∧ d.mem = s.dev.mem ∧
      Yields (.abort e p) s (((d.groupFail g .aborted).answerContrib (.ctx x.ctx x.slot x.gen) .aborted []).endUnit s.dev)) ∧
  (∀ (p gid : Nat) (s : State) (g : Group), s.live → s.dev.group p gid = some g →
    (groupEngine gid ∉ s.dev.eng.hung → g.state = .collect → g.ready = true →
      (∀ d, s.dev.groupSlot (groupEngine gid) p = some d →
        Yields (.groupReduce p gid) s (Dev.asParty (groupParty g) (fun d => d.reduceGroup g) d)) ∧
      (s.dev.groupSlot (groupEngine gid) p = none → exec (.groupReduce p gid) s = .next s)) ∧
    (g.state = .collect → g.ready = false → exec (.groupReduce p gid) s = .next s) ∧
    (g.openCue + g.deadline ≤ s.dev.tb.cueCount → Yields (.groupDeadline p gid) s (s.dev.groupAbort g (statusCode .timeout) s.dev.devId none)) ∧
    (s.dev.tb.cueCount < g.openCue + g.deadline → exec (.groupDeadline p gid) s = .next s) ∧
    (g.live = false → g.endCue + g.hold ≤ s.dev.tb.cueCount →
      ∃ t, exec (.groupHoldExpiry p gid) s = .next t ∧ t.dev.group p gid = none ∧ t.dev.mem = s.dev.mem ∧
        (∀ q j, (q ≠ p ∨ j ≠ gid) → t.dev.group q j = s.dev.group q j)) ∧
    (g.live = true → exec (.groupHoldExpiry p gid) s = .next s)) ∧
  (∀ (tile i : Nat) (s : State) (who : Contributor) (p gid index cue : Nat), s.live →
    (s.dev.earlyTable tile)[i]? = some (.contrib who p gid index cue) →
    (cue + earlyOf (s.dev.reg RDC_CFG) ≤ s.dev.tb.cueCount → ∃ d : Dev, d.earlyTable tile = (s.dev.earlyTable tile).eraseIdx i ∧
      d.mem = s.dev.mem ∧ d.thr = s.dev.thr ∧ Yields (.earlyExpiry tile i) s (d.answerContrib who .busy [])) ∧
    (s.dev.tb.cueCount < cue + earlyOf (s.dev.reg RDC_CFG) → exec (.earlyExpiry tile i) s = .next s))

/-- R263, R268, R269, R271: the gather table directory and the hot-row cache. -/
def Obligations.GatherTables : Prop :=
  (∀ (a : TableAdd) (s : State) (r : Region) (i : Nat), s.serves → s.dev.regionFor none a.region = some r → tableBad a = false →
    let num := if a.version = 0 then r.head else a.version
    (∀ v, s.dev.version a.region.index num = some v → a.rows * a.rowBytes ≤ v.len) → (s.dev.isConf r.part = false ∨ a.share.toNat = 2 ^ r.part) →
    let f := s.dev.pickOne 4 ((List.range 4096).filter (fun i => (s.dev.gslot i).state == .free))
    f.2 = some i →
    let o := f.1.openVer a.region.index a.version
    (o.2.1 = .ok → ∃ d : Dev, d.gslot i = ⟨.active, a.region, o.2.2, a.rows, a.rowBytes, a.fmt, a.dim, a.share⟩ ∧ (∀ j, j ≠ i → d.gslot j = s.dev.gslot j) ∧ d.mem = o.1.mem ∧
      Yields (.gthTableAdd a) s (d.answer s.dev (.mailbox 0xC340) .ok (leBytes 8 i ++ leBytes 8 (i + o.2.2 * 2 ^ 12)))) ∧
    (o.2.1 ≠ .ok → Yields (.gthTableAdd a) s (o.1.emit (.mailbox 0xC340 .revoked [])))) ∧
  (∀ (a : TableAdd) (s : State) (r : Region), s.serves → s.dev.regionFor none a.region = some r →
    (tableBad a = true → Yields (.gthTableAdd a) s (s.dev.emit (.mailbox 0xC340 .badRequest []))) ∧
    (tableBad a = false → s.dev.isConf r.part = true → a.share.toNat ≠ 2 ^ r.part →
      (∀ v, s.dev.version a.region.index (if a.version = 0 then r.head else a.version) = some v → a.rows * a.rowBytes ≤ v.len) →
      Yields (.gthTableAdd a) s (s.dev.emit (.mailbox 0xC340 .access [])))) ∧
  (∀ (i : Nat) (s : State), s.serves →
    (i < 4096 → (s.dev.gslot i).state ≠ .free → ∃ t, exec (.gthTableRemove i) s = .next t ∧
      t.dev.gslot i = { s.dev.gslot i with state := .draining } ∧ (∀ j, j ≠ i → t.dev.gslot j = s.dev.gslot j) ∧
      (∀ e ∈ t.dev.gth.cache, e.2.slot = i → e.2.dead = true ∧ ∃ q ∈ s.dev.gth.pins, q.2 = e.1) ∧ (∀ e ∈ s.dev.gth.cache, e.2.slot ≠ i → e ∈ t.dev.gth.cache) ∧
      t.dev.out = s.dev.out ++ [.mailbox 0xC341 .ok []] ∧ t.dev.mem = s.dev.mem ∧ t.dev.ver = s.dev.ver) ∧
    ((4096 ≤ i ∨ (s.dev.gslot i).state = .free) → Yields (.gthTableRemove i) s (s.dev.emit (.mailbox 0xC341 .badRequest []))) ∧
    (i < 4096 → ∃ body, body.length = 72 ∧ body.take 8 = leBytes 8 (slotStateCode (s.dev.gslot i).state) ∧
      Yields (.gthTableQuery i) s (s.dev.emit (.mailbox 0xC342 .ok body))) ∧
    (4096 ≤ i → Yields (.gthTableQuery i) s (s.dev.emit (.mailbox 0xC342 .badRequest [])))) ∧
  (∀ (i : Nat) (s : State), s.live → let g := s.dev.gslot i
    (g.state = .draining → s.dev.slotHeld i = false →
      Yields (.gthSlotFree i) s ((s.dev.setGslot i GSlot.reset).closeHeld g.region g.version)) ∧
    ((g.state ≠ .draining ∨ s.dev.slotHeld i = true) → exec (.gthSlotFree i) s = .next s)) ∧
  (∀ (tile p slot ver block : Nat) (s : State), s.live →
    (∀ f e, s.dev.gth.fetches.find? (fun f => f.same tile p slot ver block) = some f → List.find? (fun e => e.1 / 2 ^ 38 == f.party) s.dev.ver.held = some e →
      ∃ t, exec (.blockFetchDone tile p slot ver block) s = .next t ∧
        t.dev.gth.fetches = s.dev.gth.fetches.filter (fun g => !g.same tile p slot ver block) ∧
        t.dev.gth.fetched = s.dev.gth.fetched ++ f.waits.map (fun i => { desc := i, slot := slot, version := ver, block := block, bytes := e.2 }) ∧
        ((e.2 = [] ∨ f.fill = false ∨ s.dev.nblk p = 0 ∨ (s.dev.gslot slot).state ≠ .active ∨ (s.dev.gslot slot).version ≠ ver) →
          t.dev.gth.cache = s.dev.gth.cache ∧ t.dev.mem = s.dev.mem)) ∧
    (∀ f, s.dev.gth.fetches.find? (fun f => f.same tile p slot ver block) = some f → List.find? (fun e => e.1 / 2 ^ 38 == f.party) s.dev.ver.held = none →
      exec (.blockFetchDone tile p slot ver block) s = .next s) ∧
    (s.dev.gth.fetches.find? (fun f => f.same tile p slot ver block) = none → exec (.blockFetchDone tile p slot ver block) s = .next s)) ∧
  (∀ (v : Word) (s : State), s.live →
    let on := s.dev.regFld GTH_CACHE_CFG 16 1
    let n := fun p => s.dev.regFld (GTH_CACHE_PART + 8 * p) 0 16
    (on = 1 → fld v.toNat 16 1 = 0 → ∃ t, exec (.gthCacheCfgWrite v) s = .next t ∧ t.dev.cacheOn = false ∧
      (∀ e ∈ t.dev.gth.cache, e.2.dead = true ∧ ∃ q ∈ s.dev.gth.pins, q.2 = e.1) ∧
      t.dev.gth.dir = s.dev.gth.dir ∧ t.dev.mem = s.dev.mem) ∧
    (on = 1 → fld v.toNat 16 1 = 1 → exec (.gthCacheCfgWrite v) s = .next s) ∧
    (on ≠ 1 → fld v.toNat 16 1 = 1 → ((List.range 16).map n).sum ≤ min 32768 (fld v.toNat 0 16) → (∀ p, p < 16 → n p % 8 = 0) →
      ∃ t, exec (.gthCacheCfgWrite v) s = .next t ∧ (∀ p, p < 16 → t.dev.nblk p = n p) ∧ t.dev.mem = s.dev.mem) ∧
    (on ≠ 1 → fld v.toNat 16 1 = 1 → min 32768 (fld v.toNat 0 16) < ((List.range 16).map n).sum →
      ∃ t, exec (.gthCacheCfgWrite v) s = .next t ∧ t.dev.cacheOn = false ∧ t.dev.gth = s.dev.gth))

/-- R37, R77, R78, R80, R311, R575: an engine that is not hung works on the first unfinished descriptor of a partition: a check that fails ends
it before a work unit starts; a work unit takes slots of the cue, counts, and runs the operation; without slots nothing happens. An
attention engine first runs a shadow that is due. WORK_UNIT runs the unit of the descriptor at the front. -/
def Obligations.EngineWork : Prop :=
  RunsUnits .gather 2 1 (fun _ => gatherPre false) (fun e => Dev.gatherWork e false) ∧
  RunsUnits .pooled 2 2 (fun _ => gatherPre true) (fun e => Dev.gatherWork e true) ∧
  RunsUnits .select 3 1 (fun _ => selectPre) (fun _ => Dev.selectWork) ∧
  RunsUnits .topk 3 2 (fun _ => topkPre) Dev.topkWork ∧
  RunsUnits .pack 4 1 (fun _ => codecPre false) (fun _ => Dev.codecWork false) ∧
  RunsUnits .unpack 4 2 (fun _ => codecPre true) (fun _ => Dev.codecWork true) ∧
  RunsUnits .compute 5 1 computePre Dev.computeWork ∧
  RunsUnits .snoopEngine 5 2 snoopEnginePre Dev.snoopEngineWork ∧
  RunsUnits .snoopPort 5 3 snoopPortPre Dev.snoopPortWork ∧
  RunsUnits .dense 0 1 (fun _ => jobPre) (fun e => Dev.denseWork e.tile) ∧
  RunsUnits .sketch 0 2 (fun _ => jobPre) (fun e => Dev.sketchWork e.tile) ∧
  RunsUnits .score 0 2 (fun _ => jobPre) (fun e => Dev.scoreWork e.tile) ∧
  RunsUnits .sketchSelect 0 2 (fun _ => jobPre) (fun e => Dev.selectPhase e.tile) ∧
  RunsUnits .exact 0 2 (fun _ => jobPre) (fun e => Dev.exactWork e.tile) ∧
  RunsUnits .merge 0 3 (fun _ => mergePre) (fun _ => Dev.mergeWork) ∧
  (∀ (e : EngId) (p : Nat) (s : State) (x : DescEntry), s.dev.atWork e p = some x →
    let run := fun (i : Instr) => exec (.workUnit e p) s = exec i s
    (e.cls = 0 → s.dev.shadowDue e p = true → run (.shadow e p)) ∧
    (e.cls = 0 → s.dev.shadowDue e p = false → (x.op = 1 → run (.dense e p)) ∧ (x.op = 3 → run (.merge e p)) ∧
      (x.op = 2 → (x.phase = .fresh → run (.sketch e p)) ∧ (x.phase = .loaded → run (.score e p)) ∧ (x.phase = .scored → run (.sketchSelect e p)) ∧
        (x.phase = .selected → run (.exact e p)))) ∧
    (e.cls = 1 → (x.op = 1 → run (.reduceOpen e p)) ∧ (x.op = 2 → run (.contrib e p)) ∧ (x.op = 3 → run (.abort e p))) ∧
    (e.cls = 2 → (x.op = 1 → run (.gather e p)) ∧ (x.op = 2 → run (.pooled e p))) ∧
    (e.cls = 3 → (x.op = 1 → run (.select e p)) ∧ (x.op = 2 → run (.topk e p))) ∧
    (e.cls = 4 → (x.op = 1 → run (.pack e p)) ∧ (x.op = 2 → run (.unpack e p))) ∧
    (e.cls = 5 → (x.op = 1 → run (.compute e p)) ∧ (x.op = 2 → run (.snoopEngine e p)) ∧ (x.op = 3 → run (.snoopPort e p)))) ∧
  (∀ (e : EngId) (p : Nat) (s : State), s.dev.atWork e p = none → (e.cls = 0 → exec (.workUnit e p) s = exec (.shadow e p) s) ∧
    (e.cls ≠ 0 → exec (.workUnit e p) s = .next s)) ∧
  (∀ (e : EngId) (p : Nat) (s : State),
    (∀ x, s.live → e ∉ s.dev.eng.hung →
      s.dev.eng.shadows.find? (fun x => x.part == p && descEng x.ctx x.word == e && (s.dev.findDesc x.id).isNone) = some x →
      Yields (.shadow e p) s (Dev.asParty (descParty x.id) (fun d => d.shadowRun e.tile x) s.dev)) ∧
    ((e ∈ s.dev.eng.hung ∨ s.dev.eng.shadows.find? (fun x => x.part == p && descEng x.ctx x.word == e && (s.dev.findDesc x.id).isNone) = none) →
      exec (.shadow e p) s = .next s)) ∧
  (∀ (d : Dev) (e : EngId) (x : DescEntry),
    let u := d.startUnit e x
    u.2.started = true ∧ u.2.work = x.work + 1 ∧ (x.started = false → u.2.firstCue = d.tb.cueCount) ∧ (x.started = true → u.2.firstCue = x.firstCue) ∧
      u.1.mem = d.mem ∧ u.1.thr = d.thr ∧ Tab.find? u.1.eng.lastUnit (engKey e) = some d.tb.cueCount) ∧
  (∀ (d : Dev) (e : EngId) (x : DescEntry), ((crcBad x = true ∨ lenBad x = true) → computePre e d x = .badRequest) ∧
    (computePre e d x = .ok → e.inst < 14 ∧ d.engCheck x (x.fl 320 64) 16 true = .ok ∧ d.engCheck x (x.fl 384 64) (x.fl 448 27) false = .ok)) ∧
  (∀ (d : Dev) (x : DescEntry), (2 ^ 26 < x.fl 256 27 → codecPre true d x = .badRequest) ∧
    ((2 ^ 26 < x.fl 256 27 ∨ x.fl 256 27 % 4096 ≠ 0) → codecPre false d x = .badRequest))

/-- R307: the selection of a SKETCH job takes every candidate where there are at most K; else at least K and at most K_MAX of them, among them
every candidate with a code above the cut; its candidates come in their order. -/
def Obligations.SelectionSize : Prop :=
  ∀ (k kmax margin : Nat) (codes : List (Nat × Nat)), 0 < k → k ≤ kmax → (∀ e ∈ codes, e.2 < 64) → (codes.map (·.1)).Nodup →
    let r := selection k kmax margin ((List.range 64).map (fun c => codes.countP (fun e => e.2 == c))) codes
    r.1.Sublist (codes.map (·.1)) ∧
    (codes.length ≤ k → r.1 = codes.map (·.1)) ∧
    (k < codes.length → k ≤ r.1.length ∧ r.1.length ≤ kmax ∧ (r.2.2.2.2 = true → r.1.length = kmax) ∧
      (r.2.2.2.2 = false → ∀ e ∈ codes, r.2.2.1 ≤ e.2 → e.1 ∈ r.1) ∧ (r.2.2.2.2 = true → ∀ e ∈ codes, r.2.2.2.1 < e.2 → e.1 ∈ r.1))

/-- R38, R74, R77, R78, R470: the end of descriptors and tickets: the first descriptor of a queue that has ended leaves it and completes its
ticket; CUE_CAP ends a descriptor with TIMEOUT; a primitive stores its result and completes its ticket; an overrun hangs the engine. -/
def Obligations.TicketEnds : Prop :=
  (∀ (c : CtxId) (slot : Nat) (s : State) (t : Ticket), s.live → Tab.find? (s.dev.ctx c).tickets slot = some t →
    (t.kind = .copy → ∀ j, s.dev.thr.copies.find? (fun j => j.ctx == c && j.slot == slot && j.gen == t.gen) = some j →
      Yields (.ticketComplete c slot) s (s.dev.copyStep j)) ∧
    (t.kind = .desc → ∀ e, s.dev.allDescs.find? (fun e => e.2.ctx == c && e.2.slot == slot && e.2.gen == t.gen) = some e →
      (e.2.status = none → exec (.ticketComplete c slot) s = .next s) ∧
      (∀ st, e.2.status = some st →
        let first := (Tab.get [] s.dev.eng.queue (e.1 / 16 * 16 + e.2.part)).head?.map (·.id)
        ((first ≠ some e.2.id ∨ s.dev.awaits e.2.waitMack = true) → exec (.ticketComplete c slot) s = .next s) ∧
        (first = some e.2.id → s.dev.awaits e.2.waitMack = false → e.2.fl 0 4 ≠ 0 → e.2.topk = none → e.2.att.topk = none →
          let d := s.dev.dropDesc e.2.id
          Yields (.ticketComplete c slot) s ((if e.2.fl 20 1 = 1 then d.setEvent e.2.ctx 4 else d).ticketDone e.2.ctx e.2.slot e.2.gen st)))) ∧
    (t.kind = .prim → ∀ j, s.dev.thr.prims.find? (fun j => j.ctx == c && j.slot == slot && j.gen == t.gen) = some j →
      Yields (.ticketComplete c slot) s (s.dev.primComplete j)) ∧
    (t.kind = .msg → exec (.ticketComplete c slot) s = .next s)) ∧
  (∀ (d : Dev) (c : CtxId) (slot : Nat) (t : Ticket) (st : Status), Tab.find? (d.ctx c).tickets slot = some t → t.done = none →
    (∀ n r, (d.ctx c).run ≠ .waitT n r) →
    d.ticketDone c slot t.gen st = d.setCtx c { d.ctx c with tickets := Tab.insert (d.ctx c).tickets slot { t with done := some st, lost := false } }) ∧
  (∀ (e : EngId) (p : Nat) (s : State), s.live →
    (∀ x, s.dev.capped e p = [x] →
      (x.fl 0 4 ≠ 1 ∨ x.op ≠ 1 → Yields (.cueCapExpiry e p) s (s.dev.failDesc x .timeout)) ∧
      (∀ g, x.fl 0 4 = 1 → x.op = 1 → s.dev.rdc.groups.find? (fun g => g.live && g.owner == x.ctx && g.slot == x.slot && g.gen == x.gen) = some g →
        Yields (.cueCapExpiry e p) s (s.dev.groupFail g .timeout))) ∧
    (s.dev.capped e p = [] → exec (.cueCapExpiry e p) s = .next s) ∧
    (∀ x ∈ s.dev.capped e p, x.started = true ∧ x.fl 32 16 ≠ 0 ∧ x.firstCue + x.fl 32 16 ≤ s.dev.tb.cueCount)) ∧
  (∀ (e : EngId) (s : State), s.live →
    (s.dev.workingParts e ≠ [] → ∃ t p, exec (.wuOverrun e) s = .next t ∧ p ∈ s.dev.workingParts e ∧ e ∈ t.dev.eng.hung ∧ t.dev.mem = s.dev.mem) ∧
    (s.dev.workingParts e = [] → exec (.wuOverrun e) s = .next s))

/-- R332, R334, R335, R341, R343, R348: calibration: when a run may start, what its end makes of the unit's state, RETEST, the withdrawal of a
retired array, and the settings of the DENSE shadow. -/
def Obligations.AnalogueUnits : Prop :=
  (∀ (u : CalUnit) (why : CalWhy) (s : State), s.live →
    (s.dev.calMayStart u why = true → ∃ t, exec (.calRun u why) s = .next t ∧ (t.dev.calInfo u.cls u.unit).running = true ∧ t.dev.mem = s.dev.mem) ∧
    (s.dev.calMayStart u why = false → exec (.calRun u why) s = .next s) ∧
    ((s.dev.calInfo u.cls u.unit).running = true → s.dev.calMayStart u why = false) ∧
    ((s.dev.calInfo u.cls u.unit).state = .retired → s.dev.calMayStart u why = false)) ∧
  (∀ (u : CalUnit) (s : State), s.live →
    let c := s.dev.calInfo u.cls u.unit
    c.running = true →
    (∀ pass reason, u.cls ≠ 0 → ∃ t, exec (.calRunDone u (.other pass reason)) s = .next t ∧
      (t.dev.calInfo u.cls u.unit).state = (c.after pass).state ∧ (t.dev.calInfo u.cls u.unit).running = false ∧
      (t.dev.calInfo u.cls u.unit).swap = (pass || c.swap) ∧ t.dev.mem = s.dev.mem ∧ t.dev.mica.held = s.dev.mica.held) ∧
    (∀ cols temp, u.cls = 0 →
      let pairs := (List.range 64).map (fun i => ((s.dev.colTrim u.unit i).step (cols.getD i noMeas), cols.getD i noMeas))
      let pass := calReason (decide (c.state = .calFirst ∨ c.state = .retest)) pairs == 0
      ∃ t, exec (.calRunDone u (.mica cols temp)) s = .next t ∧ (t.dev.calInfo 0 u.unit).state = (c.after pass).state ∧
        (t.dev.calInfo 0 u.unit).running = false ∧ (t.dev.calInfo 0 u.unit).swap = (pass || c.swap) ∧ t.dev.mem = s.dev.mem ∧
        (pass = true → (t.dev.calInfo 0 u.unit).tCal = temp ∧ (t.dev.calInfo 0 u.unit).passCue = s.dev.tb.cueCount) ∧
        (∀ i, i < 64 → (t.dev.colTrim u.unit i).candOff = ((s.dev.colTrim u.unit i).step (cols.getD i noMeas)).candOff ∧
          (t.dev.colTrim u.unit i).candGain = ((s.dev.colTrim u.unit i).step (cols.getD i noMeas)).candGain ∧
          (t.dev.colTrim u.unit i).off = (s.dev.colTrim u.unit i).off ∧ (t.dev.colTrim u.unit i).gain = (s.dev.colTrim u.unit i).gain) ∧
        (t.dev.mica.leaving = if (c.after pass).state = .retired ∧ Tab.get 0 s.dev.mica.held u.unit ≠ 0 then setIns s.dev.mica.leaving u.unit
          else s.dev.mica.leaving))) ∧
  (∀ (u : CalUnit) (r : CalResult) (s : State), (s.dev.calInfo u.cls u.unit).running = false → exec (.calRunDone u r) s = .next s) ∧
  (∀ (t : ColTrim) (m : ColMeas), (t.step m).off = t.off ∧ (t.step m).gain = t.gain ∧ -128 ≤ (t.step m).candOff ∧ (t.step m).candOff ≤ 127 ∧
    -128 ≤ (t.step m).candGain ∧ (t.step m).candGain ≤ 127 ∧ (m.offset = 8192 → -128 ≤ t.candOff → t.candOff ≤ 127 → (t.step m).candOff = t.candOff) ∧
    (m.plus = m.minus + 12288 → -128 ≤ t.candGain → t.candGain ≤ 127 → (t.step m).candGain = t.candGain)) ∧
  (∀ c : CalInfo,
    (c.state = .calibrating → (c.after true).state = .inService ∧ (c.after false).state = .retry) ∧
    (c.state = .retry → (c.after true).state = .inService ∧ (c.after false).state = .retired) ∧
    ((c.state = .calFirst ∨ c.state = .retest) →
      (c.passes = 1 → (c.after true).state = .inService) ∧ (c.runs < 3 → (c.after false).state = c.state) ∧
      (c.runs = 3 → (c.after false).state = .retired) ∧ (c.runs = 3 → c.passes = 0 → (c.after true).state = .retired))) ∧
  (∀ (tile : Nat) (s : State), s.live → tile < 12 → ∃ t, exec (.retest tile) s = .next t ∧ t.dev.mem = s.dev.mem ∧
    (∀ a, a < 64 → (t.dev.calInfo 0 (arrKey tile a)).state =
      if (s.dev.calInfo 0 (arrKey tile a)).state = .retired then .retest else (s.dev.calInfo 0 (arrKey tile a)).state) ∧
    (∀ u, (u < tile * 64 ∨ tile * 64 + 64 ≤ u) → t.dev.calInfo 0 u = s.dev.calInfo 0 u)) ∧
  (∀ (tile a : Nat) (s : State), s.live →
    (arrKey tile a ∈ s.dev.mica.leaving → Tab.get 0 s.dev.mica.held (arrKey tile a) ≠ 0 →
      ∃ t, exec (.arrayWithdraw tile a) s = .next t ∧ Tab.get 0 t.dev.mica.held (arrKey tile a) = 0 ∧ arrKey tile a ∉ t.dev.mica.leaving ∧
        t.dev.mem = s.dev.mem ∧ t.dev.mica.cal = s.dev.mica.cal ∧
        ∀ q ∈ t.dev.eng.queue, q.1 / 16 / 128 = tile → ∀ x ∈ q.2, x.fl 0 4 = 0 → a ∉ x.att.arrays) ∧
    (arrKey tile a ∉ s.dev.mica.leaving → exec (.arrayWithdraw tile a) s = .next s)) ∧
  (∀ (p : Nat) (v : Word) (s : State), s.live → p < 16 → ∃ t, exec (.micaShadowCfgWrite p v) s = .next t ∧
    t.dev.reg (MICA_SHADOW_CFG + 8 * p) = v.toNat % 2 ^ 52 ∧ t.dev.mem = s.dev.mem ∧ (∀ tile, tile < 12 → Tab.find? t.dev.mica.shCnt (tile * 16 + p) = none) ∧
    (s.dev.regFld (MICA_SHADOW_CFG + 8 * p) 0 1 = 0 → v.toNat % 2 = 1 →
      Tab.get 0 t.dev.mica.shHead p = 0 ∧ Tab.get (0, 0) t.dev.mica.shRing p = (s.dev.reg (MICA_SHADOW_BASE + 8 * p), fld v.toNat 28 24)))

/-! ## Versions and sessions -/

/-- R351 to R353, R357, R361, R362, R364, R370: the operations of the host on regions: which are answered at once, which wait for the operations
before them, and what each does on its region; the SEAL of a copy, the drain of a version, and the end of an extent's quarantine. R364 to
R366, R371: PUBLISH is a compare-and-set on HEAD, and the version it replaces is superseded, or drains where no one holds it; OPEN adds a
holder and CLOSE removes one, of a version that is gone too. -/
def Obligations.RegionCommands : Prop :=
  (HostOp .destroy 0xC321 .destroy ∧
    (∀ slot tier len list, HostOp (fun r => .place r slot tier len list) 0xC322 (.place slot tier len list)) ∧
    (∀ slot tier num list, HostOp (fun r => .load r slot tier num list) 0xC323 (.load slot tier num list)) ∧
    (∀ slot force, HostOp (fun r => .unplace r slot force) 0xC324 (.unplace slot force)) ∧
    (∀ slot, HostOp (fun r => .pin r slot) 0xC325 (.pin slot)) ∧ (∀ slot, HostOp (fun r => .unpin r slot) 0xC326 (.unpin slot)) ∧
    (∀ slot pub e, HostOp (fun r => .seal r slot pub e) 0xC327 (.seal slot (if pub then some e else none))) ∧
    (∀ num e, HostOp (fun r => .publish r num e) 0xC328 (.publish num e)) ∧ (∀ num, HostOp (fun r => .openVersion r num) 0xC329 (.openVersion num)) ∧
    (∀ num, HostOp (fun r => .close r num) 0xC32A (.close num)) ∧ (∀ num, HostOp (fun r => .discard r num) 0xC32B (.discard num)) ∧
    (∀ num, HostOp (fun r => .revoke r num) 0xC32C (.revoke num)) ∧
    (∀ (part policy : Nat) (m : Bool) (s : State) (d : Dev) (i : Nat), s.serves → part < 16 → policy < 3 →
      s.dev.regionNew part policy m 0 = (d, some i) → ∃ r, Tab.find? d.ver.regions i = some r ∧ r.part = part ∧ r.policy = policy ∧ r.mirrored = m ∧
        r.head = 0 ∧ r.next = 1 ∧ r.copies = [] ∧ Tab.find? s.dev.ver.regions i = none ∧ d.mem = s.dev.mem ∧
        Yields (.regionCreate part policy m) s (d.answer s.dev (.mailbox 0xC320) .ok (leBytes 8 (regionWord { index := i, gen := r.gen })))) ∧
    (∀ (r : RegionId) (s : State) (x : Region), s.serves → s.dev.regionFor none r = some x → x.session = 0 → x.dying = none →
      s.dev.regionBusy r.index = false →
      let d := s.dev
      let busy := x.copies.any (fun c => c.2.pins ≠ 0 || c.2.sealing.isSome || c.2.evicting) || d.ver.versions.any (fun e => e.1 / 2 ^ 32 == r.index && e.2.state == .sealing)
      (busy = true → Yields (.destroy r) s (d.emit (.mailbox 0xC321 .busy []))) ∧
      (busy = false → Yields (.destroy r) s (d.destroyRegion r.index (.mailbox 0xC321))) ∧
      (x.copies = [] → d.ver.versions.any (fun e => e.1 / 2 ^ 32 == r.index) = false →
        ∃ t, exec (.destroy r) s = .next t ∧ Tab.find? t.dev.ver.regions r.index = none ∧ t.dev.mem = d.mem ∧
          ∀ i, i ≠ r.index → Tab.find? t.dev.ver.regions i = Tab.find? d.ver.regions i) ∧
      (∀ slot w, d.copyOf r.index slot = some w →
        (w.pins = 0 → w.sealing = none → w.evicting = false → ∀ force, (d.copyDirty w = false ∨ force = true) →
          Yields (.unplace r slot force) s ((d.dropWCopy r.index slot).answer d (.mailbox 0xC324) .ok [])) ∧
        ((w.pins ≠ 0 ∨ w.sealing.isSome = true ∨ w.evicting = true) → ∀ force, Yields (.unplace r slot force) s (d.emit (.mailbox 0xC324 .busy []))) ∧
        (d.copyDirty w = true → Yields (.unplace r slot false) s (d.emit (.mailbox 0xC324 .busy []))) ∧
        (w.evicting = false → ∃ t, exec (.pin r slot) s = .next t ∧ t.dev.copyOf r.index slot = some { w with pins := w.pins + 1 } ∧
          t.dev.mem = d.mem ∧ t.dev.out = d.out ++ [.mailbox 0xC325 .ok (leBytes 8 (w.pins + 1))]) ∧
        (w.pins ≠ 0 → ∃ t, exec (.unpin r slot) s = .next t ∧
          t.dev.copyOf r.index slot = some { w with pins := w.pins - 1, age := d.tb.cueCount } ∧ t.dev.mem = d.mem) ∧
        (w.pins = 0 → Yields (.unpin r slot) s (d.emit (.mailbox 0xC326 .badRequest []))) ∧
        (∀ pub e, (w.sealing.isSome = true ∨ w.evicting = true) → Yields (.seal r slot pub e) s (d.emit (.mailbox 0xC327 .busy []))) ∧
        (∀ pub e d', w.sealing = none → w.evicting = false →
          d.sealNew r.index slot x w (if pub then some e else none) false [(.mailbox 0xC327, [])] w.len = (d', .ok) →
          Yields (.seal r slot pub e) s (({ d' with ver := { d'.ver with seals := d'.ver.seals ++ [(r.index, x.next)] } } : Dev).sealRead r.index x.next))) ∧
      (∀ slot, d.copyOf r.index slot = none → (∀ force, Yields (.unplace r slot force) s (d.emit (.mailbox 0xC324 .badRequest []))) ∧
        Yields (.pin r slot) s (d.emit (.mailbox 0xC325 .busy [])) ∧ Yields (.unpin r slot) s (d.emit (.mailbox 0xC326 .badRequest [])) ∧
        (∀ pub e, Yields (.seal r slot pub e) s (d.emit (.mailbox 0xC327 .badRequest [])))) ∧
      (∀ num v, d.version r.index num = some v →
        (v.state = .sealed → Yields (.discard r num) s (d.drain r.index num (.mailbox 0xC32B) [])) ∧
        (v.state ≠ .sealed → Yields (.discard r num) s (d.emit (.mailbox 0xC32B .badRequest []))) ∧
        (v.state ≠ .sealing → Yields (.revoke r num) s (d.drain r.index num (.mailbox 0xC32C) [])) ∧
        (v.state = .sealing → Yields (.revoke r num) s (d.emit (.mailbox 0xC32C .badRequest []))))) ∧
    (∀ (d : Dev) (ri slot : Nat) (x : Region) (w : WCopy) (pub : Option Nat) (force : Bool) (a : List (Asker × Bytes)) (len : Nat),
      (d.quota x.part 2 < d.charge x.part 2 + ceilDiv len (2 ^ 21) → force = false → d.sealNew ri slot x w pub force a len = (d, .quota)) ∧
      (∀ d', d.sealNew ri slot x w pub force a len = (d', .ok) → x.next < 0xFFFFFFFF ∧ d'.mem = d.mem ∧
        d'.charge x.part 2 = d.charge x.part 2 + ceilDiv len (2 ^ 21) ∧
        (∃ y, Tab.find? d'.ver.regions ri = some y ∧ y.next = x.next + 1 ∧ y.head = x.head ∧
          Tab.find? y.copies slot = some { w with sealing := some x.next }) ∧
        ∃ v, d'.version ri x.next = some v ∧ v.state = .sealing ∧ v.len = len ∧ v.slot = slot ∧ v.pub = pub ∧ v.askers = a ∧ v.holders = 0 ∧
          ∀ i ∈ versionExtents v, ∃ e, Tab.find? d'.ver.extents i = some e ∧ e.state = .live ∧ e.version = x.next ∧ e.region = ri ∧ e.policy = x.policy)) ∧
    (∀ (d : Dev) (ri num : Nat) (a : Asker) (body : Bytes) (v : Version) (x : Region), d.version ri num = some v → Tab.find? d.ver.regions ri = some x →
      v.state ≠ .draining →
      let y := d.drain ri num a body
      y.version ri num = some { v with state := .draining, askers := v.askers ++ [(a, body)] } ∧ y.headOf ri = (if v.state = .head then 0 else x.head) ∧
        y.mem = d.mem ∧ y.ver.extents = d.ver.extents) ∧
    (∀ (d : Dev) (v : Version) (i : Nat) (e : Extent), Tab.find? d.ver.extents i = some e →
      Tab.find? (d.drainBegin v).ver.extents i = some { e with state := if i ∈ versionExtents v ∧ e.state = .live then .draining else e.state }) ∧
    (∀ (r : RegionId) (num : Nat) (s : State) (x : Region) (v : Version), s.live → Tab.find? s.dev.ver.regions r.index = some x → x.gen = r.gen →
      s.dev.version r.index num = some v →
      (v.state = .draining → s.dev.someLive v = false → s.dev.verInFlight r.index num v = false →
        ∃ t, exec (.drainComplete r num) s = .next t ∧ t.dev.version r.index num = none ∧ t.dev.mem = s.dev.mem ∧
          ∀ i ∈ versionExtents v, ∀ e, Tab.find? s.dev.ver.extents i = some e →
            Tab.find? t.dev.ver.extents i = some { e with state := .revoked, pieces := [], revokedAt := s.dev.tb.cueCount }) ∧
      ((v.state ≠ .draining ∨ s.dev.someLive v = true ∨ s.dev.verInFlight r.index num v = true) → exec (.drainComplete r num) s = .next s)) ∧
    (∀ (i : Nat) (s : State) (e : Extent), s.live → Tab.find? s.dev.ver.extents i = some e →
      (e.state = .revoked → e.revokedAt + 4000000 ≤ s.dev.tb.cueCount →
        ∃ t, exec (.quarantineEnd i) s = .next t ∧ Tab.find? t.dev.ver.extents i = none ∧ t.dev.mem = s.dev.mem ∧
          ∀ j, j ≠ i → Tab.find? t.dev.ver.extents j = Tab.find? s.dev.ver.extents j) ∧
      ((e.state ≠ .revoked ∨ s.dev.tb.cueCount < e.revokedAt + 4000000) → exec (.quarantineEnd i) s = .next s))) ∧
  ((∀ (r : RegionId) (s : State) (x : Region) (num expect : Nat) (v : Version), s.serves → s.dev.regionFor none r = some x → x.session = 0 → x.dying = none →
      s.dev.regionBusy r.index = false → 0 < num → num < x.next → s.dev.version r.index num = some v → v.state ≠ .sealing → v.state ≠ .draining →
      (x.head ≠ expect → Yields (.publish r num expect) s ((s.dev.bump VER_CONFLICT_CNT).emit (.mailbox 0xC328 .versionConflict (leBytes 8 x.head)))) ∧
      (x.head = expect → x.head = num → Yields (.publish r num expect) s (s.dev.emit (.mailbox 0xC328 .ok []))) ∧
      (x.head = expect → x.head ≠ num → ∃ d : Dev, d.headOf r.index = num ∧ d.version r.index num = some { v with state := .head } ∧ d.mem = s.dev.mem ∧
        (∀ o, s.dev.version r.index x.head = some o → ∃ o', d.version r.index x.head = some o' ∧ o'.base = o.base ∧ o'.len = o.len ∧ o'.holders = o.holders ∧
          o'.state = if o.holders = 0 then .draining else .superseded) ∧
        (∀ j, j ≠ num → j ≠ x.head → d.version r.index j = s.dev.version r.index j) ∧
        Yields (.publish r num expect) s (d.answer s.dev (.mailbox 0xC328) .ok []))) ∧
    (∀ (r : RegionId) (s : State) (x : Region) (num : Nat), s.serves → s.dev.regionFor none r = some x → s.dev.regionBusy r.index = false →
      let n := if num = 0 then x.head else num
      ((n = 0 ∨ x.next ≤ n) → Yields (.openVersion r num) s (s.dev.emit (.mailbox 0xC329 .badRequest []))) ∧
      (0 < n → n < x.next → s.dev.version r.index n = none → Yields (.openVersion r num) s (s.dev.emit (.mailbox 0xC329 .revoked []))) ∧
      (∀ v, 0 < n → n < x.next → s.dev.version r.index n = some v →
        (v.state = .sealing → Yields (.openVersion r num) s (s.dev.emit (.mailbox 0xC329 .badRequest []))) ∧
        (v.state = .draining → Yields (.openVersion r num) s (s.dev.emit (.mailbox 0xC329 .revoked []))) ∧
        (v.state ≠ .sealing → v.state ≠ .draining → v.holders < 65535 → ∃ d : Dev, d.version r.index n = some { v with holders := v.holders + 1 } ∧
          d.mem = s.dev.mem ∧ (∀ j, j ≠ n → d.version r.index j = s.dev.version r.index j) ∧
          Yields (.openVersion r num) s (d.answer s.dev (.mailbox 0xC329) .ok (leBytes 8 n ++ leBytes 8 v.base ++ leBytes 8 v.len))))) ∧
    (∀ (r : RegionId) (s : State) (x : Region) (num : Nat), s.serves → s.dev.regionFor none r = some x → s.dev.regionBusy r.index = false →
      (∀ v, s.dev.version r.index num = some v →
        (v.holders = 0 → Yields (.close r num) s (s.dev.emit (.mailbox 0xC32A .badRequest []))) ∧
        (v.holders ≠ 0 → (v.state ≠ .superseded ∨ v.holders ≠ 1) → ∃ d : Dev, d.version r.index num = some { v with holders := v.holders - 1 } ∧
          d.mem = s.dev.mem ∧ Yields (.close r num) s (d.answer s.dev (.mailbox 0xC32A) .ok (leBytes 8 (v.holders - 1)))) ∧
        (v.holders = 1 → v.state = .superseded → ∃ t, exec (.close r num) s = .next t ∧ (s.dev.mirrors = false → ∀ st body, .mailbox 0xC32A st body ∈ t.dev.out → .mailbox 0xC32A st body ∈ s.dev.out) ∧ t.dev.mem = s.dev.mem ∧
          t.dev.version r.index num = some { v with holders := 0, state := .draining, askers := v.askers ++ [(.mailbox 0xC32A, leBytes 8 0)] })) ∧
      (s.dev.version r.index num = none →
        let n := Tab.get 0 s.dev.ver.gone (s.dev.goneKey r.index num)
        (n = 0 → Yields (.close r num) s (s.dev.emit (.mailbox 0xC32A .badRequest []))) ∧
        (n ≠ 0 → ∃ t, exec (.close r num) s = .next t ∧ t.dev.out = s.dev.out ++ [.mailbox 0xC32A .ok (leBytes 8 (n - 1))] ∧
          Tab.get 0 t.dev.ver.gone (s.dev.goneKey r.index num) = n - 1 ∧ t.dev.mem = s.dev.mem))))

/-- R355, R358, R359: PLACE and LOAD. With frames free, a copy is built on ready frames, which are charged and all zeros; PLACE is then complete
once LIST is written, and a LOAD brings the version's blocks in, and fails with the copy gone where a block is lost; beyond QUOTA nothing is
built; copies on their way out are waited for. -/
def Obligations.PlaceAndLoad : Prop :=
  (∀ (r : RegionId) (slot tier len : Nat) (list : Word) (s : State) (x : Region), s.serves → s.dev.regionFor none r = some x → x.session = 0 →
    x.dying = none → s.dev.ver.places = [] → s.dev.ver.waiting = [] → slot < 16 → tier < 2 → Tab.find? x.copies slot = none → 0 < len → len ≤ 2 ^ 38 →
    s.dev.listStatus x.part (.mailbox 0xC322) list.toNat (8 * ceilDiv len (2 ^ 21)) = .ok →
    let n := ceilDiv len (2 ^ 21)
    let j : PlaceJob := { asker := .mailbox 0xC322, region := r.index, slot := slot, tier := tier, len := len, list := list, version := 0, base := 0,
                          waited := false, built := false, next := 0, mack := [] }
    let d : Dev := { s.dev with ver := { s.dev.ver with places := [j] } }
    (s.dev.quota x.part tier < s.dev.charge x.part tier + n → ∃ t, exec (.place r slot tier len list) s = .next t ∧ t.dev.mem = s.dev.mem ∧
      t.dev.out = s.dev.out ++ [.mailbox 0xC322 .quota []] ∧ t.dev.ver.regions = s.dev.ver.regions ∧ t.dev.ver.places = []) ∧
    (s.dev.charge x.part tier + n ≤ s.dev.quota x.part tier → n ≤ (s.dev.readyFrames tier).length →
      let y := ({ d with coh := { d.coh with party := j.party } } : Dev).buildCopy r.index slot x tier len 0 1
      let z : PlaceJob := { j with built := true, mack := newFrames d y.1 }
      Yields (.place r slot tier len list) s (((y.1.setPlace z).placeList z y.2).endUnit s.dev) ∧
      (s.dev.mirrors = false → spaceOf list.toNat = 2 → y.1.writeStops [(list.toNat, 8 * y.2.frames.length)] = [] →
        ∃ t, exec (.place r slot tier len list) s = .next t ∧ t.dev.copyOf r.index slot = some { y.2 with pins := 0 } ∧ t.dev.ver.places = [] ∧
          .mailbox 0xC322 .ok [] ∈ t.dev.out ∧ t.dev.charge x.part tier = s.dev.charge x.part tier + n))) ∧
  (∀ (r : RegionId) (slot tier num : Nat) (list : Word) (s : State) (x : Region) (v : Version), s.serves → s.dev.regionFor none r = some x →
    x.session = 0 → x.dying = none → s.dev.ver.places = [] → s.dev.ver.waiting = [] → slot < 16 → tier < 2 → Tab.find? x.copies slot = none →
    0 < num → num < x.next → s.dev.version r.index num = some v → v.state ≠ .sealing → v.state ≠ .draining → (x.shared = true → s.dev.sec.seed ≠ none) →
    s.dev.listStatus x.part (.mailbox 0xC323) list.toNat (8 * ceilDiv v.len (2 ^ 21)) = .ok →
    s.dev.charge x.part tier + ceilDiv v.len (2 ^ 21) ≤ s.dev.quota x.part tier → ceilDiv v.len (2 ^ 21) ≤ (s.dev.readyFrames tier).length →
    let j : PlaceJob := { asker := .mailbox 0xC323, region := r.index, slot := slot, tier := tier, len := v.len, list := list, version := num, base := v.base,
                          waited := false, built := false, next := 0, mack := [] }
    let d : Dev := { s.dev with ver := { s.dev.ver with places := [j] } }
    let y := ({ d with coh := { d.coh with party := j.party } } : Dev).buildCopy r.index slot x tier v.len num 1
    let z : PlaceJob := { j with built := true, mack := newFrames d y.1 }
    Yields (.load r slot tier num list) s (((y.1.setPlace z).loadSome z y.2 bulkSlots).endUnit s.dev)) ∧
  (∀ (d : Dev) (ri slot : Nat) (r : Region) (tier len base pins : Nat), ceilDiv len (2 ^ 21) ≤ (d.readyFrames tier).length → Tab.find? d.ver.regions ri = some r →
    let y := d.buildCopy ri slot r tier len base pins
    y.2.tier = tier ∧ y.2.len = len ∧ y.2.base = base ∧ y.2.pins = pins ∧ y.2.age = d.tb.cueCount ∧ y.2.frames.length = ceilDiv len (2 ^ 21) ∧
      y.2.frames.Nodup ∧ (∀ f ∈ y.2.frames, f ∈ d.readyFrames tier ∧ Tab.find? y.1.ver.frames (frameKey tier f) = some (ri, slot)) ∧
      y.1.copyOf ri slot = some y.2 ∧ y.1.charge r.part tier = d.charge r.part tier + ceilDiv len (2 ^ 21) ∧
      (∀ a, Tab.get 0 y.1.mem.bytes a = if ∃ f ∈ y.2.frames, frameAddr tier f ≤ a ∧ a < frameAddr tier f + 2 ^ 21 then 0 else Tab.get 0 d.mem.bytes a)) ∧
  (∀ (d : Dev) (j : PlaceJob) (w : WCopy) (n : Nat), ceilDiv j.len 4096 ≤ j.next → d.loadSome j w (n + 1) = (d.setPlace j).placeList j w) ∧
  (∀ (d : Dev) (j : PlaceJob) (w : WCopy) (n : Nat), j.next < ceilDiv j.len 4096 →
    let live := d.poolLive (3 * 2 ^ 60 + (j.base * 512 + j.next) * 4096) 1
    let y := if live then (d.wantPool j.party ((j.base * 512 + j.next) * 4096) (4096 * min bulkSlots (ceilDiv j.len 4096 - j.next)) true).1 else d
    let key := blkKey j.party (j.base * 512 + j.next)
    (Tab.find? y.ver.held key = some [] → d.loadSome j w (n + 1) = y.placeFail j .poison) ∧
    (Tab.find? y.ver.held key = none → (live || y.blkBusy j.party (j.base * 512 + j.next)) = true → d.loadSome j w (n + 1) = y.setPlace j) ∧
    (Tab.find? y.ver.held key = none → (live || y.blkBusy j.party (j.base * 512 + j.next)) = false → d.loadSome j w (n + 1) = y.placeFail j .revoked)) ∧
  (∀ (d : Dev) (p tier n k : Nat) (waited : Bool),
    (d.quota p tier < d.charge p tier + d.promised tier k (· == p) + n → d.makeRoom p tier n k waited = (d, false, .quota)) ∧
    (d.charge p tier + d.promised tier k (· == p) + n ≤ d.quota p tier → n + d.promised tier k (fun _ => true) ≤ (d.readyFrames tier).length →
      d.makeRoom p tier n k waited = (d, true, .ok)))

/-- R376, R377, R379, R486: trays: reads that miss their time, rebuild, the switch of an extent's piece, and the settings of trays, quotas and
shared ranges. -/
def Obligations.TrayCommands : Prop :=
  (∀ (t : Nat) (s : State), s.live →
    let serving := (s.dev.trayRec t).state = .healthy ∨ (s.dev.trayRec t).state = .rebuilding
    (serving → (s.dev.trayRec t).misses < 15 →
      ∃ u, exec (.trayReadMiss t) s = .next u ∧ u.dev.trayRec t = { s.dev.trayRec t with misses := (s.dev.trayRec t).misses + 1 } ∧
        u.dev.mem = s.dev.mem) ∧
    (serving → 15 ≤ (s.dev.trayRec t).misses → ∃ u, exec (.trayReadMiss t) s = .next u ∧ (u.dev.trayRec t).state = .failed ∧
      (∀ e ∈ u.dev.ver.slots, e ∈ s.dev.ver.slots → e.2.tray ≠ t) ∧ u.dev.mem = s.dev.mem) ∧
    (¬serving → exec (.trayReadMiss t) s = .next s) ∧
    (t < 64 → ((s.dev.trayRec t).state = .failed ∨ (s.dev.trayRec t).state = .healthy) →
      ∃ u, exec (.rebuild t) s = .next u ∧ (u.dev.trayRec t).state = (if s.dev.piecesOn t = [] then .empty else .rebuilding) ∧
        u.dev.ver.extents = s.dev.ver.extents ∧ u.dev.mem = s.dev.mem) ∧
    (64 ≤ t → exec (.rebuild t) s = .next s)) ∧
  (∀ (t piece : Nat) (s : State), s.live → (s.dev.trayRec t).state = .rebuilding →
    s.dev.ver.rebuilds.any (fun r => r.tray == t && r.piece == piece) = false →
    ((s.dev.piecesOn t).find? (fun p => p.2.2 / 64 == piece) = none → Yields (.rebuildPiece t piece) s (s.dev.rebuildEnd t)) ∧
    (∀ ext pos slot e, (s.dev.piecesOn t).find? (fun p => p.2.2 / 64 == piece) = some (ext, pos, slot) → Tab.find? s.dev.ver.extents ext = some e →
      (s.dev.version e.region e.version).any (·.state == .sealing) = false →
      (s.dev.otherTray e = none → exec (.rebuildPiece t piece) s = .next s) ∧
      (∀ u, s.dev.otherTray e = some u →
        let k := s.dev.takePieces u (piecesPer e.policy)
        let r : Rebuild := { tray := t, piece := piece, ext := ext, pos := pos, toTray := u, toPiece := k.2, row := 0, asked := [], got := [], writing := false }
        u ∉ e.pieces.map (·.1) ∧ (s.dev.trayRec u).state = .healthy ∧
        Yields (.rebuildPiece t piece) s (({ k.1 with ver := { k.1.ver with rebuilds := k.1.ver.rebuilds ++ [r] } } : Dev).rebuildStep r)))) ∧
  (∀ (d : Dev) (w : PieceWrite) (tray piece : Nat) (e : Extent), Tab.find? d.ver.extents w.ext = some e → w.pos < e.pieces.length → w.bad = false → w.rebuild = true →
    let y := d.pieceDone w tray piece
    Tab.find? y.ver.extents w.ext = some { e with pieces := e.pieces.set w.pos (tray, piece * 64) } ∧
      (∀ i, i ≠ w.ext → Tab.find? y.ver.extents i = Tab.find? d.ver.extents i) ∧
      (∀ r ∈ y.ver.rebuilds, r ∈ d.ver.rebuilds ∧ ¬(r.ext = w.ext ∧ r.pos = w.pos)) ∧ y.mem = d.mem) ∧
  (∀ (tier p : Nat) (v : Word) (s : State), s.live → p < 16 →
    (tier = 2 → Yields (.verQuotaWrite tier p v) s (s.dev.putReg (VER_QP + 8 * p) (v.toNat % 2 ^ 30))) ∧
    (tier = 0 → fld v.toNat 14 14 ≤ fld v.toNat 0 14 → s.dev.reserves 0 p (fld v.toNat 14 14) ≤ s.dev.poolCount 0 →
      (s.dev.isConf p = true → fld v.toNat 14 14 = fld v.toNat 0 14) →
      Yields (.verQuotaWrite tier p v) s (s.dev.putReg (VER_QN + 8 * p) (v.toNat % 2 ^ 28))) ∧
    (tier = 0 → fld v.toNat 0 14 < fld v.toNat 14 14 → Yields (.verQuotaWrite tier p v) s (s.dev.verEvent 0)) ∧
    (tier = 1 → s.dev.isConf p = true → fld v.toNat 0 19 ≠ fld v.toNat 19 19 → Yields (.verQuotaWrite tier p v) s (s.dev.verEvent 0))) ∧
  (∀ (v : Word) (s : State), s.live →
    (s.dev.pwr.ready = true → exec (.verPoolWrite 0 v) s = .next s ∧ exec (.verPoolWrite 1 v) s = .next s) ∧
    (s.dev.pwr.ready = false → fld v.toNat 0 19 + fld v.toNat 19 19 ≤ 294912 → s.dev.reserves 1 16 0 ≤ fld v.toNat 19 19 →
      Yields (.verPoolWrite 1 v) s (s.dev.putReg VER_POOL_S (v.toNat % 2 ^ 38))) ∧
    (s.dev.pwr.ready = false → 15360 < fld v.toNat 0 14 + fld v.toNat 14 14 → Yields (.verPoolWrite 0 v) s (s.dev.verEvent 0))) ∧
  (∀ (t : Nat) (v : Word) (s : State), s.live → t < 64 → v.toNat < 2 ^ 63 →
    ((s.dev.trayRec t).state = .disabled ∨ (s.dev.trayRec t).state = .empty) →
    let linked := ∃ k, k < 36 ∧ bitAt (fld v.toNat 27 36) k = true ∧ s.dev.role k = 2 ∧ s.dev.isUp k = true
    (fld v.toNat 0 1 = 0 → ∃ u, exec (.verTrayCfgWrite t v) s = .next u ∧ u.dev.reg (VER_TRAY_CFG + 8 * t) = v.toNat ∧
      (u.dev.trayRec t).state = .disabled ∧ u.dev.mem = s.dev.mem) ∧
    (fld v.toNat 0 1 = 1 → (∀ u, u < 64 → u ≠ t → s.dev.regFld (VER_TRAY_CFG + 8 * u) 0 1 = 0) → fld v.toNat 1 26 * 278528 ≤ 2 ^ 50 →
      ∃ u, exec (.verTrayCfgWrite t v) s = .next u ∧ u.dev.reg (VER_TRAY_CFG + 8 * t) = v.toNat ∧ u.dev.mem = s.dev.mem ∧
        (linked → (u.dev.trayRec t).state = .healthy) ∧ (¬linked → (u.dev.trayRec t).state = .failed)) ∧
    (fld v.toNat 0 1 = 1 → 2 ^ 50 < fld v.toNat 1 26 * 278528 → Yields (.verTrayCfgWrite t v) s ((s.dev.putReg (VER_TRAY_CFG + 8 * t) (setFld v.toNat 0 1 0)).verEvent 0)))

/-- R30, R380 to R382, R390 to R399, R401, R405, R407, R426: the checks of the host's session operations in their order, and what each does on a
session in the state that admits it; what the write of a record leaves; the phases, timers and logs of sessions. -/
def Obligations.SessionOperations : Prop :=
  (∀ id dl, SesStarts (.park id dl) 0xC313 1 id (fun _ => opBad id dl) (fun d r =>
    (d.setSes id { r with state := .parking, op := 1, phase := 0 }).putOp id (newOp (.mailbox 0xC313) (d.deadlineAt dl) .active))) ∧
  (∀ id dl, SesStarts (.checkpoint id dl) 0xC314 3 id (fun _ => opBad id dl) (fun d r =>
    (d.setSes id { r with op := 3, phase := 0 }).putOp id (newOp (.mailbox 0xC314) (d.deadlineAt dl) .active))) ∧
  (∀ id dl, SesStarts (.revive id dl) 0xC315 2 id (fun _ => opBad id dl) (fun d r =>
    (d.setSes id { r with state := .reviving, op := 2, phase := 0 }).putOp id (newOp (.mailbox 0xC315) (d.deadlineAt dl) .parked))) ∧
  (∀ id child, SesStarts (.fork id child) 0xC316 4 id (fun d => 2 ^ 24 ≤ id || 2 ^ 24 ≤ child || id == child || d.sesLimit ≤ child) (fun d r =>
    let a := Asker.mailbox 0xC316
    if (d.sesRec child).state ≠ .free then d.sesTell d a id 4 0 .busy []
    else if d.sesFull r.part = true then d.sesTell d a id 4 0 .quota []
    else if r.state = .parked then
      if (d.forkChild id child).2 = .ok then ((d.forkChild id child).1.bump SES_FORK_CNT).sesTell d a id 4 0 .ok []
      else (d.forkChild id child).1.sesTell d a id 4 0 (d.forkChild id child).2 []
    else (d.setSes id { r with op := 4, phase := 0 }).putOp id { newOp a 0 .active with child := child })) ∧
  (∀ m : SesMove, SesStarts (.move m) 0xC317 5 m.id
    (fun d => opBad m.id m.deadline || 4096 ≤ m.dev || 16 ≤ m.part || 2 ^ 24 ≤ m.tid || 2 ≤ m.tier || 2 ≤ m.mode || m.proj.toNat % 64 != 0 ||
      m.dev == d.devId || (d.pair.state != .unpaired && m.dev == d.partner)) (fun d r =>
    let a := Asker.mailbox 0xC317
    if r.unconf = true then d.sesTell d a m.id 5 0 .busy []
    else if d.isConf r.part = true ∧ d.msgLink r.part m.dev = none then d.sesTell d a m.id 5 0 .access []
    else (d.newSerial.1.setSes m.id { r with state := .movingOut, op := 5, phase := 0, prior := if r.state = .parked then 1 else 0, peerDev := m.dev,
                                             peerPart := m.part, peerSes := m.tid }).putOp m.id
      { newOp a (d.deadlineAt m.deadline) r.state with proj := m.proj, tier := m.tier, mode := m.mode, serial := d.newSerial.2 })) ∧
  (∀ id, SesStarts (.delete id) 0xC311 11 id (fun _ => 2 ^ 24 ≤ id) (fun d _ =>
    let l := d.sesLog id
    (((l.waitNow ++ l.waitNext).foldl (fun x b => x.sesTell d b id 12 0 .aborted []) (d.freeSession id)).failAppends id .aborted).sesTell d
      (.mailbox 0xC311) id 11 0 .ok [])) ∧
  (∀ id, SesStarts (.claim id) 0xC318 7 id (fun _ => 2 ^ 24 ≤ id) (fun d r =>
    (d.newSerial.1.setSes id { r with op := 7, phase := 0 }).putOp id { newOp (.mailbox 0xC318) 0 .orphaned with serial := d.newSerial.2 })) ∧
  (∀ id, SesStarts (.handover id) 0xC350 9 id (fun _ => 2 ^ 24 ≤ id) (fun d r =>
    let x := d.sendSes id { r with owner := d.partner, epoch := (r.epoch + 1) % 2 ^ 32 }
    if d.pair.state ≠ .paired then d.sesTell d (.mailbox 0xC350) id 9 0 .busy []
    else { (x.putOp id (newOp (.mailbox 0xC350) 0 .parked)) with pair := { x.pair with waits := x.pair.waits ++ [(newFrames d x, .handover id (.mailbox 0xC350))] } })) ∧
  (∀ x : SesAppend, SesStarts (.append x) 0xC312 12 x.id (fun _ => appendBad x) (fun d _ =>
    let hold := fun (d : Dev) (b : Bool) => ({ d with ses := { d.ses with appends := d.ses.appends ++ [(.mailbox 0xC312, x, b)] } } : Dev)
    if (d.sesOp x.id).isSome = true then hold d true
    else if d.ses.appends.any (fun e => e.2.1.id == x.id) = true then hold d false
    else if (d.tryAppend (.mailbox 0xC312) x).2 = true then (d.tryAppend (.mailbox 0xC312) x).1
    else hold (d.tryAppend (.mailbox 0xC312) x).1 (d.logFull x))) ∧
  (∀ (id : Nat) (s : State), s.serves → id < 2 ^ 24 →
    (s.dev.sesCheck none id = .ok → Yields (.query id) s (s.dev.emit (.mailbox 0xC319 .ok (sesBytes (s.dev.sesRec id))))) ∧
    (s.dev.sesCheck none id ≠ .ok → Yields (.query id) s (s.dev.sesTell s.dev (.mailbox 0xC319) id 13 0 (s.dev.sesCheck none id) []))) ∧
  (∀ (d : Dev) (x : SesAppend) (a : Asker), appendRule (d.sesRec x.id) (Tab.find? d.ses.windows x.id) x = .badRequest →
    let e := d.tryAppend a x
    e.2 = true ∧ e.1.ses.windows = d.ses.windows ∧ e.1.mem = d.mem ∧ (∀ op, a = .mailbox op → e.1.out = d.out ++ [.mailbox op .badRequest []])) ∧
  (∀ (d before : Dev) (a : Asker) (r : SesRec) (x : SesAppend) (input : Bytes),
    let w := Tab.find? d.ses.windows x.id
    let e := d.windowStep before a r x input
    (commits r w x = true → Tab.find? e.ses.windows x.id = none ∧ (e.sesLog x.id).dirty = true ∧ (e.sesLog x.id).used =
      (d.sesLog x.id).used + 16 + input.length + (16 - input.length % 16) % 16) ∧
    (commits r w x = false → e.mem = d.mem ∧ e.ses.logs = d.ses.logs ∧ Tab.find? e.ses.windows x.id =
      some { pos := x.pos, count := x.count, layers := ((w.map (·.layers)).getD []) ++ (List.range x.nLayer).map (· + x.layerLo),
             lastCue := d.tb.cueCount })) ∧
  (∀ (c : SesCreate) (s : State), s.serves →
    let say := fun (x : Dev) (st : Status) => x.sesTell s.dev (.mailbox 0xC310) c.id 10 0 st []
    (s.dev.createBad c = true → Yields (.sessionCreate c) s (say s.dev .badRequest)) ∧
    (s.dev.createBad c = false → ((s.dev.sesRec c.id).state ≠ .free ∨ s.dev.pair.state = .joining) → Yields (.sessionCreate c) s (say s.dev .busy)) ∧
    (s.dev.createBad c = false → (s.dev.sesRec c.id).state = .free → s.dev.pair.state ≠ .joining →
      (s.dev.owns c.part c.proj.toNat (projTable (createRec c)) = false → Yields (.sessionCreate c) s (say s.dev .access)) ∧
      (s.dev.owns c.part c.proj.toNat (projTable (createRec c)) = true →
        (s.dev.sesFull c.part = true → Yields (.sessionCreate c) s (say s.dev .quota)) ∧
        (∀ x y ri, s.dev.sesFull c.part = false → s.dev.sesRoom (createRec c) 0 = (x, true, .ok) →
          x.regionNew c.part c.policy c.kvmir (c.id + 1) = (y, some ri) →
          let r := { createRec c with region := { index := ri, gen := ((Tab.find? y.ver.regions ri).map (·.gen)).getD 0 }, owner := s.dev.devId,
                                      epoch := 1, state := .active }
          (y.sesPlace r 0).2 = true → Yields (.sessionCreate c) s
            (say (((y.sesPlace r 0).1.setSes c.id r).putLog c.id { SesLog.reset with sealedAt := s.dev.tb.cueCount }) .ok))))) ∧
  (∀ (d : Dev) (id : Nat) (r : SesRec), d.tableAt id →
    let z := { r with map := if r.state = .active then d.mapBase r else 0, stamp := if r.state = (d.sesRec id).state then r.stamp else d.stampNow.2 }
    let e := d.setSes id r
    z.fits → e.sesRec id = z ∧ (∀ j, j ≠ id → d.tableAt j → e.sesRec j = d.sesRec j) ∧ (id ∈ e.ses.used ↔ r.state ≠ .free) ∧
      (∀ j, j ≠ id → (j ∈ e.ses.used ↔ j ∈ d.ses.used)) ∧ (∀ a, (a < d.recAt id ∨ d.recAt id + 128 ≤ a) → e.mem.byte a = d.mem.byte a)) ∧
  (∀ (d : Dev) (id : Nat), ∃ e : Dev, d.freeSession id = e.setSes id SesRec.reset ∧ Tab.find? e.ses.windows id = none ∧ Tab.find? e.ses.moveCue id = none ∧
    Tab.find? e.ses.logs id = none) ∧
  (∀ (id : Nat) (s : State), s.live →
    let d := s.dev
    let r := d.sesRec id
    let after := fun (e : Dev) => ((e.resumeAppends id (e.ses.appends.length + 1)).resumeCreates id).resumeNotes id
    let one := fun (f : Dev → Dev) => Yields (.phaseCommit id) s (after (Dev.asParty (sesParty id) f d))
    (d.sesOp id = none → one (fun d => d)) ∧
    (∀ o, d.sesOp id = some o →
      (r.op = 2 → one (fun d => d.reviveStep id o)) ∧ (r.op = 5 → one (fun d => d.moveStep id o)) ∧ (r.op = 7 → one (fun d => d.claimStep id o)) ∧
      ((r.op = 1 ∨ r.op = 3 ∨ r.op = 4) →
        (r.phase = 0 → (d.appendRuns id = true ∨ (r.op = 1 ∧ d.sesPinned id = true)) → one (fun d => d)) ∧
        (r.phase = 0 → d.appendRuns id = false → r.op ≠ 1 → one (fun d => d.setSes id { r with phase := 1 })) ∧
        (r.phase = 0 → d.appendRuns id = false → r.op = 1 → d.sesPinned id = false → one (fun d => (d.discardWindow id).setSes id { r with phase := 1 })) ∧
        (r.phase = 1 → o.started = false → one (fun d => d.startSeals id o)) ∧
        (r.phase = 1 → o.started = true → d.sealsDone r.region.index o.sealed = none → one (fun d => d)) ∧
        (r.phase = 1 → o.started = true → d.sealsDone r.region.index o.sealed = some true → one (fun d => d.setSes id { r with phase := 2 })) ∧
        (r.phase = 1 → o.started = true → d.sealsDone r.region.index o.sealed = some false → one (fun d => d.undoOp id o .busy)) ∧
        (r.phase = 2 → r.op = 1 → one (fun d => d.parkEnd id o)) ∧ (r.phase = 2 → r.op ≠ 1 → one (fun d => d.checkpointEnd id o)))) ∧
    (d.sesOp id = none → d.ses.appends = [] → d.ses.creates = [] → d.ses.notices = [] → exec (.phaseCommit id) s = .next s) ∧
    (∀ o, d.sesOp id = some o → o.deadline ≠ 0 → o.deadline ≤ d.tb.cueCount →
      (r.op ≠ 5 → Yields (.sessionDeadline id) s (d.undoOp id o .timeout)) ∧
      (r.op = 5 → (r.phase ≠ 2 ∨ o.started = false) → Yields (.sessionDeadline id) s (d.moveFail id o .timeout)) ∧
      (r.op = 5 → r.phase = 2 → o.started = true → exec (.sessionDeadline id) s = .next s)) ∧
    (∀ o, d.sesOp id = some o → (o.deadline = 0 ∨ d.tb.cueCount < o.deadline) → exec (.sessionDeadline id) s = .next s) ∧
    (∀ w, Tab.find? d.ses.windows id = some w →
      (w.lastCue + max 1 (d.regFld SES_CFG 32 8) ≤ d.tb.cueCount → d.ses.appends.any (fun e => e.2.1.id == id) = false →
        ∃ t, exec (.windowTimeout id) s = .next t ∧ Tab.find? t.dev.ses.windows id = none ∧ t.dev.sesRec id = r ∧ t.dev.mem = d.mem) ∧
      ((d.tb.cueCount < w.lastCue + max 1 (d.regFld SES_CFG 32 8) ∨ d.ses.appends.any (fun e => e.2.1.id == id) = true) →
        exec (.windowTimeout id) s = .next s)) ∧
    (∀ y, r.state = .active → (d.sesLog id).dirty = true → (d.sesLog id).sealing = none → d.sesOp id = none →
      (d.sesLog id).sealedAt + max 1 (d.regFld SES_CFG 0 16) ≤ d.tb.cueCount → d.sealLogCopy r = (y, .ok) →
      Yields (.logSeal id) s (y.putLog id { d.sesLog id with dirty := false, sealedAt := d.tb.cueCount, sealing := some (d.nextVer r.region.index),
                                                             waitNow := (d.sesLog id).waitNext, waitNext := [] })) ∧
    ((d.sesLog id).sealing = none → (r.state ≠ .active ∨ (d.sesLog id).dirty = false ∨ (d.sesOp id).isSome = true ∨
      d.tb.cueCount < (d.sesLog id).sealedAt + max 1 (d.regFld SES_CFG 0 16)) → exec (.logSeal id) s = .next s) ∧
    (r.state = .movingIn → Tab.get 0 d.ses.moveCue id + d.moveTmo ≤ d.tb.cueCount → d.sesOp id = none →
      Yields (.moveInTimeout id) s ((d.undoMoveIn id).sesEvent 3)) ∧
    (d.tb.cueCount < Tab.get 0 d.ses.moveCue id + d.moveTmo → exec (.moveInTimeout id) s = .next s ∧ exec (.unconfQuery id) s = .next s) ∧
    (r.unconf = true → r.owner = d.devId → Tab.get 0 d.ses.moveCue id + d.moveTmo ≤ d.tb.cueCount →
      let y := (d.sesNotice id r 0 4 0 []).1
      Yields (.unconfQuery id) s { y with ses := { y.ses with moveCue := Tab.insert y.ses.moveCue id d.tb.cueCount } }))

/-! ## The understudy -/

/-- R416 to R423, R427 to R429, R436, R437: frames of the pair as they arrive, and the timers of the pair's links. -/
def Obligations.PairFrames : Prop :=
  (∀ (k : Nat) (f : PairFrame) (s : State), s.live →
    let d := s.dev.takeRx k 0
    let spelled := fun (p : Nat) => s.dev.spellsPair k p f = true
    (d.pairTakes k = true → spelled 0 →
      (d.pair.state ≠ .lost → d.pair.state ≠ .solo → ∃ t, exec (.hb k f) s = .next t ∧ Tab.find? t.dev.pair.linkUp k = some true ∧
        Tab.find? t.dev.pair.lastHb k = some d.tb.cueCount ∧ t.dev.pair.state = d.pair.state ∧ t.dev.pair.unacked = d.pair.unacked ∧
        t.dev.mem = s.dev.mem) ∧
      (d.pair.state = .lost → (fld f.word1.toNat 0 3 = 3 ∨ fld f.word1.toNat 0 3 = 4) → ∃ t, exec (.hb k f) s = .next t ∧ t.dev.pair.state = .paired ∧
        (∀ u ∈ t.dev.pair.unacked, u.link = k ∧ u.tries = 0) ∧ t.dev.pair.unacked.length = d.pair.unacked.length ∧ t.dev.mem = s.dev.mem) ∧
      ((d.pair.state = .lost ∨ (d.pair.state = .solo ∧ d.primary = false)) → fld f.word1.toNat 0 3 = 5 →
        Yields (.hb k f) s (({ d with pair := { d.pair with linkUp := Tab.insert d.pair.linkUp k true,
                                                            lastHb := Tab.insert d.pair.lastHb k d.tb.cueCount } } : Dev).fatal 3 0))) ∧
    (d.pairTakes k = true → spelled 4 →
      ∃ e : Dev, Yields (.mack k f) s e.settleMacks ∧ e.mem = s.dev.mem ∧ e.pair.state = d.pair.state ∧ e.pair.unacked = d.pair.unacked.filter
        (fun u => u.stream ≠ f.stream.toNat ∨ 2 ^ 31 ≤ sub32 f.mseq.toNat u.mseq)) ∧
    (d.pairTakes k = true → ((s.dev.frontRx k 0).map (fun m => ptypeAt m.2.2)).getD 5 = 5 →
      ((d.pair.state = .paired ∨ d.pair.state = .lost) → Yields (.down k) s (d.pairEvent 5).enterSolo) ∧
      ((d.pair.state = .source ∨ d.pair.state = .joining) → Yields (.down k) s ((d.pairEvent 5).admissionFail 5))) ∧
    (d.pairTakes k = true → d.pairRuns = true →
      (spelled 6 → Yields (.audit k f) s (d.pairSeq k 6 f).settleMacks) ∧ (spelled 8 → Yields (.key k f) s (d.pairSeq k 8 f).settleMacks) ∧
      (spelled 9 → Yields (.stepFrame k f) s (d.pairSeq k 9 f).settleMacks) ∧ (spelled 10 → Yields (.bulkEnd k f) s (d.pairSeq k 10 f).settleMacks) ∧
      (f.stream.toNat < 12 →
        let lands := fun (ptype ctl : Nat) =>
          ((d.enterFlow (flowKey k f.stream.toNat ctl) (attachTile k) f.stream.toNat k ptype f).landFlow (flowKey k f.stream.toNat ctl)).settleMacks
        (spelled 1 → Yields (.mwr k f) s (lands 1 (if spaceOf f.word1.toNat = 2 then 1 else 0))) ∧
        (spelled 2 → Yields (.mrec k f) s (lands 2 0)) ∧ (spelled 3 → Yields (.mmap k f) s (lands 3 0))) ∧
      (d.pair.state = .joining → f.stream.toNat = 12 → f.mseq.toNat = Tab.get 0 d.pair.rxSeq 12 → d.pair.early = [] →
        (spelled 9 → ∃ e : Dev, Yields (.stepFrame k f) s e.settleMacks ∧ e.pair.state = .paired ∧
          Tab.get 0 e.pair.rxSeq 12 = (f.mseq.toNat + 1) % 2 ^ 32 ∧ e.pair.early = [] ∧ e.mem = s.dev.mem) ∧
        (spelled 10 → ∃ e : Dev, Yields (.bulkEnd k f) s e.settleMacks ∧ e.pair.state = .joining ∧ e.pair.bulkDone = true ∧ e.pair.early = [] ∧
          e.mem = s.dev.mem))) ∧
    (d.pairTakes k = false → spelled 0 → exec (.hb k f) s = .next { s with dev := d }) ∧
    (∀ p : BitVec 4, spelled p.toNat → ∃ t, exec (.reservedPtype k p f) s = .next t ∧ t.dev.pair.dropped = d.pair.dropped + 1 ∧
      t.dev.pair.state = d.pair.state ∧ t.dev.pair.rxSeq = d.pair.rxSeq ∧ t.dev.mem = s.dev.mem)) ∧
  (∀ (d : Dev) (k ptype : Nat) (f : PairFrame), f.stream.toNat < 13 →
    let e := Tab.get 0 d.pair.rxSeq f.stream.toNat
    (2 ^ 31 ≤ sub32 f.mseq.toNat e → d.pairSeq k ptype f = d.sendMack k f.stream.toNat (sub32 e 1)) ∧
    (0 < sub32 f.mseq.toNat e → sub32 f.mseq.toNat e < 2 ^ 31 → d.pair.early = [] → e < 2 ^ 32 →
      let y := d.pairSeq k ptype f
      y.pair.early = [(k, ptype, f)] ∧ y.pair.rxSeq = d.pair.rxSeq ∧ y.mem = d.mem ∧ y.out = d.out)) ∧
  (∀ (d : Dev) (id : Nat) (bs : Bytes),
    let l := d.sesRec id
    let r := sesOfBytes bs
    let el := if l.state = .free then 0 else l.epoch
    let er := if r.state = .free then 0 else r.epoch
    (el < er → d.applySes id bs = d.adoptRecord id r) ∧
    (er < el → d.applySes id bs = (d.bump PAIR_STALE_CNT).sendRec (id % 12) 0 id (sesBytes l)) ∧
    (el = er → l.owner = r.owner → l.owner = d.devId → d.applySes id bs = d) ∧
    (el = er → l.owner = r.owner → l.owner ≠ d.devId → d.applySes id bs = d.adoptRecord id r) ∧
    (el = er → l.owner ≠ r.owner → d.applySes id bs = d.resolve id l r)) ∧
  (∀ (k : Nat) (s : State), s.live → k ∈ s.dev.pairLinks →
    (Tab.get 0 s.dev.pair.lastHb k + 8 ≤ s.dev.tb.cueCount →
      ∃ t, exec (.hbTimeout k) s = .next t ∧ Tab.find? t.dev.pair.linkUp k = some false ∧ t.dev.mem = s.dev.mem ∧
        t.dev.pair.state = if s.dev.pair.state = .paired ∧ ∀ j ∈ s.dev.pairLinks, Tab.get 0 s.dev.pair.lastHb j + 8 ≤ s.dev.tb.cueCount then .lost
          else s.dev.pair.state) ∧
    (s.dev.tb.cueCount < Tab.get 0 s.dev.pair.lastHb k + 8 → exec (.hbTimeout k) s = .next s)) ∧
  (∀ (s : State) (u : Unacked), s.live → s.dev.pair.unacked = [u] → s.dev.pair.state ≠ .lost →
    let again := fun (k n : Nat) => ∃ t, exec (.mirrorResend u.stream u.mseq) s = .next t ∧
        t.dev.pair.unacked = [{ u with frame := { u.frame with rtx := true }, link := k, tries := n, lastSend := s.dev.tb.cueCount }] ∧
        (12 ≤ u.frame.stream.toNat → Out.pair k u.ptype { u.frame with rtx := true } ∈ t.dev.out) ∧ t.dev.mem = s.dev.mem
    (u.lastSend + 2 ≤ s.dev.tb.cueCount → u.link ∈ s.dev.pairUp → u.tries < 3 → again u.link (u.tries + 1)) ∧
    (u.lastSend + 2 ≤ s.dev.tb.cueCount → ∀ k, (s.dev.pairUp.filter (· ≠ u.link)).head? = some k → (u.link ∉ s.dev.pairUp ∨ 3 ≤ u.tries) → again k 0) ∧
    ((s.dev.tb.cueCount < u.lastSend + 2 ∨ s.dev.pairUp = []) → exec (.mirrorResend u.stream u.mseq) s = .next s))

/-- R422, R430, R434 to R438, R428: the commands of PAIR_CTRL, the steps of an admission, the bulk load, the scan after a takeover, and claims. -/
def Obligations.PairControl : Prop :=
  ∀ s : State, s.live →
    let d := s.dev
    (d.pair.state = .unpaired → d.pwr.ready = true → d.linksOk = true → d.sec.idOk = true →
      ∃ t, exec .join s = .next t ∧ t.dev.pair.state = .joining ∧ t.dev.pair.admStep = 1 ∧ t.dev.pair.txSeq = [] ∧ t.dev.pair.rxSeq = [] ∧
        t.dev.mem = d.mem) ∧
    ((d.pair.state ≠ .unpaired ∨ d.linksOk = false ∨ d.pwr.ready = false) → Yields .join s d.ctrlErr) ∧
    ((d.pair.state = .unpaired ∨ d.pair.state = .solo) → d.linksOk = true → d.sec.idOk = true →
      ∃ t, exec .admitPair s = .next t ∧ t.dev.pair.state = .source ∧ t.dev.pair.former = d.pair.state ∧ t.dev.pair.admStep = 2 ∧
        t.dev.pair.unacked = [] ∧ t.dev.mem = d.mem) ∧
    (d.pair.state = .lost → Yields .takeover s d.enterSolo ∧ Yields .yieldPair s (d.fatal 3 0)) ∧
    (d.pair.state ≠ .lost → Yields .takeover s d.ctrlErr ∧ Yields .yieldPair s d.ctrlErr) ∧
    (d.pair.state = .source → d.pair.bulkDone = true → (∀ u ∈ d.pair.unacked, u.ptype ≠ 10) →
      ∃ t, exec .step s = .next t ∧ t.dev.pair.stepDue = true ∧ t.dev.pair.state = .source ∧ t.dev.mem = d.mem) ∧
    (d.pair.state = .solo → ∃ t, exec .unpair s = .next t ∧ t.dev.pair.state = .unpaired ∧ t.dev.pair.mirror = [] ∧ t.dev.mem = d.mem) ∧
    (d.pair.state ≠ .solo → Yields .unpair s d.ctrlErr) ∧
    (∀ step fail corrected digest, (d.pair.state = .joining ∨ d.pair.state = .source) → step = d.pair.admStep → step < 3 →
      (fail ≠ 0 → Yields (.admissionStep step ⟨fail, corrected, digest⟩) s ((if step = 1 then d.selfTestReads corrected else d).admissionFail fail)) ∧
      (fail = 0 → step = 1 → ∃ t, exec (.admissionStep step ⟨fail, corrected, digest⟩) s = .next t ∧ t.dev.pair.admStep = 2 ∧ t.dev.pair.state = d.pair.state ∧
        (∀ tier f a, tier < 2 → f ∈ d.poolFrames tier → frameAddr tier f ≤ a → a < frameAddr tier f + 2 ^ 21 → t.dev.mem.byte a = 0)) ∧
      (fail = 0 → step = 2 → digest ≠ d.pairDigest → Yields (.admissionStep step ⟨fail, corrected, digest⟩) s (d.admissionFail 3)) ∧
      (fail = 0 → d.pair.state = .joining → step = 2 → digest = d.pairDigest →
        ∃ t, exec (.admissionStep step ⟨fail, corrected, digest⟩) s = .next t ∧ t.dev.pair.admStep = 3 ∧ t.dev.pair.state = .joining ∧ t.dev.mem = d.mem) ∧
      (fail = 0 → d.pair.state = .source → step = 2 → digest = d.pairDigest →
        ∃ t, exec (.admissionStep step ⟨fail, corrected, digest⟩) s = .next t ∧ t.dev.pair.admStep = 3 ∧ t.dev.pair.state = .source ∧ t.dev.pair.bulkQueue = d.bulkItems ∧
          ∃ u, t.dev.pair.unacked = d.pair.unacked ++ [u] ∧ u.stream = 12 ∧ u.ptype = 8)) ∧
    (d.pair.state = .source → d.pair.admStep = 3 → d.pair.bulkDone = false →
      (d.pair.bulkQueue = [] → ∃ t, exec .bulkSend s = .next t ∧ t.dev.pair.bulkDone = true ∧
        (∃ u, t.dev.pair.unacked = d.pair.unacked ++ [u] ∧ u.stream = 12 ∧ u.ptype = 10) ∧ t.dev.mem = d.mem) ∧
      (∀ id rest, d.pair.bulkQueue = .record 0 id :: rest → ∃ t, exec .bulkSend s = .next t ∧ t.dev.pair.bulkQueue = rest ∧ t.dev.mem = d.mem ∧
        t.dev.pair.bulkBytes = d.pair.bulkBytes + 128 ∧
        ∃ u, t.dev.pair.unacked = d.pair.unacked ++ [u] ∧ u.stream = id % 12 ∧ u.ptype = 2 ∧ u.frame.data = sesBytes (d.sesRec id))) ∧
    (d.pair.state = .solo → d.pair.scanning = true →
      let ids := (d.sessions.filter (fun e => d.pair.scanPos ≤ e.1 && e.1 < d.pair.scanPos + 768 && e.2.owner == d.partner)).map (·.1)
      let e : Dev := { d with pair := { d.pair with scanPos := d.pair.scanPos + 768, scanning := decide (d.pair.scanPos + 768 < d.sesLimit),
                                                    takeoverDone := decide (d.sesLimit ≤ d.pair.scanPos + 768) } }
      Yields .takeoverScan s (ids.foldl (fun d id => d.claimSession id) e)) ∧
    ((d.pair.state ≠ .solo ∨ d.pair.scanning = false) → exec .takeoverScan s = .next s) ∧
    (∀ id c, Tab.find? d.pair.conflicts id = some c → d.primary = true → d.pair.state = .paired →
      (c + 8 ≤ d.tb.cueCount → Yields (.conflictClaim id) s (d.claimSession id)) ∧
      (d.tb.cueCount < c + 8 → exec (.conflictClaim id) s = .next s)) ∧
    (d.pair.state = .solo → d.pair.takeoverCue + 4000000 ≤ d.tb.cueCount → ∃ t, exec .journalExpiry s = .next t ∧ t.dev.pair.journal = [] ∧
      t.dev.pair.state = .solo) ∧
    (d.tb.cueCount < d.pair.takeoverCue + 4000000 → exec .journalExpiry s = .next s)

/-! ## Links and security -/

/-- R504, R528 to R530, R541: a link trains, authenticates, comes up and goes down, and its configuration register. -/
def Obligations.LinkTraining : Prop :=
  ∀ (k : Nat) (s : State), s.live →
    let d := s.dev
    let l := d.link k
    (l.state = .phy → d.lanesRetired k = 0 → ∃ t, exec (.phyLocked k) s = .next t ∧
      (t.dev.link k).state = .ident ∧ (t.dev.link k).enteredCue = d.tb.cueCount ∧ (t.dev.link k).chans = l.chans ∧ t.dev.mem = d.mem ∧
      .ctrl k 1 (d.identBody k) ∈ t.dev.out ∧
      let body := flitHead 2 0 0 7 0 0 0 false ++ slice (leBytes 2 1 ++ d.identBody k) 0 240
      .flit k (body ++ leBytes 8 (crc64xz body)) ∈ t.dev.out) ∧
    (∀ m, l.state = .ident →
      ((m.enc ≠ d.linkEnc k ∨ (3 ≤ d.role k ∧ d.devId = 0xFFF)) → ∃ t, exec (.ident k m) s = .next t ∧ (t.dev.link k).state = .down ∧
        (t.dev.link k).fail = 2 ∧ t.dev.mem = d.mem) ∧
      (m.enc = d.linkEnc k → (d.role k < 3 ∨ d.devId ≠ 0xFFF) →
        (d.peerFits (d.role k) m = false → ∃ t, exec (.ident k m) s = .next t ∧ (t.dev.link k).state = .down ∧ (t.dev.link k).fail = 3 ∧
          t.dev.mem = d.mem) ∧
        (d.peerFits (d.role k) m = true → ∃ t, exec (.ident k m) s = .next t ∧ (t.dev.link k).state = (if d.linkEnc k then .auth else .credit) ∧
          (t.dev.link k).peerDev = m.devid % 4096 ∧ (t.dev.link k).peerInst = m.instanceId ∧ t.dev.mem = d.mem))) ∧
    (∀ grants, l.state = .credit → ∃ t, exec (.creditInit k grants) s = .next t ∧ (t.dev.link k).state = .up ∧
      (t.dev.link k).lastFlit = d.tb.cueCount ∧ (∀ ch, ch < 5 → (t.dev.chan k ch).txGrant = grants.getD ch 0) ∧ t.dev.out = d.out ∧ t.dev.mem = d.mem) ∧
    (∀ payload, d.sec.idOk = true → l.state = .auth →
      (Config.oaepOpen rootKey payload = none → Yields (.keyx k payload) s (d.authFail k)) ∧
      (∀ body, Config.oaepOpen rootKey payload = some body → body.length = 56 → body.drop 40 = (d.auth k).nonce →
        ((d.auth k).challengeOk = false → (d.auth k).keyxSent = false → ∃ t, exec (.keyx k payload) s = .next t ∧
          t.dev.auth k = { d.auth k with keyxOk := true, peerKey := body.take 32, peerIvp := leAt body 32 8 } ∧ t.dev.links = d.links ∧ t.dev.mem = d.mem) ∧
        ((d.auth k).challengeOk = true → (d.auth k).keyxSent = true → ∃ t, exec (.keyx k payload) s = .next t ∧ (t.dev.link k).state = .credit ∧
          (t.dev.auth k).peerKey = body.take 32 ∧ t.dev.mem = d.mem))) ∧
    (∀ code ok, d.sec.idOk = true → l.state = .auth → (d.auth k).challengeOk = false →
      ((d.auth k).certOk = false → code = 0x02 → ok = true → ∃ t, exec (.spdmResponse k code ok) s = .next t ∧ (t.dev.auth k).certOk = true ∧
        (t.dev.auth k).sends = 0 ∧ t.dev.out = d.out ++ [.spdm (.link k) 0x83 (d.auth k).nonce] ∧ t.dev.mem = d.mem) ∧
      ((code = 0x7F ∨ (ok = false ∧ code = if (d.auth k).certOk then 0x03 else 0x02)) → Yields (.spdmResponse k code ok) s (d.authFail k))) ∧
    (l.state = .auth → d.sec.idOk = true → (d.auth k).certOk = false → (d.auth k).challengeOk = false →
      (d.tb.cueCount < (d.auth k).lastSend + 8 → exec (.authResend k) s = .next s) ∧
      ((d.auth k).lastSend + 8 ≤ d.tb.cueCount → (d.auth k).sends < 3 → ∃ t, exec (.authResend k) s = .next t ∧
        t.dev.auth k = { d.auth k with sends := (d.auth k).sends + 1, lastSend := d.tb.cueCount } ∧
        t.dev.out = d.out ++ [.spdm (.link k) 0x82 []] ∧ t.dev.mem = d.mem) ∧
      ((d.auth k).lastSend + 8 ≤ d.tb.cueCount → 3 ≤ (d.auth k).sends → Yields (.authResend k) s (d.authFail k))) ∧
    ((l.state = .down ∨ l.state = .up ∨ d.tb.cueCount < l.enteredCue + trainLimit l.state) → exec (.trainingTimeout k) s = .next s) ∧
    (l.enteredCue + trainLimit l.state ≤ d.tb.cueCount →
      (l.state = .phy → ∃ t, exec (.trainingTimeout k) s = .next t ∧ (t.dev.link k).state = .down ∧
        (t.dev.link k).fail = (if d.lanesRetired k = 0 then 1 else 6) ∧ t.dev.mem = d.mem) ∧
      (l.state = .ident → ∃ t, exec (.trainingTimeout k) s = .next t ∧ (t.dev.link k).state = .down ∧ (t.dev.link k).fail = 2 ∧ t.dev.mem = d.mem) ∧
      (l.state = .auth → Yields (.trainingTimeout k) s (d.authFail k)) ∧
      (l.state = .credit → ∃ t, exec (.trainingTimeout k) s = .next t ∧ (t.dev.link k).state = .down ∧ (t.dev.link k).fail = 5 ∧ t.dev.mem = d.mem)) ∧
    (l.state = .down → d.linkEn k = true → d.role k ≠ 0 → l.laneFail = false → l.failCue + 40000 ≤ d.tb.cueCount →
      ∃ t, exec (.linkRetry k) s = .next t ∧ t.dev.link k = { l with state := .phy, enteredCue := d.tb.cueCount } ∧ t.dev.mem = d.mem) ∧
    (d.tb.cueCount < l.failCue + 40000 → exec (.linkRetry k) s = .next s) ∧
    (l.state = .up →
      (l.lastFlit + 16 ≤ d.tb.cueCount → Yields (.linkIdleTimeout k) s (d.linkDown k (some 7))) ∧
      (d.tb.cueCount < l.lastFlit + 16 → exec (.linkIdleTimeout k) s = .next s) ∧
      Yields (.deskewLoss k) s (d.linkDown k (some 7)) ∧ (∀ r, Yields (.downMessage k r) s (d.linkDown k (some 7)))) ∧
    (∀ v : Word, k < 36 → fld v.toNat 1 3 < 5 → fld v.toNat 4 2 ≠ 3 → fld v.toNat 6 14 ≤ 8192 →
      (((List.range 36).filter (· ≠ k)).map (fun j => d.regFld (GL_LINK_CFG + 8 * j) 6 14)).sum + fld v.toNat 6 14 ≤ 221184 →
      l.state = .down → ∃ t, exec (.glLinkCfgWrite k v) s = .next t ∧ t.dev.reg (GL_LINK_CFG + 8 * k) = v.toNat % 2 ^ 20 ∧
        ((t.dev.link k).state = .down ∨ (t.dev.link k).state = .phy) ∧ t.dev.mem = d.mem) ∧
    (∀ v : Word, k < 36 → (5 ≤ fld v.toNat 1 3 ∨ fld v.toNat 4 2 = 3 ∨ 8192 < fld v.toNat 6 14) →
      Yields (.glLinkCfgWrite k v) s (d.setRegBit GL_EVT 36)) ∧
    (∀ bytes corrected bad, l.state = .down → exec (.flit k bytes corrected bad) s = .next s) ∧
    (∀ bytes, l.state ≠ .down → (bytes.length ≠ 256 ∨ crc64xz (bytes.take 248) ≠ leAt bytes 248 8) →
      ∃ t, exec (.flit k bytes false false) s = .next t ∧ t.dev.link k = { l with lastFlit := d.tb.cueCount } ∧ t.dev.mem = d.mem) ∧
    (∀ bytes, l.state ≠ .down → bytes.length = 256 → crc64xz (bytes.take 248) = leAt bytes 248 8 →
      Yields (.flit k bytes false false) s ((d.setLink k { l with lastFlit := d.tb.cueCount }).goodFlit k (leAt bytes 0 8) bytes))

/-- R520 to R527: what a flit of a link that is up does: credits that come back, data without credit or out of its channel's order, slots that
join the message of their channel, and what waits for credit. -/
def Obligations.FlitsAndCredits : Prop :=
  ∀ (k : Nat) (s : State) (body bs : Bytes), s.live → s.dev.isUp k = true → bs = body ++ leBytes 8 (crc64xz body) →
    let e := s.dev.setLink k { s.dev.link k with lastFlit := s.dev.tb.cueCount }
    (∀ ch cnt slots, slots.length = 240 → ch < 5 → cnt < 32768 → body = flitHead 0 0 0 ch cnt 0 0 false ++ slots →
      let c := s.dev.chan k ch
      ((cnt + 32768 - c.txAck) % 32768 ≤ c.txGrant → c.txSlots = [] → ∃ t, exec (.flit k bs false false) s = .next t ∧
        t.dev.chan k ch = { c with txAck := cnt } ∧ (∀ j, j ≠ ch → t.dev.chan k j = s.dev.chan k j) ∧ t.dev.out = s.dev.out ∧ t.dev.mem = s.dev.mem) ∧
      (c.txGrant < (cnt + 32768 - c.txAck) % 32768 → Yields (.flit k bs false false) s (e.protocolError k))) ∧
    (∀ slots, slots.length = 240 → body = flitHead 0 0 0 7 0 0 0 false ++ slots → ∃ t, exec (.flit k bs false false) s = .next t ∧ t.dev = e) ∧
    (∀ slots ch fseq first used, slots.length = 240 → ch < 5 → fseq < 4096 → first < 16 → used < 16 → s.dev.linkEnc k = false →
      body = flitHead 1 ch fseq 7 0 first used false ++ slots →
      let c := s.dev.chan k ch
      let ahead := (fseq + 4096 - c.rxSeq % 4096) % 4096
      ((used = 0 ∨ (first ≠ 15 ∧ used ≤ first) ∨ c.granted = 0) → Yields (.flit k bs false false) s (e.protocolError k)) ∧
      (0 < used → (first = 15 ∨ first < used) → 0 < c.granted → 2048 ≤ ahead →
        Yields (.flit k bs false false) s (e.bump (GL_FLIT_DROP_CNT + 8 * k))) ∧
      (0 < used → (first = 15 ∨ first < used) → 0 < c.granted → ahead < 2048 → c.rxFreed + c.granted ≤ c.rxSeq + ahead →
        Yields (.flit k bs false false) s (e.protocolError k)) ∧
      (0 < used → first = 0 → ahead = 0 → 0 < c.granted → c.rxSeq < c.rxFreed + c.granted → c.partialMsg = [] → c.partFlits = 0 →
         used * 16 < messageBytes (s.dev.role k) ch (slots.take (used * 16)) →
        ∃ t, exec (.flit k bs false false) s = .next t ∧ (t.dev.chan k ch).partialMsg = slots.take (used * 16) ∧ (t.dev.chan k ch).partFlits = 1 ∧
          (t.dev.chan k ch).rxSeq = c.rxSeq + 1 ∧ (t.dev.chan k ch).rxFreed = c.rxFreed ∧ (t.dev.link k).rx = (s.dev.link k).rx ∧ t.dev.mem = s.dev.mem) ∧
      (0 < used → first = 0 → ahead = 0 → 0 < c.granted → c.rxSeq < c.rxFreed + c.granted → c.partialMsg = [] → c.partFlits = 0 →
         messageBytes (s.dev.role k) ch (slots.take (used * 16)) = used * 16 →
        ∃ t, exec (.flit k bs false false) s = .next t ∧ (t.dev.link k).rx = (s.dev.link k).rx ++ [(ch, 1, slots.take (used * 16))] ∧
          (t.dev.chan k ch).partialMsg = [] ∧ (t.dev.chan k ch).rxSeq = c.rxSeq + 1 ∧ (t.dev.chan k ch).rxFreed = c.rxFreed ∧ t.dev.mem = s.dev.mem)) ∧
    (∀ ch msg, ch < 5 → (s.dev.chan k ch).txSlots = [] →
      (s.dev.chan k ch).txGrant ≤ ((s.dev.chan k ch).txSeq + 32768 - (s.dev.chan k ch).txAck) % 32768 →
      (s.dev.carry k ch msg).out = s.dev.out ∧ (s.dev.carry k ch msg).chan k ch = { s.dev.chan k ch with txSlots := slotsOf msg })

/-- R135, R136, R160, R180, R381, R417, R522, R527: every format is read as it is composed. Transactions, answers, coherence messages, PAIR
frames and session records come back from their bytes; messages packed into slots are cut where they were joined; an encrypted flit opens
with the key and IV that sealed it. -/
def Obligations.WireFormats : Prop :=
  (∀ typ t, typ < 6 → spelt typ t → txnAt (txnImage typ t) = t ∧ typeAt (txnImage typ t) = typ ∧
    ∀ role, role ≠ 4 → messageBytes role 0 (padSlots (txnImage typ t)) = (padSlots (txnImage typ t)).length) ∧
  (∀ (a : Answer) isNak, a.data.length < 2 ^ 13 → answerAt a.route.isSome (answerImage a isNak) = { a with compl := a.compl || isNak } ∧
    typeAt (answerImage a isNak) = if isNak then 8 else 7) ∧
  (∀ cmsg (m : CohMsg), cmsg < 32 → m.rsv = false → m.data.length = (if m.d then 128 else 0) → cohAt (cohImage cmsg m) = m ∧ cmsgAt (cohImage cmsg m) = cmsg ∧
    ∀ role ch, ch ≠ 0 → messageBytes role ch (padSlots (cohImage cmsg m)) = (padSlots (cohImage cmsg m)).length) ∧
  (∀ ptype (f : PairFrame), ptype < 16 → f.data.length = f.len.toNat → pairAt (pairImage ptype f) = f ∧ ptypeAt (pairImage ptype f) = ptype ∧
    messageBytes 4 0 (padSlots (pairImage ptype f)) = (padSlots (pairImage ptype f)).length) ∧
  (∀ z : SesRec, z.fits → (sesBytes z).length = 128 ∧ sesOfBytes (sesBytes z) = z) ∧
  (∀ role ch (l : List Bytes), (∀ m ∈ l, 16 ≤ m.length ∧ messageBytes role ch m = m.length) →
    cutMessages role ch l.length 0 l.flatten = (l.map (fun m => (0, m)), 0, [])) ∧
  (∀ (a : Auth) cnt ch (head slots crc : Bytes), a.peerKey.length = 32 → head.length = 8 → slots.length = 224 →
    let iv := flitIv a.peerIvp cnt ch
    let ct := gcmCrypt a.peerKey iv slots
    openFlit a cnt ch (head ++ ct ++ gcmTag a.peerKey iv head ct ++ crc) = some slots)

/-- R501, R502, R509, R510, R512, R513, R517: tenants, seeds, confidential mode, fixed ranges, stream maps and the TAP. R497, R506 to R508: the
SPDM responder at the DOE mailbox: what it answers to each request, while its registers, memory and keys stay. -/
def Obligations.SecurityRegisters : Prop :=
  ((∀ s : State, s.serves → s.dev.sec.rootOk = true → s.dev.sec.idOk = true →
      let d := s.dev
      (d.sec.seed = none → ∃ t seed, exec .secSeedNew s = .next t ∧ t.dev.sec.seed = some seed ∧ t.dev.mem = d.mem ∧
        ∃ body, t.dev.out = d.out ++ [.mailbox 0xC370 .ok body]) ∧
      (∀ b, d.sec.seed = some b → ∃ t body, exec .secSeedExport s = .next t ∧ t.dev.sec = d.sec ∧ t.dev.mem = d.mem ∧
        t.dev.out = d.out ++ [.mailbox 0xC372 .ok body]) ∧
      (d.sec.seed = none → Yields .secSeedExport s (d.emit (.mailbox 0xC372 .badRequest []))) ∧
      (d.sec.seed ≠ none → Yields .secSeedNew s (d.emit (.mailbox 0xC370 .busy []))) ∧
      (∀ blob seed, blobSeed blob = some seed → d.sec.seed = none → ∃ t, exec (.secSeedLoad blob) s = .next t ∧ t.dev.sec.seed = some seed ∧
        t.dev.mem = d.mem ∧ t.dev.out = d.out ++ [.mailbox 0xC371 .ok []]) ∧
      (∀ blob, blobSeed blob = none → Yields (.secSeedLoad blob) s (d.emit (.mailbox 0xC371 .badRequest [])))) ∧
    (∀ (p : Nat) (v : Word) (s : State), s.live → p < 16 →
      let d := s.dev
      (d.tenantLocked p = true → ∀ hi, Yields (.secTenantWrite p hi v) s d.secCfgErr) ∧
      (d.tenantLocked p = false →
        Yields (.secTenantWrite p false v) s (d.putReg (SEC_TENANT_LO + 16 * p) v.toNat) ∧
        ∃ t, exec (.secTenantWrite p true v) s = .next t ∧ t.dev.reg (SEC_TENANT_HI + 16 * p) = v.toNat ∧ t.dev.csr = (d.putReg (SEC_TENANT_HI + 16 * p) v.toNat).csr ∧
          t.dev.mem = d.mem) ∧
      (fld v.toNat 3 2 = 3 → Yields (.secConfWrite p v) s d.secCfgErr) ∧
      (fld v.toNat 3 2 ≠ 3 → ∃ t, exec (.secConfWrite p v) s = .next t ∧ t.dev.sec.conf = d.sec.conf ∧ t.dev.mem = d.mem ∧
        t.dev.regFld (SEC_CONF + 8 * p) 0 1 = fld v.toNat 0 1 ∧ t.dev.regFld (SEC_CONF + 8 * p) 3 2 = fld v.toNat 3 2 ∧
        (t.dev.sec.pending.getLsbD p = true ↔ (fld v.toNat 0 1 = 1 ↔ d.isConf p = false)) ∧
        ∀ q, q < 16 → q ≠ p → t.dev.sec.pending.getLsbD q = d.sec.pending.getLsbD q)) ∧
    (∀ (n : Nat) (v : Word) (s : State), s.live → n < 64 →
      let d := s.dev
      (d.isConf (fld v.toNat 2 4) = false → (d.regFld (SEC_RANGE + 8 * n) 0 1 = 0 ∨ d.isConf (d.regFld (SEC_RANGE + 8 * n) 2 4) = false) →
        (fld v.toNat 0 1 = 0 ∨ d.rangeBad n (v.toNat % 2 ^ 44) = false) →
        Yields (.secRangeWrite n v) s (d.putReg (SEC_RANGE + 8 * n) (v.toNat % 2 ^ 44))) ∧
      ((d.isConf (fld v.toNat 2 4) = true ∨ (fld v.toNat 0 1 = 1 ∧ d.rangeBad n (v.toNat % 2 ^ 44) = true)) → Yields (.secRangeWrite n v) s d.secCfgErr)) ∧
    (∀ (k j : Nat) (v : Word) (s : State), s.live → k < 36 → j < 32 → s.dev.sec.conf = 0 →
      Yields (.secStrmWrite k j v) s (s.dev.putReg (SEC_STRM + 256 * k + 8 * j) (v.toNat &&& 0x1F1F1F1F1F1F1F1F))) ∧
    (∀ (ir : Nat) (s : State), s.live → ∃ t, exec (.tapInstruction ir) s = .next t ∧
      t.dev.sec = { s.dev.sec with tapIr := if s.dev.sec.conf ≠ 0 ∧ 4 < ir then 0 else ir } ∧ t.dev.mem = s.dev.mem ∧ t.dev.csr = s.dev.csr)) ∧
  (∀ s : State, s.live → s.dev.sec.idOk = true →
      let answers : Instr → Nat → (Bytes → Prop) → Prop := fun i code p =>
        ∃ t body, exec i s = .next t ∧ p body ∧ t.dev.out = s.dev.out ++ [.spdm .doe code body] ∧ t.dev.sec = s.dev.sec ∧ t.dev.mem = s.dev.mem ∧
          t.dev.csr = s.dev.csr ∧ t.dev.pair = s.dev.pair
      answers (.getVersion .doe) 0x04 (· = [0, 1, 0x00, 0x12]) ∧
      answers (.getCapabilities .doe) 0x61 (·.length = 13) ∧
      answers (.negotiateAlgorithms .doe) 0x63 (fun b => b.length = 13 ∧ (leAt b 5 4 = 4 ∨ leAt b 5 4 = 8)) ∧
      answers (.getDigests .doe) 0x01 (· = 1 :: sha256 certChain) ∧
      (∀ off len, off ≤ certChain.length → answers (.getCertificate .doe off len) 0x02 (fun b =>
        b = leBytes 2 (min len (certChain.length - off)) ++ leBytes 2 (certChain.length - off - min len (certChain.length - off)) ++
          slice certChain off (min len (certChain.length - off)))) ∧
      (∀ off len, certChain.length < off → answers (.getCertificate .doe off len) 0x7F (· = [1])) ∧
      (∀ nonce, answers (.challenge .doe nonce) 0x03 (fun b => (sha256 certChain) <+: b)) ∧
      (∀ nonce i m, i ≠ 0 → i ≠ 0xFF → s.dev.measured.measurement i = some m →
        answers (.getMeasurements .doe nonce i) 0x60 (fun b => ([0, 1] ++ leBytes 3 (measBlock i m).length ++ measBlock i m) <+: b)) ∧
      (∀ nonce i, i ≠ 0 → i ≠ 0xFF → s.dev.measured.measurement i = none → answers (.getMeasurements .doe nonce i) 0x7F (· = [1])) ∧
      (∀ code, answers (.spdmUnsupported .doe code) 0x7F (· = [0x07, code])))

/-! ## The host port, power and time -/

/-- R534 to R539, R513: the CXL port: reads and writes of the host, windows, retraining, and opcodes that the manual does not define. R535,
R379, R410, R438, R541: a write of a register takes its writable bits and clears those written 1 where the map says so, except where a
command of its own or a bar says otherwise. -/
def Obligations.HostPort : Prop :=
  (∀ s : State, s.live →
      let d := s.dev
      (∀ x, d.cxl.mode = true → d.cxl.viral = false →
        (d.window (x / 64 * 64) = none → Yields (.cxlMemRead x) s (d.emit (.cxlData x true (zeros 64))) ∧
          ∀ data, Yields (.cxlMemWrite x data) s (d.emit (.cxlCmp x))) ∧
        (∀ a, d.window (x / 64 * 64) = some a →
          (d.hostDenied a = true → Yields (.cxlMemRead x) s (d.denyHost.emit (.cxlData x true (zeros 64))) ∧
            ∀ data, Yields (.cxlMemWrite x data) s (d.denyHost.emit (.cxlCmp x))) ∧
          (d.hostDenied a = false → Yields (.cxlMemRead x) s (d.homeAccess .load a 64 [] 0 16 (.host x)) ∧
            ∀ data, Yields (.cxlMemWrite x data) s (d.homeAccess .store a 64 (slice data 0 64) 0 16 (.host x))))) ∧
      (∀ x, d.cxl.mode = true → d.cxl.viral = true → Yields (.cxlMemRead x) s (d.emit (.cxlData x true (zeros 64))) ∧
        ∀ data, Yields (.cxlMemWrite x data) s (d.emit (.cxlCmp x))) ∧
      (∀ x, d.cxl.mode = false → exec (.cxlMemRead x) s = .next s ∧ ∀ data, exec (.cxlMemWrite x data) s = .next s) ∧
      (∀ id ok data, Tab.find? d.cxl.reads (id / 2 ^ 24) = none → exec (.rdcurrData id ok data) s = .next s) ∧
      (∀ id ok data r, Tab.find? d.cxl.reads (id / 2 ^ 24) = some r → (∃ j, j ∈ r.left ∧ j ≠ id % 2 ^ 24) → id % 2 ^ 24 ∈ r.left →
        ∃ t, exec (.rdcurrData id ok data) s = .next t ∧ t.dev.mem = d.mem ∧ t.dev.out = d.out ∧ Tab.find? t.dev.cxl.reads (id / 2 ^ 24) =
          some { r with left := r.left.filter (· ≠ id % 2 ^ 24), got := Tab.insert r.got (id % 2 ^ 24) (if ok then slice data 0 64 else []), bad := r.bad || !ok }) ∧
      (∀ (addr : Word) (off size : Nat), csrOffset addr.toNat = some off → (size ≠ 8 ∨ off % 8 ≠ 0) →
        Yields (.malformedCsrRead addr size) s ((d.bump CXL_BAD_CSR_CNT).emit (.csrData addr (BitVec.ofNat 64 (2 ^ (8 * min size 8) - 1)))) ∧
        ∀ v, Yields (.csrWrite addr size v) s (d.bump CXL_BAD_CSR_CNT)) ∧
      (∀ v : Word, d.pwr.ready = true → ∀ b, exec (.cxlWinWrite b v) s = .next s) ∧
      (∀ v : Word, d.pwr.ready = false →
        (fld v.toNat 0 14 + fld v.toNat 14 14 ≤ 15360 → Yields (.cxlWinWrite false v) s (d.putReg CXL_WIN_N (v.toNat % 2 ^ 28))) ∧
        (fld v.toNat 0 19 + fld v.toNat 19 19 ≤ 294912 → Yields (.cxlWinWrite true v) s (d.putReg CXL_WIN_S (v.toNat % 2 ^ 38))) ∧
        (15360 < fld v.toNat 0 14 + fld v.toNat 14 14 → Yields (.cxlWinWrite false v) s (d.setRegBit CXL_EVT 3)) ∧
        (294912 < fld v.toNat 0 19 + fld v.toNat 19 19 → Yields (.cxlWinWrite true v) s (d.setRegBit CXL_EVT 3))) ∧
      (∀ op : BitVec 16, mailboxDefined op.toNat = false → Yields (.mailboxUnsupported op) s (d.emit (.mailboxUnsupported op.toNat))) ∧
      (∀ width rate, ∃ t, exec (.cxlPortRetrain width rate) s = .next t ∧ t.dev.regFld CXL_EVT 0 1 = 1 ∧ t.dev.mem = d.mem ∧
        t.dev.cxl = { d.cxl with mode := decide (width % 4 ≠ 0 ∧ rate % 4 ≠ 0), width := width % 4, rate := rate % 4 }) ∧
      (d.cxl.reads = [] → ∃ t, exec .perstN s = .next t ∧ t.dev.cxl.mode = false ∧ t.dev.cxl.width = 0 ∧ t.dev.pwr.cxlUp = false ∧ t.dev.mem = d.mem ∧
        t.dev.csr = d.csr ∧ t.dev.out = d.out)) ∧
  (∀ (s : State) (addr : Word) (off : Nat) (v : Word), s.live → csrOffset addr.toNat = some off → off % 8 = 0 →
      let d := s.dev
      (d.writeBarred off = true → exec (.csrWrite addr 8 v) s = .next s) ∧
      (d.writeBarred off = false → off < 2 ^ 24 → (d.famWrite off v).isNone = true → (d.secWrite off v).isNone = true → (d.oneWrite off v).isNone = true →
        (csrFam off = none → exec (.csrWrite addr 8 v) s = .next s) ∧
        (∀ f, csrFam off = some f → ∃ t, exec (.csrWrite addr 8 v) s = .next t ∧ (∀ o, o ≠ off → t.dev.reg o = d.reg o) ∧
          { t.dev with csr := d.csr } = d ∧ t.dev.reg off =
            ((d.reg off &&& (2 ^ 64 - 1 - f.rw - f.w1c)) ||| (v.toNat &&& f.rw) ||| (d.reg off &&& f.w1c &&& (2 ^ 64 - 1 - v.toNat))) % 2 ^ 64)) ∧
      (off ≠ TB_NOW → Yields (.malformedCsrRead addr 8) s (d.emit (.csrData addr (BitVec.ofNat 64 (d.regValue off))))))

/-- R94 to R98: partitions are given contexts, and bundles are loaded, checked and committed at a cue, queried and unloaded. -/
def Obligations.BundleLoading : Prop :=
  ∀ s : State, s.serves →
    let d := s.dev
    (∀ p ctxs qdepth store, p < 16 → ctxs ≤ 240 → qdepth ≤ 1024 → d.partBusy p = false → d.cfgSum p (·.1) + ctxs ≤ 240 →
      d.cfgSum p (fun c => c.2.2) + store ≤ 1024 → ∃ t, exec (.thrCfg p ctxs qdepth store) s = .next t ∧ t.dev.thrCfg p = (ctxs, qdepth, store) ∧
        (∀ q, q ≠ p → t.dev.thrCfg q = d.thrCfg q) ∧ t.dev.out = d.out ++ [.mailbox 0xC300 .ok []] ∧ t.dev.mem = d.mem) ∧
    (∀ p ctxs qdepth store, p < 16 → ctxs ≤ 240 → qdepth ≤ 1024 → d.partBusy p = true →
      Yields (.thrCfg p ctxs qdepth store) s (d.emit (.mailbox 0xC300 .busy []))) ∧
    (∀ p slot, p < 16 → slot < 16 →
      (∀ len, 0 < len → len ≤ 524288 →
        (Tab.find? d.thr.loading (loadKey p slot) = none → ∃ t, exec (.bundleBegin p slot len) s = .next t ∧
          Tab.find? t.dev.thr.loading (loadKey p slot) = some { len := len, bytes := [] } ∧ t.dev.thr.bundles = d.thr.bundles ∧
          t.dev.out = d.out ++ [.mailbox 0xC301 .ok []]) ∧
        (Tab.find? d.thr.loading (loadKey p slot) ≠ none → Yields (.bundleBegin p slot len) s (d.emit (.mailbox 0xC301 .busy [])))) ∧
      (∀ l off data, Tab.find? d.thr.loading (loadKey p slot) = some l → data.length ≤ 4096 →
        (off + data.length ≤ l.len → ∃ t, exec (.bundleData p slot off data) s = .next t ∧
          Tab.find? t.dev.thr.loading (loadKey p slot) = some { l with bytes := putBytes l.bytes off data } ∧ t.dev.thr.bundles = d.thr.bundles ∧
          t.dev.out = d.out ++ [.mailbox 0xC302 .ok []]) ∧
        (l.len < off + data.length → Yields (.bundleData p slot off data) s (d.emit (.mailbox 0xC302 .badRequest [])))) ∧
      (Tab.find? d.thr.loading (loadKey p slot) = none → Yields (.bundleCommit p slot) s (d.emit (.mailbox 0xC303 .badRequest []))) ∧
      (∀ l b, Tab.find? d.thr.loading (loadKey p slot) = some l →
        bundleOf ((List.range l.len).map (fun i => Tab.get 0 l.bytes i)) p slot l.len = some b →
        (∀ x, (x ∈ d.thr.bundles ∧ x.live = true) ∨ x ∈ d.thr.staged → x.part = p → x.slot ≠ slot → ∀ e ∈ x.binds, ∀ y ∈ b.binds, y.opcode ≠ e.opcode) →
        d.storeUsed p slot + 4 * b.words.length ≤ (d.thrCfg p).2.2 * 1024 →
        ∃ t, exec (.bundleCommit p slot) s = .next t ∧ Tab.find? t.dev.thr.loading (loadKey p slot) = none ∧ t.dev.thr.bundles = d.thr.bundles ∧
          t.dev.out = d.out ++ [.mailbox 0xC303 .ok (leBytes 8 ((d.tb.cueCount + 1) % 2 ^ 64))] ∧
          t.dev.thr.staged.find? (fun x => x.part == p && x.slot == slot) =
            some { b with uid := d.thr.nextUid, commitCue := (d.tb.cueCount + 1) % 2 ^ 64 }) ∧
      (∃ t, exec (.bundleUnload p slot) s = .next t ∧ (∀ b ∈ t.dev.thr.bundles, b.part = p → b.slot = slot → b.live = false) ∧
        (∀ b ∈ t.dev.thr.staged, b.part = p → b.slot ≠ slot) ∧ t.dev.out = d.out ++ [.mailbox 0xC304 .ok []] ∧ t.dev.mem = d.mem) ∧
      (∃ t body, exec (.bundleQuery p slot) s = .next t ∧ t.dev = d.emit (.mailbox 0xC305 .ok body) ∧
        body.take 8 = leBytes 8 (if d.thr.staged.any (fun b => b.part == p && b.slot == slot) then 2
          else if d.thr.bundles.any (fun b => (b.part == p && b.slot == slot) && b.live) then 3
          else if (Tab.find? d.thr.loading (loadKey p slot)).isSome then 1 else 0))) ∧
    (∀ b : Bundle, d.thr.staged = [b] → d.commitBundles.thr.staged = [] ∧
      d.commitBundles.thr.bundles.find? (fun x => x.live && x.part == b.part && x.slot == b.slot) = some { b with live := true })

/-- R543 to R552, R556, R558, R475 to R477: reset, bring-up, voltages, temperatures and the resets of the device. -/
def Obligations.PowerAndReset : Prop :=
  (∀ (addr : BitVec 3) (s : State), ∃ t, exec (.resetN addr) s = .next t ∧ t.pending = s.pending ∧ t.dev.pwr.powered = true ∧ t.dev.pwr.romFatal = false ∧
    t.dev.pwr.strap = addr ∧ t.dev.pwr.ready = false ∧ t.dev.flt.fatal = false ∧ t.dev.csr = [] ∧ t.dev.mem.bytes = [] ∧
    t.dev.links = [] ∧ t.dev.tb.state = .unlocked ∧ t.dev.pair.state = .unpaired ∧ t.dev.sec.seed = none ∧ t.dev.out = s.dev.out) ∧
  (∀ s : State, ∃ t, exec .powerDown s = .next t ∧ t.pending = s.pending ∧ t.dev.pwr.powered = false ∧ t.dev.csr = [] ∧ t.dev.mem.bytes = [] ∧ t.dev.out = s.dev.out) ∧
  (∀ s : State, s.live →
    let d := s.dev
    (∀ rail, Yields (.railFault rail) s ((d.setRegBit PWR_EVT 2).fatal 4 5)) ∧
    (∃ t, exec .cfgDone s = .next t ∧ t.dev = { d with pwr := { d.pwr with cfgDone := true } }) ∧
    (∀ slot svn partRec vmin, d.pwr.romDone = false → ∃ t, exec (.stageDone (.rom true slot svn partRec vmin true)) s = .next t ∧ t.dev.pwr.romDone = true ∧
      t.dev.pwr.partRec = partRec ∧ t.dev.sec.fwSlot = slot % 2 ∧ t.dev.sec.fwSvn = svn % 65536 ∧ t.dev.mem = d.mem ∧ t.dev.csr = d.csr) ∧
    (∀ fwOk slot svn partRec vmin pllOk, d.pwr.romDone = false → (fwOk = false ∨ pllOk = false) →
      ∃ t, exec (.stageDone (.rom fwOk slot svn partRec vmin pllOk)) s = .next t ∧ t.dev.pwr.romFatal = true ∧ t.dev.flt.fatalPin = true ∧
        t.dev.flt.fatal = d.flt.fatal ∧ t.dev.mem = d.mem) ∧
    (∀ rootOk, d.pwr.romDone = true → d.pwr.rootTried = false → ∃ t, exec (.stageDone (.keys rootOk)) s = .next t ∧ t.dev.sec.rootOk = rootOk ∧
      t.dev.pwr.rootTried = true ∧ t.dev.mem = d.mem ∧ t.dev.csr = d.csr) ∧
    (∀ idOk, d.sec.rootOk = true → d.pwr.idDone = false → ∃ t, exec (.stageDone (.identity idOk)) s = .next t ∧
      t.dev = { d with pwr := { d.pwr with idDone := true }, sec := { d.sec with idOk := idOk } }) ∧
    (d.pwr.romDone = true → d.pwr.memDone = false →
      Yields (.stageDone (.memory true 0)) s ({ d with pwr := { d.pwr with memDone := true } } : Dev).resetEntry ∧
      Yields (.stageDone (.memory false 0)) s (d.fatal 4 5)) ∧
    (∀ w r, d.pwr.memDone = true → ∃ t, exec (.stageDone (.cxl w r)) s = .next t ∧ t.dev.pwr.cxlUp = true ∧ t.dev.cxl.width = w % 4 ∧
      t.dev.cxl.rate = r % 4 ∧ t.dev.mem = d.mem) ∧
    (∀ tile, tile < 12 →
      (d.vset tile = d.vtarget tile → exec (.avsStep tile) s = .next s) ∧
      (d.vset tile ≠ d.vtarget tile → ∃ t v, exec (.avsStep tile) s = .next t ∧ t.dev.vset tile = v ∧ t.dev.out = d.out ++ [.avs tile v] ∧
        v ≤ d.vset tile + 10 ∧ d.vset tile ≤ v + 10 ∧ (d.vset tile < d.vtarget tile → d.vset tile < v ∧ v ≤ d.vtarget tile) ∧
        (d.vtarget tile < d.vset tile → v < d.vset tile ∧ d.vtarget tile ≤ v) ∧ (∀ u, u ≠ tile → t.dev.vset u = d.vset u) ∧ t.dev.mem = d.mem)) ∧
    (∀ temps, ∃ t, exec (.tjSample temps) s = .next t ∧ t.dev.pwr.temps = (List.range 21).map (d.monitorReads temps) ∧
      (∀ x ∈ t.dev.pwr.temps, x ≤ t.dev.pwr.tj) ∧ t.dev.pwr.tj ∈ t.dev.pwr.temps ∧ (110 * 16 < t.dev.pwr.tj → t.dev.pwr.thermN = true) ∧
      (t.dev.pwr.duty = min t.dev.pwr.dPwr t.dev.pwr.dTh ∨ t.dev.pwr.duty = d.pwr.duty)) ∧
    (∀ cause, d.flt.fatal = false → Yields (.warmReset cause) s (d.fatal cause 4) ∧ Yields (.powerCycle cause) s (d.fatal cause 5)) ∧
    (∀ cause, d.flt.fatal = true →
      (d.stepBegins 4 = true → ∃ t, exec (.warmReset cause) s = .next t ∧ t.dev.flt.fatal = false ∧ t.dev.pwr.ready = false ∧ t.dev.pwr.strap = d.pwr.strap ∧
        t.dev.pwr.vset = d.pwr.vset ∧ t.dev.csr = [] ∧ t.dev.flt.lastReset = (if d.flt.cause = 1 then 4 else 5) ∧
        (∀ c ∈ t.dev.mem.bytes, inBook c.1 = true)) ∧
      (d.stepBegins 5 = true → d.flt.pwrReq = false → ∃ t, exec (.powerCycle cause) s = .next t ∧ t.dev.flt.pwrReq = true ∧ t.dev.flt.fatal = true) ∧
      (d.stepBegins 4 = false → exec (.warmReset cause) s = .next s)))

/-- R33 to R36, R41, R46, R47, R54 to R58, R60, R461: the grid at a cue boundary, staged shares, the timebase's states on PPS edges, and wings
slots. -/
def Obligations.CueAndTimebase : Prop :=
  (∀ (tel : Bool) (s : State), s.live → Yields (.cueBoundary tel) s (s.dev.issueAllGroups.nextCue.cueWork tel)) ∧
  (∀ d : Dev, d.tb.inSec + 1 < 4000000 →
    let e := d.nextCue
    e.tb.tbase = d.tb.tbase + 250 ∧ e.tb.cueCount = d.tb.cueCount + 1 ∧ e.tb.aclk = d.tb.aclk + d.tb.cueLen ∧ e.tb.sub = 0 ∧
      e.tb.state = d.tb.state ∧ 864 ≤ e.tb.cueLen ∧ e.tb.cueLen ≤ 936 ∧
      ((d.tb.state = .unlocked ∨ d.tb.state = .acquiring ∨ d.tb.state = .freeRun) → e.tb.cueLen = 900) ∧ e.mem = d.mem ∧ e.csr = d.csr ∧ e.out = d.out) ∧
  (∀ (m : MsMeas) (s : State), s.live → s.dev.tb.msDue = false → exec (.msBoundary m) s = .next s) ∧
  (∀ (m : MsMeas) (s : State), s.live → s.dev.tb.msDue = true → ∃ t, exec (.msBoundary m) s = .next t ∧ t.dev.tb.msDue = false ∧
    t.dev.tb.cutWin = false ∧ ∀ x ∈ t.dev.ver.trays, x.2.misses = 0) ∧
  (∀ d : Dev, d.cue.applyPending = true →
    (d.applyOk = true → d.sharesMs.cue.applyPending = false ∧ (∀ p, p < 16 → d.sharesMs.share p = d.staged p) ∧ d.sharesMs.csr = d.csr) ∧
    (d.applyOk = false → d.sharesMs.cue = { d.cue with applyPending := false } ∧ d.sharesMs.regFld CUE_STAT 1 1 = 1)) ∧
  (∀ s : State, s.live →
    let d := s.dev
    (∃ t, exec .applyShares s = .next t ∧ t.dev = { d with cue := { d.cue with applyPending := true } }) ∧
    (∀ a sub, a < d.tb.cueLen →
      (d.tb.state = .freeRun → ∃ t, exec (.ppsEdge a sub) s = .next t ∧ t.dev.tb.state = .freeRun ∧ t.dev.tb.slew = d.tb.slew ∧ t.dev.csr = d.csr) ∧
      (d.tb.state = .unlocked → ∃ t, exec (.ppsEdge a sub) s = .next t ∧ t.dev.tb.state = .acquiring ∧ t.dev.tb.goodInt = 0 ∧
        t.dev.tb.lastEdge = some (64 * (d.tb.aclk + a) + sub % 64) ∧ t.dev.tb.tbase = d.tb.tbase) ∧
      (∀ p, d.tb.state = .acquiring → d.tb.lastEdge = some p →
        let iv := 64 * (d.tb.aclk + a) + sub % 64 - p
        (ms64 < ((iv : Int) - sec64).natAbs → ∃ t, exec (.ppsEdge a sub) s = .next t ∧ t.dev.tb.state = .acquiring ∧ t.dev.tb.goodInt = 0 ∧
          t.dev.tb.tbase = d.tb.tbase) ∧
        (((iv : Int) - sec64).natAbs ≤ ms64 → d.tb.goodInt + 1 < 3 → ∃ t, exec (.ppsEdge a sub) s = .next t ∧ t.dev.tb.state = .acquiring ∧
          t.dev.tb.goodInt = d.tb.goodInt + 1 ∧ t.dev.tb.tbase = d.tb.tbase) ∧
        (((iv : Int) - sec64).natAbs ≤ ms64 → 2 ≤ d.tb.goodInt → d.regFld TB_CTRL 0 1 = 1 →
          d.tb.at a < d.regFld TB_SEC_NEXT 0 34 * 1000000000 → a = 0 → ∃ t, exec (.ppsEdge a sub) s = .next t ∧ t.dev.tb.state = .tracking ∧
            t.dev.tb.stepped = true ∧ t.dev.tb.tbase = d.regFld TB_SEC_NEXT 0 34 * 1000000000 ∧ t.dev.regFld TB_EVT 3 1 = 1 ∧ t.dev.mem = d.mem)) ∧
      (d.tb.state.servo = true → 2000000 ≤ d.tb.inSec → ∃ t, exec (.ppsEdge a sub) s = .next t ∧
        t.dev.tb.edges = d.tb.edges ++ [64 * (d.tb.aclk + a) + sub % 64] ∧ t.dev.tb.state = d.tb.state ∧ t.dev.tb.slew = d.tb.slew)) ∧
    (∀ a sub, d.tb.cueLen ≤ a → exec (.ppsEdge a sub) s = .next s) ∧
    ((d.tb.state = .tracking ∨ d.tb.state = .locked) → d.tb.met = false → (64 * d.tb.cue0At : Nat) + d.tb.slew0 + ms64 ≤ (64 * d.tb.aclk : Nat) →
      ∃ t, exec .holdover s = .next t ∧ t.dev.tb.state = .holdover ∧ t.dev.regFld TB_EVT 0 1 = 1 ∧ t.dev.tb.freq = d.tb.freq) ∧
    (d.tb.met = true → exec .holdover s = .next s) ∧
    (d.pwr.ready = false → ∃ t, exec .freeRun s = .next t ∧ t.dev.tb.state = .freeRun ∧ t.dev.regFld TB_CTRL 1 1 = 1 ∧ t.dev.tb.slew = 0) ∧
    (d.pwr.ready = true → exec .freeRun s = .next s) ∧
    (∀ r, wingsThere r = true →
      let turn := Tab.get 0 d.cue.wingsTurn (wingsKey r)
      let moved := { d.cue with wingsTurn := Tab.set 0 d.cue.wingsTurn (wingsKey r) ((turn + 1) % 16) }
      let servedOnce := fun (u : BgClass) => Tab.set 0 d.cue.served (wingsKey r * 8 + bgIx u) (Tab.get 0 d.cue.served (wingsKey r * 8 + bgIx u) + 1)
      let nth := fun (b : BgClass) (i : Nat) => bgClasses.getD ((bgIx b + i) % 6) .telemetry
      let idle := fun (u : BgClass) => bgWeight u r = 0 ∨ d.bgPending u r = false
      ((wingsWheel r)[turn]? = none → Yields (.wingsSlot r) s { d with cue := moved }) ∧
      (∀ b, (wingsWheel r)[turn]? = some b →
        ((∀ u, idle u) → Yields (.wingsSlot r) s { d with cue := moved }) ∧
        (∀ i, i < 6 → (∀ j, j < i → idle (nth b j)) → ¬ idle (nth b i) →
          (nth b i ≠ .scrub → Yields (.wingsSlot r) s { d with cue := { moved with served := servedOnce (nth b i) } }) ∧
          (nth b i = .scrub → Tab.get false d.mem.marks (scrubGranule r (Tab.get 0 d.cue.scrubPos (wingsKey r))) = true →
            Yields (.wingsSlot r) s { d with cue := { moved with
              served := servedOnce .scrub
              scrubPos := Tab.set 0 d.cue.scrubPos (wingsKey r) ((Tab.get 0 d.cue.scrubPos (wingsKey r) + 1) % scrubCount r) } })))) ∧
    (∀ addr : Word, addr.toNat / 64 ∈ d.mem.writeBack → ∃ t, exec (.eccWriteback addr) s = .next t ∧
      Tab.get Ecc.good t.dev.mem.ecc (addr.toNat / 64) = .good ∧ (addr.toNat / 64) ∉ t.dev.mem.writeBack ∧ t.dev.mem.bytes = d.mem.bytes ∧
      t.dev.mem.marks = d.mem.marks))

/-- R44, R45: the calendar of foreground slots: slot f belongs to entry f mod 64, entry bitrev6(i) holds position i of the shares written one
after another, and each partition has as many of the 64 entries as its share; who uses a slot, and when the search pointer, which is 0 at
reset, moves. The slots that a duty leaves usable are counted alone (R553), and a duty of 15 leaves every foreground slot. -/
def Obligations.CalendarSlots : Prop :=
  (∀ (share : Nat → Nat) (f : Nat), calEntry share f = calEntry share (f % 64)) ∧
  (∀ (share : Nat → Nat) (i : Nat), i < 64 →
    bitrev6 i < 64 ∧ (∀ b, b < 6 → (bitrev6 i).testBit b = i.testBit (5 - b)) ∧ calEntry share (bitrev6 i) = (shareSeq share).getD i none) ∧
  (∀ (share : Nat → Nat) (p n : Nat), p < 16 → n < share p →
    (shareSeq share)[((List.range p).map share).sum + n]? = some (some p)) ∧
  (∀ share : Nat → Nat, (shareSeq share).length = ((List.range 16).map share).sum) ∧
  (∀ (share : Nat → Nat) (p : Nat), p < 16 → ((List.range 16).map share).sum ≤ 64 → (List.range 64).countP (fun j => calEntry share j == some p) = share p) ∧
  (∀ res, Tab.get 0 State.reset.dev.cue.ptr res = 0) ∧
  (∀ duty k : Nat, usableBelow duty k = (List.range k).countP (usableSlot duty) ∧ usableBelow 15 k = foreground k) ∧
  (∀ (d : Dev) (res f : Nat) (pending : Nat → Bool),
    let ptr := Tab.get 0 d.cue.ptr res
    (∀ o, calEntry d.share f = some o → pending o = true → d.useSlot res f pending = (d, some o)) ∧
    (∀ o, calEntry d.share f = some o → pending o = false → d.isConf o = true → d.useSlot res f pending = (d, none)) ∧
    ((calEntry d.share f = none ∨ ∃ o, calEntry d.share f = some o ∧ pending o = false ∧ d.isConf o = false) →
      ((∀ q, q < 16 → d.isConf q = true ∨ pending q = false) → d.useSlot res f pending = (d, none)) ∧
      (∀ n, n < 16 → (d.isConf ((ptr + n) % 16) = false ∧ pending ((ptr + n) % 16) = true) →
        (∀ m, m < n → d.isConf ((ptr + m) % 16) = true ∨ pending ((ptr + m) % 16) = false) →
        (d.useSlot res f pending).2 = some ((ptr + n) % 16) ∧
        Tab.get 0 (d.useSlot res f pending).1.cue.ptr res = ((ptr + n) % 16 + 1) % 16)))
end

