-- ==== Sys2Proof/Laws/Tab.lean ====
section
/-! SUPPORT. Laws of the sparse tables: read after write, and the canonical form. -/

namespace Sys2Proof.Machine

variable {α : Type}

@[simp] theorem Tab.find?_nil (k : Nat) : Tab.find? ([] : Tab α) k = none := rfl

@[simp] theorem Tab.find?_insert_self (t : Tab α) (k : Nat) (v : α) : Tab.find? (Tab.insert t k v) k = some v := by
  induction t with
  | nil => simp [Tab.insert, Tab.find?]
  | cons e t ih =>
    obtain ⟨k', v'⟩ := e
    simp only [Tab.insert]
    split
    · simp [Tab.find?]
    · split
      · simp [Tab.find?]
      · rename_i h1 h2
        simp only [Tab.find?]
        rw [if_neg (fun h => h2 h.symm)]
        exact ih

theorem Tab.find?_insert_ne (t : Tab α) {k j : Nat} (v : α) (h : j ≠ k) : Tab.find? (Tab.insert t k v) j = Tab.find? t j := by
  induction t with
  | nil => simp [Tab.insert, Tab.find?, Ne.symm h]
  | cons e t ih =>
    obtain ⟨k', v'⟩ := e
    simp only [Tab.insert]
    split
    · simp [Tab.find?, Ne.symm h]
    · split
      · rename_i h1 h2
        subst h2
        simp [Tab.find?, Ne.symm h]
      · simp only [Tab.find?, ih]

@[simp] theorem Tab.find?_erase_self (t : Tab α) (k : Nat) : Tab.find? (Tab.erase t k) k = none := by
  induction t with
  | nil => rfl
  | cons e t ih =>
    obtain ⟨k', v'⟩ := e
    simp only [Tab.erase]
    split
    · exact ih
    · rename_i h
      simp [Tab.find?, h, ih]

theorem Tab.find?_erase_ne (t : Tab α) {k j : Nat} (h : j ≠ k) : Tab.find? (Tab.erase t k) j = Tab.find? t j := by
  induction t with
  | nil => rfl
  | cons e t ih =>
    obtain ⟨k', v'⟩ := e
    simp only [Tab.erase]
    split
    · rename_i h'
      subst h'
      simp [Tab.find?, Ne.symm h, ih]
    · simp [Tab.find?, ih]

variable [DecidableEq α]

@[simp] theorem Tab.get_set_self (d : α) (t : Tab α) (k : Nat) (v : α) : Tab.get d (Tab.set d t k v) k = v := by
  unfold Tab.get Tab.set
  split
  · rename_i h; simp [h]
  · simp

theorem Tab.get_set_ne (d : α) (t : Tab α) {k j : Nat} (v : α) (h : j ≠ k) : Tab.get d (Tab.set d t k v) j = Tab.get d t j := by
  unfold Tab.get Tab.set
  split
  · rw [Tab.find?_erase_ne t h]
  · rw [Tab.find?_insert_ne t v h]

theorem Tab.get_set (d : α) (t : Tab α) (k j : Nat) (v : α) : Tab.get d (Tab.set d t k v) j = if j = k then v else Tab.get d t j := by
  split
  · rename_i h; subst h; simp
  · rename_i h; exact Tab.get_set_ne d t v h

/-! ## The canonical form -/

omit [DecidableEq α] in
@[simp] theorem Tab.wf_nil (d : α) : Tab.Wf d [] := by simp [Tab.Wf]

omit [DecidableEq α] in
theorem Tab.mem_insert {t : Tab α} {k : Nat} {v : α} {e : Nat × α} (h : e ∈ Tab.insert t k v) : e = (k, v) ∨ e ∈ t := by
  induction t with
  | nil => simpa [Tab.insert] using h
  | cons x t ih =>
    obtain ⟨k', v'⟩ := x
    simp only [Tab.insert] at h
    split at h
    · simpa using h
    · split at h
      · rcases List.mem_cons.mp h with h | h
        · exact .inl h
        · exact .inr (List.mem_cons_of_mem _ h)
      · rcases List.mem_cons.mp h with h | h
        · exact .inr (by simp [h])
        · rcases ih h with h | h
          · exact .inl h
          · exact .inr (List.mem_cons_of_mem _ h)

omit [DecidableEq α] in
theorem Tab.mem_erase {t : Tab α} {k : Nat} {e : Nat × α} (h : e ∈ Tab.erase t k) : e ∈ t ∧ e.1 ≠ k := by
  induction t with
  | nil => simp [Tab.erase] at h
  | cons x t ih =>
    obtain ⟨k', v'⟩ := x
    simp only [Tab.erase] at h
    split at h
    · exact ⟨List.mem_cons_of_mem _ (ih h).1, (ih h).2⟩
    · rename_i hk
      rcases List.mem_cons.mp h with h | h
      · subst h; exact ⟨by simp, hk⟩
      · exact ⟨List.mem_cons_of_mem _ (ih h).1, (ih h).2⟩

omit [DecidableEq α] in
/-- A value other than the default may be listed. -/
theorem Tab.wf_insert {d : α} {t : Tab α} (h : Tab.Wf d t) (k : Nat) {v : α} (hv : v ≠ d) : Tab.Wf d (Tab.insert t k v) := by
  refine ⟨?_, fun e he => ?_⟩
  · have hp := h.1
    clear h
    induction t with
    | nil => simp [Tab.insert]
    | cons x t ih =>
      obtain ⟨k', v'⟩ := x
      have hx := (List.pairwise_cons.mp hp).1
      have ht := (List.pairwise_cons.mp hp).2
      simp only [Tab.insert]
      split
      · rename_i hlt
        refine List.pairwise_cons.mpr ⟨fun e he => ?_, hp⟩
        rcases List.mem_cons.mp he with he | he
        · subst he; exact hlt
        · have := hx e he; simp at this ⊢; omega
      · split
        · rename_i h1 h2
          subst h2
          exact List.pairwise_cons.mpr ⟨hx, ht⟩
        · rename_i h1 h2
          refine List.pairwise_cons.mpr ⟨fun e he => ?_, ih ht⟩
          rcases Tab.mem_insert he with he | he
          · subst he; simp; omega
          · exact hx e he
  · rcases Tab.mem_insert he with he | he
    · subst he; exact hv
    · exact h.2 e he

omit [DecidableEq α] in
theorem Tab.wf_erase {d : α} {t : Tab α} (h : Tab.Wf d t) (k : Nat) : Tab.Wf d (Tab.erase t k) := by
  refine ⟨?_, fun e he => h.2 e (Tab.mem_erase he).1⟩
  have hp := h.1
  clear h
  induction t with
  | nil => simp [Tab.erase]
  | cons x t ih =>
    obtain ⟨k', v'⟩ := x
    have hx := (List.pairwise_cons.mp hp).1
    have ht := (List.pairwise_cons.mp hp).2
    simp only [Tab.erase]
    split
    · exact ih ht
    · exact List.pairwise_cons.mpr ⟨fun e he => hx e (Tab.mem_erase he).1, ih ht⟩

/-- Writing keeps the canonical form. -/
theorem Tab.wf_set {d : α} {t : Tab α} (h : Tab.Wf d t) (k : Nat) (v : α) : Tab.Wf d (Tab.set d t k v) := by
  unfold Tab.set
  split
  · exact Tab.wf_erase h k
  · rename_i hv; exact Tab.wf_insert h k hv

end Sys2Proof.Machine
end

