-- ==== Sys2Proof/Laws/State.lean ====
section
/-! SUPPORT. What each named update of the device leaves alone, field by field, and what it writes. -/

namespace Sys2Proof.Machine

variable (d : Dev)

@[simp] theorem Dev.putReg_frame (off v : Nat) :
    (d.putReg off v).mem = d.mem ∧ (d.putReg off v).tb = d.tb ∧ (d.putReg off v).cue = d.cue ∧
    (d.putReg off v).thr = d.thr ∧ (d.putReg off v).eng = d.eng ∧ (d.putReg off v).txn = d.txn ∧
    (d.putReg off v).coh = d.coh ∧ (d.putReg off v).sw = d.sw ∧ (d.putReg off v).rdc = d.rdc ∧
    (d.putReg off v).gth = d.gth ∧ (d.putReg off v).mica = d.mica ∧ (d.putReg off v).ver = d.ver ∧
    (d.putReg off v).ses = d.ses ∧ (d.putReg off v).pair = d.pair ∧ (d.putReg off v).flt = d.flt ∧
    (d.putReg off v).sec = d.sec ∧ (d.putReg off v).links = d.links ∧ (d.putReg off v).cxl = d.cxl ∧
    (d.putReg off v).pwr = d.pwr ∧ (d.putReg off v).glFloor = d.glFloor ∧ (d.putReg off v).out = d.out ∧
    (d.putReg off v).freeIx = d.freeIx :=
  ⟨rfl, rfl, rfl, rfl, rfl, rfl, rfl, rfl, rfl, rfl, rfl, rfl, rfl, rfl, rfl, rfl, rfl, rfl, rfl, rfl, rfl, rfl⟩

@[simp] theorem Dev.setRegBit_frame (off i : Nat) :
    (d.setRegBit off i).mem = d.mem ∧ (d.setRegBit off i).tb = d.tb ∧ (d.setRegBit off i).cue = d.cue ∧
    (d.setRegBit off i).thr = d.thr ∧ (d.setRegBit off i).eng = d.eng ∧ (d.setRegBit off i).txn = d.txn ∧
    (d.setRegBit off i).coh = d.coh ∧ (d.setRegBit off i).sw = d.sw ∧ (d.setRegBit off i).rdc = d.rdc ∧
    (d.setRegBit off i).gth = d.gth ∧ (d.setRegBit off i).mica = d.mica ∧ (d.setRegBit off i).ver = d.ver ∧
    (d.setRegBit off i).ses = d.ses ∧ (d.setRegBit off i).pair = d.pair ∧ (d.setRegBit off i).flt = d.flt ∧
    (d.setRegBit off i).sec = d.sec ∧ (d.setRegBit off i).links = d.links ∧ (d.setRegBit off i).cxl = d.cxl ∧
    (d.setRegBit off i).pwr = d.pwr ∧ (d.setRegBit off i).glFloor = d.glFloor ∧ (d.setRegBit off i).out = d.out ∧
    (d.setRegBit off i).freeIx = d.freeIx :=
  ⟨rfl, rfl, rfl, rfl, rfl, rfl, rfl, rfl, rfl, rfl, rfl, rfl, rfl, rfl, rfl, rfl, rfl, rfl, rfl, rfl, rfl, rfl⟩

@[simp] theorem Dev.clrRegBit_frame (off i : Nat) :
    (d.clrRegBit off i).mem = d.mem ∧ (d.clrRegBit off i).tb = d.tb ∧ (d.clrRegBit off i).cue = d.cue ∧
    (d.clrRegBit off i).thr = d.thr ∧ (d.clrRegBit off i).eng = d.eng ∧ (d.clrRegBit off i).txn = d.txn ∧
    (d.clrRegBit off i).coh = d.coh ∧ (d.clrRegBit off i).sw = d.sw ∧ (d.clrRegBit off i).rdc = d.rdc ∧
    (d.clrRegBit off i).gth = d.gth ∧ (d.clrRegBit off i).mica = d.mica ∧ (d.clrRegBit off i).ver = d.ver ∧
    (d.clrRegBit off i).ses = d.ses ∧ (d.clrRegBit off i).pair = d.pair ∧ (d.clrRegBit off i).flt = d.flt ∧
    (d.clrRegBit off i).sec = d.sec ∧ (d.clrRegBit off i).links = d.links ∧ (d.clrRegBit off i).cxl = d.cxl ∧
    (d.clrRegBit off i).pwr = d.pwr ∧ (d.clrRegBit off i).glFloor = d.glFloor ∧ (d.clrRegBit off i).out = d.out ∧
    (d.clrRegBit off i).freeIx = d.freeIx :=
  ⟨rfl, rfl, rfl, rfl, rfl, rfl, rfl, rfl, rfl, rfl, rfl, rfl, rfl, rfl, rfl, rfl, rfl, rfl, rfl, rfl, rfl, rfl⟩

@[simp] theorem Dev.emit_frame (o : Out) :
    (d.emit o).csr = d.csr ∧ (d.emit o).mem = d.mem ∧ (d.emit o).tb = d.tb ∧ (d.emit o).cue = d.cue ∧
    (d.emit o).thr = d.thr ∧ (d.emit o).eng = d.eng ∧ (d.emit o).txn = d.txn ∧ (d.emit o).coh = d.coh ∧
    (d.emit o).sw = d.sw ∧ (d.emit o).rdc = d.rdc ∧ (d.emit o).gth = d.gth ∧ (d.emit o).mica = d.mica ∧
    (d.emit o).ver = d.ver ∧ (d.emit o).ses = d.ses ∧ (d.emit o).pair = d.pair ∧ (d.emit o).flt = d.flt ∧
    (d.emit o).sec = d.sec ∧ (d.emit o).links = d.links ∧ (d.emit o).cxl = d.cxl ∧ (d.emit o).pwr = d.pwr ∧
    (d.emit o).glFloor = d.glFloor ∧ (d.emit o).freeIx = d.freeIx :=
  ⟨rfl, rfl, rfl, rfl, rfl, rfl, rfl, rfl, rfl, rfl, rfl, rfl, rfl, rfl, rfl, rfl, rfl, rfl, rfl, rfl, rfl, rfl⟩

@[simp] theorem Dev.emits_frame (os : List Out) :
    (d.emits os).csr = d.csr ∧ (d.emits os).mem = d.mem ∧ (d.emits os).tb = d.tb ∧ (d.emits os).cue = d.cue ∧
    (d.emits os).thr = d.thr ∧ (d.emits os).eng = d.eng ∧ (d.emits os).txn = d.txn ∧ (d.emits os).coh = d.coh ∧
    (d.emits os).sw = d.sw ∧ (d.emits os).rdc = d.rdc ∧ (d.emits os).gth = d.gth ∧ (d.emits os).mica = d.mica ∧
    (d.emits os).ver = d.ver ∧ (d.emits os).ses = d.ses ∧ (d.emits os).pair = d.pair ∧ (d.emits os).flt = d.flt ∧
    (d.emits os).sec = d.sec ∧ (d.emits os).links = d.links ∧ (d.emits os).cxl = d.cxl ∧ (d.emits os).pwr = d.pwr ∧
    (d.emits os).glFloor = d.glFloor ∧ (d.emits os).freeIx = d.freeIx :=
  ⟨rfl, rfl, rfl, rfl, rfl, rfl, rfl, rfl, rfl, rfl, rfl, rfl, rfl, rfl, rfl, rfl, rfl, rfl, rfl, rfl, rfl, rfl⟩

@[simp] theorem Dev.setCtx_frame (c : CtxId) (x : Ctx) :
    (d.setCtx c x).csr = d.csr ∧ (d.setCtx c x).mem = d.mem ∧ (d.setCtx c x).tb = d.tb ∧ (d.setCtx c x).cue = d.cue ∧
    (d.setCtx c x).eng = d.eng ∧ (d.setCtx c x).txn = d.txn ∧ (d.setCtx c x).coh = d.coh ∧ (d.setCtx c x).sw = d.sw ∧
    (d.setCtx c x).rdc = d.rdc ∧ (d.setCtx c x).gth = d.gth ∧ (d.setCtx c x).mica = d.mica ∧ (d.setCtx c x).ver = d.ver ∧
    (d.setCtx c x).ses = d.ses ∧ (d.setCtx c x).pair = d.pair ∧ (d.setCtx c x).flt = d.flt ∧ (d.setCtx c x).sec = d.sec ∧
    (d.setCtx c x).links = d.links ∧ (d.setCtx c x).cxl = d.cxl ∧ (d.setCtx c x).pwr = d.pwr ∧
    (d.setCtx c x).glFloor = d.glFloor ∧ (d.setCtx c x).out = d.out ∧ (d.setCtx c x).freeIx = d.freeIx :=
  ⟨rfl, rfl, rfl, rfl, rfl, rfl, rfl, rfl, rfl, rfl, rfl, rfl, rfl, rfl, rfl, rfl, rfl, rfl, rfl, rfl, rfl, rfl⟩

@[simp] theorem Dev.setDispatchQ_frame (tile p : Nat) (l : List QReq) :
    (d.setDispatchQ tile p l).csr = d.csr ∧ (d.setDispatchQ tile p l).mem = d.mem ∧ (d.setDispatchQ tile p l).tb = d.tb ∧
    (d.setDispatchQ tile p l).cue = d.cue ∧ (d.setDispatchQ tile p l).eng = d.eng ∧
    (d.setDispatchQ tile p l).txn = d.txn ∧ (d.setDispatchQ tile p l).coh = d.coh ∧ (d.setDispatchQ tile p l).sw = d.sw ∧
    (d.setDispatchQ tile p l).rdc = d.rdc ∧ (d.setDispatchQ tile p l).gth = d.gth ∧
    (d.setDispatchQ tile p l).mica = d.mica ∧ (d.setDispatchQ tile p l).ver = d.ver ∧
    (d.setDispatchQ tile p l).ses = d.ses ∧ (d.setDispatchQ tile p l).pair = d.pair ∧
    (d.setDispatchQ tile p l).flt = d.flt ∧ (d.setDispatchQ tile p l).sec = d.sec ∧
    (d.setDispatchQ tile p l).links = d.links ∧ (d.setDispatchQ tile p l).cxl = d.cxl ∧
    (d.setDispatchQ tile p l).pwr = d.pwr ∧ (d.setDispatchQ tile p l).glFloor = d.glFloor ∧
    (d.setDispatchQ tile p l).out = d.out ∧ (d.setDispatchQ tile p l).freeIx = d.freeIx :=
  ⟨rfl, rfl, rfl, rfl, rfl, rfl, rfl, rfl, rfl, rfl, rfl, rfl, rfl, rfl, rfl, rfl, rfl, rfl, rfl, rfl, rfl, rfl⟩

@[simp] theorem Dev.mark_frame (g : Nat) :
    (d.mark g).csr = d.csr ∧ (d.mark g).tb = d.tb ∧ (d.mark g).cue = d.cue ∧ (d.mark g).thr = d.thr ∧
    (d.mark g).eng = d.eng ∧ (d.mark g).txn = d.txn ∧ (d.mark g).coh = d.coh ∧ (d.mark g).sw = d.sw ∧
    (d.mark g).rdc = d.rdc ∧ (d.mark g).gth = d.gth ∧ (d.mark g).mica = d.mica ∧ (d.mark g).ver = d.ver ∧
    (d.mark g).ses = d.ses ∧ (d.mark g).pair = d.pair ∧ (d.mark g).flt = d.flt ∧ (d.mark g).sec = d.sec ∧
    (d.mark g).links = d.links ∧ (d.mark g).cxl = d.cxl ∧ (d.mark g).pwr = d.pwr ∧ (d.mark g).glFloor = d.glFloor ∧
    (d.mark g).out = d.out ∧ (d.mark g).freeIx = d.freeIx :=
  ⟨rfl, rfl, rfl, rfl, rfl, rfl, rfl, rfl, rfl, rfl, rfl, rfl, rfl, rfl, rfl, rfl, rfl, rfl, rfl, rfl, rfl, rfl⟩

@[simp] theorem Dev.fresh_frame (g : Nat) :
    (d.fresh g).csr = d.csr ∧ (d.fresh g).tb = d.tb ∧ (d.fresh g).cue = d.cue ∧ (d.fresh g).thr = d.thr ∧
    (d.fresh g).eng = d.eng ∧ (d.fresh g).txn = d.txn ∧ (d.fresh g).coh = d.coh ∧ (d.fresh g).sw = d.sw ∧
    (d.fresh g).rdc = d.rdc ∧ (d.fresh g).gth = d.gth ∧ (d.fresh g).mica = d.mica ∧ (d.fresh g).ver = d.ver ∧
    (d.fresh g).ses = d.ses ∧ (d.fresh g).pair = d.pair ∧ (d.fresh g).flt = d.flt ∧ (d.fresh g).sec = d.sec ∧
    (d.fresh g).links = d.links ∧ (d.fresh g).cxl = d.cxl ∧ (d.fresh g).pwr = d.pwr ∧ (d.fresh g).glFloor = d.glFloor ∧
    (d.fresh g).out = d.out ∧ (d.fresh g).freeIx = d.freeIx :=
  ⟨rfl, rfl, rfl, rfl, rfl, rfl, rfl, rfl, rfl, rfl, rfl, rfl, rfl, rfl, rfl, rfl, rfl, rfl, rfl, rfl, rfl, rfl⟩

@[simp] theorem Dev.setLink_frame (k : Nat) (l : Link) :
    (d.setLink k l).csr = d.csr ∧ (d.setLink k l).mem = d.mem ∧ (d.setLink k l).tb = d.tb ∧ (d.setLink k l).cue = d.cue ∧
    (d.setLink k l).thr = d.thr ∧ (d.setLink k l).eng = d.eng ∧ (d.setLink k l).txn = d.txn ∧
    (d.setLink k l).coh = d.coh ∧ (d.setLink k l).sw = d.sw ∧ (d.setLink k l).rdc = d.rdc ∧ (d.setLink k l).gth = d.gth ∧
    (d.setLink k l).mica = d.mica ∧ (d.setLink k l).ver = d.ver ∧ (d.setLink k l).ses = d.ses ∧
    (d.setLink k l).pair = d.pair ∧ (d.setLink k l).flt = d.flt ∧ (d.setLink k l).sec = d.sec ∧
    (d.setLink k l).cxl = d.cxl ∧ (d.setLink k l).pwr = d.pwr ∧ (d.setLink k l).glFloor = d.glFloor ∧
    (d.setLink k l).out = d.out ∧ (d.setLink k l).freeIx = d.freeIx :=
  ⟨rfl, rfl, rfl, rfl, rfl, rfl, rfl, rfl, rfl, rfl, rfl, rfl, rfl, rfl, rfl, rfl, rfl, rfl, rfl, rfl, rfl, rfl⟩

@[simp] theorem Dev.setReq_frame (key : Nat) (r : ReqTag) :
    (d.setReq key r).csr = d.csr ∧ (d.setReq key r).mem = d.mem ∧ (d.setReq key r).tb = d.tb ∧
    (d.setReq key r).cue = d.cue ∧ (d.setReq key r).thr = d.thr ∧ (d.setReq key r).eng = d.eng ∧
    (d.setReq key r).coh = d.coh ∧ (d.setReq key r).sw = d.sw ∧ (d.setReq key r).rdc = d.rdc ∧
    (d.setReq key r).gth = d.gth ∧ (d.setReq key r).mica = d.mica ∧ (d.setReq key r).ver = d.ver ∧
    (d.setReq key r).ses = d.ses ∧ (d.setReq key r).pair = d.pair ∧ (d.setReq key r).flt = d.flt ∧
    (d.setReq key r).sec = d.sec ∧ (d.setReq key r).links = d.links ∧ (d.setReq key r).cxl = d.cxl ∧
    (d.setReq key r).pwr = d.pwr ∧ (d.setReq key r).glFloor = d.glFloor ∧ (d.setReq key r).out = d.out ∧
    (d.setReq key r).freeIx = d.freeIx :=
  ⟨rfl, rfl, rfl, rfl, rfl, rfl, rfl, rfl, rfl, rfl, rfl, rfl, rfl, rfl, rfl, rfl, rfl, rfl, rfl, rfl, rfl, rfl⟩

@[simp] theorem Dev.freeReq_frame (key : Nat) :
    (d.freeReq key).csr = d.csr ∧ (d.freeReq key).mem = d.mem ∧ (d.freeReq key).tb = d.tb ∧ (d.freeReq key).cue = d.cue ∧
    (d.freeReq key).thr = d.thr ∧ (d.freeReq key).eng = d.eng ∧ (d.freeReq key).coh = d.coh ∧ (d.freeReq key).sw = d.sw ∧
    (d.freeReq key).rdc = d.rdc ∧ (d.freeReq key).gth = d.gth ∧ (d.freeReq key).mica = d.mica ∧
    (d.freeReq key).ver = d.ver ∧ (d.freeReq key).ses = d.ses ∧ (d.freeReq key).pair = d.pair ∧
    (d.freeReq key).flt = d.flt ∧ (d.freeReq key).sec = d.sec ∧ (d.freeReq key).links = d.links ∧
    (d.freeReq key).cxl = d.cxl ∧ (d.freeReq key).pwr = d.pwr ∧ (d.freeReq key).glFloor = d.glFloor ∧
    (d.freeReq key).out = d.out ∧ (d.freeReq key).freeIx = d.freeIx :=
  ⟨rfl, rfl, rfl, rfl, rfl, rfl, rfl, rfl, rfl, rfl, rfl, rfl, rfl, rfl, rfl, rfl, rfl, rfl, rfl, rfl, rfl, rfl⟩

@[simp] theorem Dev.setFilter_frame (f : Tab FEntry) :
    (d.setFilter f).csr = d.csr ∧ (d.setFilter f).mem = d.mem ∧ (d.setFilter f).tb = d.tb ∧ (d.setFilter f).cue = d.cue ∧
    (d.setFilter f).thr = d.thr ∧ (d.setFilter f).eng = d.eng ∧ (d.setFilter f).txn = d.txn ∧ (d.setFilter f).sw = d.sw ∧
    (d.setFilter f).rdc = d.rdc ∧ (d.setFilter f).gth = d.gth ∧ (d.setFilter f).mica = d.mica ∧
    (d.setFilter f).ver = d.ver ∧ (d.setFilter f).ses = d.ses ∧ (d.setFilter f).pair = d.pair ∧
    (d.setFilter f).flt = d.flt ∧ (d.setFilter f).sec = d.sec ∧ (d.setFilter f).links = d.links ∧
    (d.setFilter f).cxl = d.cxl ∧ (d.setFilter f).pwr = d.pwr ∧ (d.setFilter f).glFloor = d.glFloor ∧
    (d.setFilter f).out = d.out ∧ (d.setFilter f).freeIx = d.freeIx :=
  ⟨rfl, rfl, rfl, rfl, rfl, rfl, rfl, rfl, rfl, rfl, rfl, rfl, rfl, rfl, rfl, rfl, rfl, rfl, rfl, rfl, rfl, rfl⟩

@[simp] theorem Dev.setLine_frame (line : Nat) (h : HLine) :
    (d.setLine line h).csr = d.csr ∧ (d.setLine line h).mem = d.mem ∧ (d.setLine line h).tb = d.tb ∧
    (d.setLine line h).cue = d.cue ∧ (d.setLine line h).thr = d.thr ∧ (d.setLine line h).eng = d.eng ∧
    (d.setLine line h).txn = d.txn ∧ (d.setLine line h).sw = d.sw ∧ (d.setLine line h).rdc = d.rdc ∧
    (d.setLine line h).gth = d.gth ∧ (d.setLine line h).mica = d.mica ∧ (d.setLine line h).ver = d.ver ∧
    (d.setLine line h).ses = d.ses ∧ (d.setLine line h).pair = d.pair ∧ (d.setLine line h).flt = d.flt ∧
    (d.setLine line h).sec = d.sec ∧ (d.setLine line h).links = d.links ∧ (d.setLine line h).cxl = d.cxl ∧
    (d.setLine line h).pwr = d.pwr ∧ (d.setLine line h).glFloor = d.glFloor ∧ (d.setLine line h).out = d.out ∧
    (d.setLine line h).freeIx = d.freeIx :=
  ⟨rfl, rfl, rfl, rfl, rfl, rfl, rfl, rfl, rfl, rfl, rfl, rfl, rfl, rfl, rfl, rfl, rfl, rfl, rfl, rfl, rfl, rfl⟩

@[simp] theorem Dev.setAccess_frame (a : Access) :
    (d.setAccess a).csr = d.csr ∧ (d.setAccess a).mem = d.mem ∧ (d.setAccess a).tb = d.tb ∧ (d.setAccess a).cue = d.cue ∧
    (d.setAccess a).thr = d.thr ∧ (d.setAccess a).eng = d.eng ∧ (d.setAccess a).txn = d.txn ∧ (d.setAccess a).sw = d.sw ∧
    (d.setAccess a).rdc = d.rdc ∧ (d.setAccess a).gth = d.gth ∧ (d.setAccess a).mica = d.mica ∧
    (d.setAccess a).ver = d.ver ∧ (d.setAccess a).ses = d.ses ∧ (d.setAccess a).pair = d.pair ∧
    (d.setAccess a).flt = d.flt ∧ (d.setAccess a).sec = d.sec ∧ (d.setAccess a).links = d.links ∧
    (d.setAccess a).cxl = d.cxl ∧ (d.setAccess a).pwr = d.pwr ∧ (d.setAccess a).glFloor = d.glFloor ∧
    (d.setAccess a).out = d.out ∧ (d.setAccess a).freeIx = d.freeIx :=
  ⟨rfl, rfl, rfl, rfl, rfl, rfl, rfl, rfl, rfl, rfl, rfl, rfl, rfl, rfl, rfl, rfl, rfl, rfl, rfl, rfl, rfl, rfl⟩

@[simp] theorem Dev.setCaState_frame (n : Nat) (s : CaState) :
    (d.setCaState n s).csr = d.csr ∧ (d.setCaState n s).mem = d.mem ∧ (d.setCaState n s).tb = d.tb ∧
    (d.setCaState n s).cue = d.cue ∧ (d.setCaState n s).thr = d.thr ∧ (d.setCaState n s).eng = d.eng ∧
    (d.setCaState n s).txn = d.txn ∧ (d.setCaState n s).sw = d.sw ∧ (d.setCaState n s).rdc = d.rdc ∧
    (d.setCaState n s).gth = d.gth ∧ (d.setCaState n s).mica = d.mica ∧ (d.setCaState n s).ver = d.ver ∧
    (d.setCaState n s).ses = d.ses ∧ (d.setCaState n s).pair = d.pair ∧ (d.setCaState n s).flt = d.flt ∧
    (d.setCaState n s).sec = d.sec ∧ (d.setCaState n s).links = d.links ∧ (d.setCaState n s).cxl = d.cxl ∧
    (d.setCaState n s).pwr = d.pwr ∧ (d.setCaState n s).glFloor = d.glFloor ∧ (d.setCaState n s).out = d.out ∧
    (d.setCaState n s).freeIx = d.freeIx :=
  ⟨rfl, rfl, rfl, rfl, rfl, rfl, rfl, rfl, rfl, rfl, rfl, rfl, rfl, rfl, rfl, rfl, rfl, rfl, rfl, rfl, rfl, rfl⟩

@[simp] theorem Dev.setFlow_frame (i : Nat) (f : Reseq) :
    (d.setFlow i f).csr = d.csr ∧ (d.setFlow i f).mem = d.mem ∧ (d.setFlow i f).tb = d.tb ∧ (d.setFlow i f).cue = d.cue ∧
    (d.setFlow i f).thr = d.thr ∧ (d.setFlow i f).eng = d.eng ∧ (d.setFlow i f).txn = d.txn ∧
    (d.setFlow i f).coh = d.coh ∧ (d.setFlow i f).rdc = d.rdc ∧ (d.setFlow i f).gth = d.gth ∧
    (d.setFlow i f).mica = d.mica ∧ (d.setFlow i f).ver = d.ver ∧ (d.setFlow i f).ses = d.ses ∧
    (d.setFlow i f).pair = d.pair ∧ (d.setFlow i f).flt = d.flt ∧ (d.setFlow i f).sec = d.sec ∧
    (d.setFlow i f).links = d.links ∧ (d.setFlow i f).cxl = d.cxl ∧ (d.setFlow i f).pwr = d.pwr ∧
    (d.setFlow i f).glFloor = d.glFloor ∧ (d.setFlow i f).out = d.out ∧ (d.setFlow i f).freeIx = d.freeIx :=
  ⟨rfl, rfl, rfl, rfl, rfl, rfl, rfl, rfl, rfl, rfl, rfl, rfl, rfl, rfl, rfl, rfl, rfl, rfl, rfl, rfl, rfl, rfl⟩

@[simp] theorem Dev.setSwQ_frame (q : Nat) (l : List QPkt) :
    (d.setSwQ q l).csr = d.csr ∧ (d.setSwQ q l).mem = d.mem ∧ (d.setSwQ q l).tb = d.tb ∧ (d.setSwQ q l).cue = d.cue ∧
    (d.setSwQ q l).thr = d.thr ∧ (d.setSwQ q l).eng = d.eng ∧ (d.setSwQ q l).txn = d.txn ∧ (d.setSwQ q l).coh = d.coh ∧
    (d.setSwQ q l).rdc = d.rdc ∧ (d.setSwQ q l).gth = d.gth ∧ (d.setSwQ q l).mica = d.mica ∧ (d.setSwQ q l).ver = d.ver ∧
    (d.setSwQ q l).ses = d.ses ∧ (d.setSwQ q l).pair = d.pair ∧ (d.setSwQ q l).flt = d.flt ∧ (d.setSwQ q l).sec = d.sec ∧
    (d.setSwQ q l).links = d.links ∧ (d.setSwQ q l).cxl = d.cxl ∧ (d.setSwQ q l).pwr = d.pwr ∧
    (d.setSwQ q l).glFloor = d.glFloor ∧ (d.setSwQ q l).out = d.out ∧ (d.setSwQ q l).freeIx = d.freeIx :=
  ⟨rfl, rfl, rfl, rfl, rfl, rfl, rfl, rfl, rfl, rfl, rfl, rfl, rfl, rfl, rfl, rfl, rfl, rfl, rfl, rfl, rfl, rfl⟩

@[simp] theorem Dev.setTray_frame (t : Nat) (r : Tray) :
    (d.setTray t r).csr = d.csr ∧ (d.setTray t r).mem = d.mem ∧ (d.setTray t r).tb = d.tb ∧ (d.setTray t r).cue = d.cue ∧
    (d.setTray t r).thr = d.thr ∧ (d.setTray t r).eng = d.eng ∧ (d.setTray t r).txn = d.txn ∧
    (d.setTray t r).coh = d.coh ∧ (d.setTray t r).sw = d.sw ∧ (d.setTray t r).rdc = d.rdc ∧ (d.setTray t r).gth = d.gth ∧
    (d.setTray t r).mica = d.mica ∧ (d.setTray t r).ses = d.ses ∧ (d.setTray t r).pair = d.pair ∧
    (d.setTray t r).flt = d.flt ∧ (d.setTray t r).sec = d.sec ∧ (d.setTray t r).links = d.links ∧
    (d.setTray t r).cxl = d.cxl ∧ (d.setTray t r).pwr = d.pwr ∧ (d.setTray t r).glFloor = d.glFloor ∧
    (d.setTray t r).out = d.out ∧ (d.setTray t r).freeIx = d.freeIx :=
  ⟨rfl, rfl, rfl, rfl, rfl, rfl, rfl, rfl, rfl, rfl, rfl, rfl, rfl, rfl, rfl, rfl, rfl, rfl, rfl, rfl, rfl, rfl⟩

@[simp] theorem Dev.setEarly_frame (tile : Nat) (l : List Early) :
    (d.setEarly tile l).csr = d.csr ∧ (d.setEarly tile l).mem = d.mem ∧ (d.setEarly tile l).tb = d.tb ∧
    (d.setEarly tile l).cue = d.cue ∧ (d.setEarly tile l).thr = d.thr ∧ (d.setEarly tile l).eng = d.eng ∧
    (d.setEarly tile l).txn = d.txn ∧ (d.setEarly tile l).coh = d.coh ∧ (d.setEarly tile l).sw = d.sw ∧
    (d.setEarly tile l).gth = d.gth ∧ (d.setEarly tile l).mica = d.mica ∧ (d.setEarly tile l).ver = d.ver ∧
    (d.setEarly tile l).ses = d.ses ∧ (d.setEarly tile l).pair = d.pair ∧ (d.setEarly tile l).flt = d.flt ∧
    (d.setEarly tile l).sec = d.sec ∧ (d.setEarly tile l).links = d.links ∧ (d.setEarly tile l).cxl = d.cxl ∧
    (d.setEarly tile l).pwr = d.pwr ∧ (d.setEarly tile l).glFloor = d.glFloor ∧ (d.setEarly tile l).out = d.out ∧
    (d.setEarly tile l).freeIx = d.freeIx :=
  ⟨rfl, rfl, rfl, rfl, rfl, rfl, rfl, rfl, rfl, rfl, rfl, rfl, rfl, rfl, rfl, rfl, rfl, rfl, rfl, rfl, rfl, rfl⟩

@[simp] theorem Dev.setGslot_frame (i : Nat) (g : GSlot) :
    (d.setGslot i g).csr = d.csr ∧ (d.setGslot i g).mem = d.mem ∧ (d.setGslot i g).tb = d.tb ∧
    (d.setGslot i g).cue = d.cue ∧ (d.setGslot i g).thr = d.thr ∧ (d.setGslot i g).eng = d.eng ∧
    (d.setGslot i g).txn = d.txn ∧ (d.setGslot i g).coh = d.coh ∧ (d.setGslot i g).sw = d.sw ∧
    (d.setGslot i g).rdc = d.rdc ∧ (d.setGslot i g).mica = d.mica ∧ (d.setGslot i g).ver = d.ver ∧
    (d.setGslot i g).ses = d.ses ∧ (d.setGslot i g).pair = d.pair ∧ (d.setGslot i g).flt = d.flt ∧
    (d.setGslot i g).sec = d.sec ∧ (d.setGslot i g).links = d.links ∧ (d.setGslot i g).cxl = d.cxl ∧
    (d.setGslot i g).pwr = d.pwr ∧ (d.setGslot i g).glFloor = d.glFloor ∧ (d.setGslot i g).out = d.out ∧
    (d.setGslot i g).freeIx = d.freeIx :=
  ⟨rfl, rfl, rfl, rfl, rfl, rfl, rfl, rfl, rfl, rfl, rfl, rfl, rfl, rfl, rfl, rfl, rfl, rfl, rfl, rfl, rfl, rfl⟩

@[simp] theorem Dev.setAuth_frame (k : Nat) (a : Auth) :
    (d.setAuth k a).csr = d.csr ∧ (d.setAuth k a).mem = d.mem ∧ (d.setAuth k a).tb = d.tb ∧ (d.setAuth k a).cue = d.cue ∧
    (d.setAuth k a).thr = d.thr ∧ (d.setAuth k a).eng = d.eng ∧ (d.setAuth k a).txn = d.txn ∧
    (d.setAuth k a).coh = d.coh ∧ (d.setAuth k a).sw = d.sw ∧ (d.setAuth k a).rdc = d.rdc ∧ (d.setAuth k a).gth = d.gth ∧
    (d.setAuth k a).mica = d.mica ∧ (d.setAuth k a).ver = d.ver ∧ (d.setAuth k a).ses = d.ses ∧
    (d.setAuth k a).pair = d.pair ∧ (d.setAuth k a).flt = d.flt ∧ (d.setAuth k a).links = d.links ∧
    (d.setAuth k a).cxl = d.cxl ∧ (d.setAuth k a).pwr = d.pwr ∧ (d.setAuth k a).glFloor = d.glFloor ∧
    (d.setAuth k a).out = d.out ∧ (d.setAuth k a).freeIx = d.freeIx :=
  ⟨rfl, rfl, rfl, rfl, rfl, rfl, rfl, rfl, rfl, rfl, rfl, rfl, rfl, rfl, rfl, rfl, rfl, rfl, rfl, rfl, rfl, rfl⟩

@[simp] theorem Dev.setSecLink_frame (k v : Nat) :
    (d.setSecLink k v).csr = d.csr ∧ (d.setSecLink k v).mem = d.mem ∧ (d.setSecLink k v).tb = d.tb ∧
    (d.setSecLink k v).cue = d.cue ∧ (d.setSecLink k v).thr = d.thr ∧ (d.setSecLink k v).eng = d.eng ∧
    (d.setSecLink k v).txn = d.txn ∧ (d.setSecLink k v).coh = d.coh ∧ (d.setSecLink k v).sw = d.sw ∧
    (d.setSecLink k v).rdc = d.rdc ∧ (d.setSecLink k v).gth = d.gth ∧ (d.setSecLink k v).mica = d.mica ∧
    (d.setSecLink k v).ver = d.ver ∧ (d.setSecLink k v).ses = d.ses ∧ (d.setSecLink k v).pair = d.pair ∧
    (d.setSecLink k v).flt = d.flt ∧ (d.setSecLink k v).links = d.links ∧ (d.setSecLink k v).cxl = d.cxl ∧
    (d.setSecLink k v).pwr = d.pwr ∧ (d.setSecLink k v).glFloor = d.glFloor ∧ (d.setSecLink k v).out = d.out ∧
    (d.setSecLink k v).freeIx = d.freeIx :=
  ⟨rfl, rfl, rfl, rfl, rfl, rfl, rfl, rfl, rfl, rfl, rfl, rfl, rfl, rfl, rfl, rfl, rfl, rfl, rfl, rfl, rfl, rfl⟩

@[simp] theorem Dev.putOp_frame (id : Nat) (o : SesOp) :
    (d.putOp id o).csr = d.csr ∧ (d.putOp id o).mem = d.mem ∧ (d.putOp id o).tb = d.tb ∧ (d.putOp id o).cue = d.cue ∧
    (d.putOp id o).thr = d.thr ∧ (d.putOp id o).eng = d.eng ∧ (d.putOp id o).txn = d.txn ∧ (d.putOp id o).coh = d.coh ∧
    (d.putOp id o).sw = d.sw ∧ (d.putOp id o).rdc = d.rdc ∧ (d.putOp id o).gth = d.gth ∧ (d.putOp id o).mica = d.mica ∧
    (d.putOp id o).ver = d.ver ∧ (d.putOp id o).pair = d.pair ∧ (d.putOp id o).flt = d.flt ∧ (d.putOp id o).sec = d.sec ∧
    (d.putOp id o).links = d.links ∧ (d.putOp id o).cxl = d.cxl ∧ (d.putOp id o).pwr = d.pwr ∧
    (d.putOp id o).glFloor = d.glFloor ∧ (d.putOp id o).out = d.out ∧ (d.putOp id o).freeIx = d.freeIx :=
  ⟨rfl, rfl, rfl, rfl, rfl, rfl, rfl, rfl, rfl, rfl, rfl, rfl, rfl, rfl, rfl, rfl, rfl, rfl, rfl, rfl, rfl, rfl⟩

@[simp] theorem Dev.putLog_frame (id : Nat) (l : SesLog) :
    (d.putLog id l).csr = d.csr ∧ (d.putLog id l).mem = d.mem ∧ (d.putLog id l).tb = d.tb ∧ (d.putLog id l).cue = d.cue ∧
    (d.putLog id l).thr = d.thr ∧ (d.putLog id l).eng = d.eng ∧ (d.putLog id l).txn = d.txn ∧
    (d.putLog id l).coh = d.coh ∧ (d.putLog id l).sw = d.sw ∧ (d.putLog id l).rdc = d.rdc ∧ (d.putLog id l).gth = d.gth ∧
    (d.putLog id l).mica = d.mica ∧ (d.putLog id l).ver = d.ver ∧ (d.putLog id l).pair = d.pair ∧
    (d.putLog id l).flt = d.flt ∧ (d.putLog id l).sec = d.sec ∧ (d.putLog id l).links = d.links ∧
    (d.putLog id l).cxl = d.cxl ∧ (d.putLog id l).pwr = d.pwr ∧ (d.putLog id l).glFloor = d.glFloor ∧
    (d.putLog id l).out = d.out ∧ (d.putLog id l).freeIx = d.freeIx :=
  ⟨rfl, rfl, rfl, rfl, rfl, rfl, rfl, rfl, rfl, rfl, rfl, rfl, rfl, rfl, rfl, rfl, rfl, rfl, rfl, rfl, rfl, rfl⟩

@[simp] theorem Dev.emit_out (o : Out) : (d.emit o).out = d.out ++ [o] := rfl

@[simp] theorem Dev.emits_out (os : List Out) : (d.emits os).out = d.out ++ os := rfl

@[simp] theorem Dev.ctx_setCtx (c : CtxId) (x : Ctx) : (d.setCtx c x).ctx c = x := by simp [Dev.ctx, Dev.setCtx]

theorem Dev.ctx_setCtx_ne {c c' : CtxId} (x : Ctx) (h : ctxKey c' ≠ ctxKey c) : (d.setCtx c x).ctx c' = d.ctx c' := by
  simp [Dev.ctx, Dev.setCtx, Tab.get_set_ne _ _ _ h]

@[simp] theorem Dev.dispatchQ_set (tile p : Nat) (l : List QReq) : (d.setDispatchQ tile p l).dispatchQ tile p = l := by
  simp [Dev.dispatchQ, Dev.setDispatchQ]

@[simp] theorem Dev.reg_putReg (off v : Nat) : (d.putReg off v).reg off = v % 2 ^ 64 := by
  simp [Dev.reg, Dev.putReg]

theorem Dev.reg_putReg_ne {off off' : Nat} (v : Nat) (h : off' ≠ off) : (d.putReg off v).reg off' = d.reg off' := by
  simp [Dev.reg, Dev.putReg, Tab.find?_insert_ne _ _ h]

@[simp] theorem Dev.link_setLink (k : Nat) (l : Link) : (d.setLink k l).link k = l := by simp [Dev.link, Dev.setLink]

@[simp] theorem State.run_live (s : State) (f : Dev → Dev) (h : s.dev.pwr.powered = true ∧ s.dev.pwr.romFatal = false) :
    s.run f = .next { s with dev := f s.dev } := by simp [State.run, h.1, h.2]

theorem State.run_off (s : State) (f : Dev → Dev) (h : ¬(s.dev.pwr.powered = true ∧ s.dev.pwr.romFatal = false)) :
    s.run f = .next s := by
  have : (s.dev.pwr.powered && !s.dev.pwr.romFatal) = false := by
    cases hp : s.dev.pwr.powered <;> cases hr : s.dev.pwr.romFatal <;> simp_all
  simp [State.run, this]

end Sys2Proof.Machine
end

