-- ==== Sys2Proof/Laws/Mem.lean ====
section
/-! SUPPORT. Counting and reporting leave alone all but registers, the fault block, the output and the reading of the clock; every
operation on memory keeps its canonical form; a byte reads as it was last written. -/

namespace Sys2Proof.Machine

/-- The device differs at most in what counters and reports write. -/
def Dev.Counts (d d' : Dev) : Prop :=
  d' = { d with csr := d'.csr, flt := d'.flt, out := d'.out, freeIx := d'.freeIx, tb := { d.tb with sub := d'.tb.sub } }

theorem Dev.counts_refl (d : Dev) : d.Counts d := rfl

theorem Dev.Counts.trans {a b c : Dev} (h : a.Counts b) (h' : b.Counts c) : a.Counts c := by
  unfold Dev.Counts at *
  rw [h'] at *
  rw [h]

theorem Dev.Counts.mem {a b : Dev} (h : a.Counts b) : b.mem = a.mem := by rw [h]
theorem Dev.Counts.pwr {a b : Dev} (h : a.Counts b) : b.pwr = a.pwr := by rw [h]
theorem Dev.Counts.thr {a b : Dev} (h : a.Counts b) : b.thr = a.thr := by rw [h]
theorem Dev.Counts.ver {a b : Dev} (h : a.Counts b) : b.ver = a.ver := by rw [h]

theorem Dev.putReg_counts (d : Dev) (off v : Nat) : d.Counts (d.putReg off v) := rfl
theorem Dev.setRegBit_counts (d : Dev) (off i : Nat) : d.Counts (d.setRegBit off i) := rfl
theorem Dev.withFlt_counts (d : Dev) (f : Flt) : d.Counts { d with flt := f } := rfl
theorem Dev.emit_counts (d : Dev) (o : Out) : d.Counts (d.emit o) := rfl

theorem Dev.event_counts (d : Dev) (reg bit : Nat) (b : Bool) : d.Counts (d.event reg bit b) := by
  unfold Dev.event
  cases b <;> rfl

theorem Dev.countWith_counts {rep : Dev → Report → Dev} (hr : ∀ (d : Dev) (r : Report), d.Counts (rep d r)) (d : Dev) (off n : Nat) :
    d.Counts (Dev.countWith rep d off n) := by
  unfold Dev.countWith
  dsimp only
  split
  · exact ((d.putReg_counts _ _).trans (Dev.setRegBit_counts _ _ _)).trans (hr _ _)
  · exact d.putReg_counts _ _

theorem Dev.stage_counts (d : Dev) (tile : Nat) (e : PbEntry) : d.Counts (d.stage tile e).1 := by
  unfold Dev.stage
  dsimp only
  split <;> rfl

theorem Dev.notify_counts (d : Dev) (r : Report) : d.Counts (d.notify r) := by
  unfold Dev.notify
  split <;> rfl

theorem Dev.forward_counts {cnt : Dev → Nat → Dev} (hc : ∀ (d : Dev) (n : Nat), d.Counts (cnt d n)) (d : Dev) (r : Report) :
    d.Counts (d.forward cnt r) := by
  unfold Dev.forward
  refine Dev.Counts.trans ?_ (Dev.notify_counts _ _)
  split
  · exact ((d.stage_counts _ _).trans (hc _ _)).trans (Dev.setRegBit_counts _ _ _)
  · exact d.stage_counts _ _

theorem Dev.hub_counts (n : Nat) (d : Dev) (r : Report) : d.Counts (Dev.hub n d r) := by
  induction n generalizing d r with
  | zero => exact d.counts_refl
  | succ n ih =>
    have hc : ∀ (d : Dev) (off : Nat), d.Counts (Dev.countWith (Dev.hub n) d off 1) := fun d off => Dev.countWith_counts ih d off 1
    unfold Dev.hub
    dsimp only
    split
    · exact (hc _ _).trans (Dev.forward_counts hc _ _)
    · split
      · split
        · exact ((hc _ _).trans (Dev.withFlt_counts _ _)).trans (Dev.forward_counts hc _ _)
        · exact ((hc _ _).trans ((hc _ _).trans (Dev.withFlt_counts _ _))).trans (Dev.setRegBit_counts _ _ _)
      · split
        · exact ((hc _ _).trans (Dev.withFlt_counts _ _)).trans (Dev.forward_counts hc _ _)
        · split
          · exact ((hc _ _).trans (Dev.withFlt_counts _ _)).trans (hc _ _)
          · exact ((hc _ _).trans (Dev.withFlt_counts _ _)).trans (hc _ _)

theorem Dev.bumpBy_counts (d : Dev) (off n : Nat) : d.Counts (d.bumpBy off n) := by
  unfold Dev.bumpBy
  split
  · exact d.counts_refl
  · exact Dev.countWith_counts (fun d r => Dev.hub_counts 8 d r) d off n

theorem Dev.bump_counts (d : Dev) (off : Nat) : d.Counts (d.bump off) := d.bumpBy_counts off 1

theorem Dev.report_counts (d : Dev) (code sev : Nat) (o : BitVec 32) (a b c st step : Nat) :
    d.Counts (d.report code sev o a b c st step) := by
  unfold Dev.report Dev.stampNow Dev.nextFree
  exact Dev.Counts.trans (b := { d with freeIx := d.freeIx + 1, tb := { d.tb with sub := _ } }) rfl (Dev.hub_counts _ _ _)

/-! ## The canonical form of memory -/

theorem wf_putBytes {t : List Host.Cell} (h : Tab.Wf (0 : Byte) t) (a : Nat) (bs : Bytes) : Tab.Wf (0 : Byte) (putBytes t a bs) := by
  induction bs generalizing t a with
  | nil => exact h
  | cons b bs ih => exact ih (Tab.wf_set h a b) _

theorem Mem.wf_reset : State.reset.dev.mem.wf :=
  ⟨Tab.wf_nil _, Tab.wf_nil _, Tab.wf_nil _, Tab.wf_nil _⟩

theorem Mem.wf_put {m : Mem} (h : m.wf) (a : Nat) (bs : Bytes) : (m.put a bs).wf :=
  ⟨wf_putBytes h.1 a bs, h.2.1, h.2.2.1, h.2.2.2⟩

theorem Dev.wf_mark {d : Dev} (h : d.mem.wf) (g : Nat) : (d.mark g).mem.wf :=
  ⟨h.1, Tab.wf_set h.2.1 g true, h.2.2.1, h.2.2.2⟩

theorem Dev.wf_fresh {d : Dev} (h : d.mem.wf) (g : Nat) : (d.fresh g).mem.wf :=
  ⟨h.1, Tab.wf_set h.2.1 g false, Tab.wf_set h.2.2.1 g Ecc.good, h.2.2.2⟩

theorem Dev.wf_touch {d : Dev} (h : d.mem.wf) (a : Nat) : (d.touch a).mem.wf := by
  unfold Dev.touch
  split
  · exact ⟨h.1, h.2.1, h.2.2.1, Tab.wf_set h.2.2.2 (frameOf a) true⟩
  · exact h

theorem Dev.wf_foundUe {d : Dev} (h : d.mem.wf) (g : Nat) : (d.foundUe g).mem.wf := by
  unfold Dev.foundUe
  dsimp only
  rw [(Dev.report_counts _ _ _ _ _ _ _ _ _).mem, (Dev.event_counts _ _ _ _).mem, (Dev.bump_counts _ _).mem]
  exact Dev.wf_mark h g

theorem Dev.wf_granRead {d : Dev} (h : d.mem.wf) (g : Nat) : (d.granRead g).1.mem.wf := by
  unfold Dev.granRead
  split
  · rw [(Dev.bump_counts _ _).mem]; exact h
  · split
    · exact h
    · dsimp only
      rw [(Dev.bump_counts _ _).mem]
      exact ⟨h.1, h.2.1, h.2.2.1, h.2.2.2⟩
    · exact Dev.wf_foundUe h g

theorem Dev.wf_granReadAll {d : Dev} (h : d.mem.wf) (gs : List Nat) : (granReadAll d gs).1.mem.wf := by
  induction gs generalizing d with
  | nil => exact h
  | cons g gs ih => exact ih (Dev.wf_granRead h g)

theorem Dev.wf_memRead {d : Dev} (h : d.mem.wf) (a n : Nat) : (d.memRead a n).1.mem.wf := Dev.wf_granReadAll h _

theorem Dev.wf_granWrite {d : Dev} (h : d.mem.wf) (a : Nat) (bs : Bytes) : (d.granWrite a bs).1.mem.wf := by
  have h : (d.dropFetchedLine (a / 64)).mem.wf := h
  unfold Dev.granWrite
  dsimp only
  generalize d.dropFetchedLine (a / 64) = e at h ⊢
  split
  · exact Mem.wf_put (Dev.wf_touch (Dev.wf_fresh h _) _) a bs
  · split
    · rw [(Dev.bump_counts _ _).mem]; exact h
    · split
      · exact Dev.wf_foundUe h _
      · refine Mem.wf_put (Dev.wf_touch (Dev.wf_fresh ?_ _) _) a bs
        rw [(Dev.bump_counts _ _).mem]; exact h
      · exact Mem.wf_put (Dev.wf_touch (Dev.wf_fresh h _) _) a bs

theorem wf_writePieces {d : Dev} (h : d.mem.wf) (ps : List (Nat × Bytes)) : (writePieces d ps).1.mem.wf := by
  induction ps generalizing d with
  | nil => exact h
  | cons p ps ih => exact ih (Dev.wf_granWrite h p.1 p.2)

theorem Dev.wf_memWrite {d : Dev} (h : d.mem.wf) (a : Nat) (bs : Bytes) : (d.memWrite a bs).1.mem.wf := wf_writePieces h _

theorem Dev.wf_store {d : Dev} (h : d.mem.wf) (a : Nat) (bs : Bytes) : (d.store a bs).mem.wf := wf_writePieces h _

/-! ## Read after write -/

theorem get_putBytes (t : List Host.Cell) (a b : Nat) (bs : Bytes) :
    Tab.get 0 (putBytes t a bs) b = if a ≤ b ∧ b < a + bs.length then bs.getD (b - a) 0 else Tab.get 0 t b := by
  induction bs generalizing t a with
  | nil => simp only [putBytes, List.length_nil]; rw [if_neg (by omega)]
  | cons x bs ih =>
    simp only [putBytes, ih, Tab.get_set, List.length_cons]
    rcases Nat.lt_trichotomy b a with h | h | h
    · rw [if_neg (by omega), if_neg (by omega), if_neg (by omega)]
    · subst h; rw [if_neg (by omega), if_pos rfl, if_pos (by omega)]; simp
    · by_cases h2 : b < a + 1 + bs.length
      · rw [if_pos (by omega), if_pos (by omega)]
        rw [show b - a = (b - (a + 1)) + 1 by omega]
        simp
      · rw [if_neg (by omega), if_neg (by omega), if_neg (by omega)]

theorem Mem.byte_put (m : Mem) (a b : Nat) (bs : Bytes) :
    (m.put a bs).byte b = if a ≤ b ∧ b < a + bs.length then bs.getD (b - a) 0 else m.byte b := get_putBytes _ _ _ _

end Sys2Proof.Machine
end

