-- ==== Sys2Proof/Laws/Ctx.lean ====
section
/-! SUPPORT. What the shared operation behind every instruction of a script does, once, and what writing a register of a context
does. -/

namespace Sys2Proof.Machine

/-! ## Slots -/

/-- The device differs at most in the account of the cue's slots. -/
def Dev.Slots (d d' : Dev) : Prop :=
  d' = { d with cue := { d.cue with ptr := d'.cue.ptr, gone := d'.cue.gone, credit := d'.cue.credit } }

theorem Dev.slots_refl (d : Dev) : d.Slots d := rfl

theorem Dev.Slots.trans {a b c : Dev} (h : a.Slots b) (h' : b.Slots c) : a.Slots c := by
  unfold Dev.Slots at *
  rw [h'] at *
  rw [h]

theorem Dev.useSlot_slots (d : Dev) (res f : Nat) (pending : Nat → Bool) : d.Slots (d.useSlot res f pending).1 := by
  unfold Dev.useSlot
  dsimp only
  repeat' split
  all_goals rfl

theorem Dev.setCredit_slots (d : Dev) (res p n : Nat) : d.Slots (d.setCredit res p n) := rfl

theorem Dev.nextSlot_slots (d : Dev) (res : Nat) (pending : Nat → Bool) : d.Slots (d.nextSlot res pending) := by
  unfold Dev.nextSlot
  dsimp only
  refine Dev.Slots.trans (b := d.passSlot res) rfl ?_
  split
  · split
    · exact (Dev.useSlot_slots _ _ _ _).trans (Dev.setCredit_slots _ _ _ _)
    · exact Dev.useSlot_slots _ _ _ _
  · exact Dev.slots_refl _

/-- What taking slots can do: only the account of the cue's slots moves. -/
theorem takeSlots_slots {res p need n : Nat} {pending : Nat → Bool} {d d' : Dev} (h : takeSlots res pending p need n d = some d') : d.Slots d' := by
  induction n generalizing d with
  | zero =>
    simp only [takeSlots] at h
    split at h <;> cases h
    exact Dev.setCredit_slots _ _ _ _
  | succ n ih =>
    simp only [takeSlots] at h
    split at h
    · cases h
      exact Dev.setCredit_slots _ _ _ _
    · exact (Dev.nextSlot_slots _ _ _).trans (ih h)

theorem Dev.slotted_slots (d : Dev) (c : CtxId) : d.Slots (d.slotted c) := by
  unfold Dev.slotted Dev.issueSlot
  split
  · exact d.slots_refl
  · cases h : takeSlots _ _ _ _ _ d with
    | none => exact d.slots_refl
    | some d' => exact takeSlots_slots h

theorem Dev.engSlotted_slots (d : Dev) (e : EngId) (p : Nat) : d.Slots (d.engSlotted e p) := by
  unfold Dev.engSlotted Dev.engSlot
  cases h : takeSlots _ _ _ _ _ d with
  | none => exact d.slots_refl
  | some d' => exact takeSlots_slots h

theorem Dev.Slots.thr {a b : Dev} (h : a.Slots b) : b.thr = a.thr := by rw [h]
theorem Dev.Slots.mem {a b : Dev} (h : a.Slots b) : b.mem = a.mem := by rw [h]
theorem Dev.Slots.ctx {a b : Dev} (h : a.Slots b) (c : CtxId) : b.ctx c = a.ctx c := by rw [h]; rfl

/-! ## Instructions -/

/-- An issued instruction takes its slot and runs its body; one of a context that does not issue it changes nothing. -/
theorem run_issue_of_issues {s : State} {c : CtxId} {w : BitVec 32} {regs : List Nat} (body : Dev → Ctx → Dev) (h : s.issues c w regs) :
    s.run (issue c w regs body) = .next { s with dev := body (s.dev.slotted c) (s.dev.ctx c) } := by
  obtain ⟨⟨h1, h2⟩, h3, h4⟩ := h
  simp [State.run, h1, h2, issue, h3, h4]

theorem run_issue_of_not_issues {s : State} {c : CtxId} {w : BitVec 32} {regs : List Nat} (body : Dev → Ctx → Dev)
    (h : s.dev.issues c w regs = false) : s.run (issue c w regs body) = .next s := by
  simp [State.run, issue, h]

/-- Setting the context that issued changes nothing else but the account of slots. -/
theorem onlyCtx_setCtx (s : State) (c : CtxId) (x : Ctx) : OnlyCtx s { s with dev := (s.dev.slotted c).setCtx c x } c := by
  have h := s.dev.slotted_slots c
  refine ⟨rfl, fun c' hc => ?_, ?_⟩
  · rw [Dev.ctx_setCtx_ne _ _ hc, h.ctx]
  · rw [h]
    simp [Dev.setCtx]

/-- An instruction that sets its context: the result is what the context becomes. -/
theorem acts_of_setCtx {i : Instr} {c : CtxId} {w : BitVec 32} {regs : List Nat} {f : Ctx → Ctx} {q : Ctx → Ctx → Prop}
    (hi : ∀ s, exec i s = s.run (issue c w regs (fun d x => d.setCtx c (f x)))) (hq : ∀ x, q x (f x)) : Acts i c w regs q := by
  intro s hs _
  refine ⟨{ s with dev := (s.dev.slotted c).setCtx c (f (s.dev.ctx c)) }, ?_, onlyCtx_setCtx _ _ _, ?_⟩
  · rw [hi, run_issue_of_issues _ hs]
  · simp only [Dev.ctx_setCtx]
    exact hq _

/-- An instruction that sets its context and retires. -/
theorem acts_of_issueCtx {i : Instr} {c : CtxId} {w : BitVec 32} {regs : List Nat} {f : Ctx → Ctx} {q : Ctx → Ctx → Prop}
    (hi : ∀ s, exec i s = s.run (issueCtx c w regs f)) (hq : ∀ x, q x (f x).retire) : Acts i c w regs q :=
  acts_of_setCtx (f := fun x => (f x).retire) hi hq

theorem Ctx.gr_setG (x : Ctx) (rd r : Nat) (v : Word) : (x.setG rd v).gr r = if r = rd ∧ r ≠ 0 then v else x.gr r := by
  unfold Ctx.setG
  split
  · rename_i h; subst h; grind
  · simp only [Ctx.gr, Tab.get_set]; grind

@[simp] theorem Ctx.gr_retire (x : Ctx) (r : Nat) : x.retire.gr r = x.gr r := rfl

theorem gWritten_setG (x : Ctx) (rd : Nat) (v : Word) : GWritten x (x.setG rd v).retire rd v := by
  refine ⟨?_, fun r => x.gr_setG rd r v, ?_⟩ <;> (unfold Ctx.setG; split <;> rfl)

theorem Ctx.pr_setP (x : Ctx) (rd r : Nat) (v : Bool) (hr : r < 8) :
    (x.setP rd v).pr r = if r = rd ∧ r ≠ 0 then v else x.pr r := by
  simp only [Ctx.pr, pGet, Ctx.setP, pSet]
  grind

theorem pWritten_setP (x : Ctx) (rd : Nat) (v : Bool) : PWritten x (x.setP rd v).retire rd v :=
  ⟨rfl, fun r hr => x.pr_setP rd r v hr, rfl⟩

theorem Ctx.dr_setD (x : Ctx) (rd r : Nat) (v : Desc) : (x.setD rd v).dr r = if r = rd then v else x.dr r := Tab.get_set _ _ _ _ _

theorem dWritten_setD (x : Ctx) (rd : Nat) (v : Desc) : DWritten x (x.setD rd v).retire rd v :=
  ⟨rfl, fun r => x.dr_setD rd r v, rfl⟩

theorem lWritten_setLocal (x : Ctx) (a : Nat) (bs : Bytes) : LWritten x (x.setLocal a bs).retire a bs.length (fun i => bs.getD i 0) :=
  ⟨rfl, fun b => get_putBytes _ a b bs, rfl⟩

/-! ## Little-endian bytes (R10) -/

@[simp] theorem length_leBytes (n v : Nat) : (leBytes n v).length = n := by
  induction n generalizing v with
  | zero => rfl
  | succ n ih => simp [leBytes, ih]

theorem leNat_leBytes (n v : Nat) : leNat (leBytes n v) = v % 256 ^ n := by
  induction n generalizing v with
  | zero => simp [leBytes, leNat, Nat.mod_one]
  | succ n ih =>
    simp only [leBytes, leNat, ih, BitVec.toNat_ofNat]
    rw [show 256 ^ (n + 1) = 256 * 256 ^ n by rw [Nat.pow_succ, Nat.mul_comm], Nat.mod_mul]

end Sys2Proof.Machine
end

