-- ==== Sys2Proof/Laws/Exec.lean ====
section
/-! SUPPORT. One lemma per command: which meaning its arm of exec calls. Proofs rewrite with them and never unfold exec. -/

namespace Sys2Proof.Machine

@[simp] theorem exec_cueBoundary {s : State} {telOk} : exec (.cueBoundary telOk) s = execCueBoundary telOk s := rfl
@[simp] theorem exec_wuOverrun {s : State} {e} : exec (.wuOverrun e) s = execWuOverrun e s := rfl
@[simp] theorem exec_msBoundary {s : State} {m} : exec (.msBoundary m) s = execMsBoundary m s := rfl
@[simp] theorem exec_wingsSlot {s : State} {r} : exec (.wingsSlot r) s = execWingsSlot r s := rfl
@[simp] theorem exec_eccWriteback {s : State} {addr} : exec (.eccWriteback addr) s = execEccWriteback addr s := rfl
@[simp] theorem exec_ppsEdge {s : State} {aclk} {sub} : exec (.ppsEdge aclk sub) s = execPpsEdge aclk sub s := rfl
@[simp] theorem exec_holdover {s : State} : exec .holdover s = execHoldover s := rfl
@[simp] theorem exec_freeRun {s : State} : exec .freeRun s = execFreeRun s := rfl
@[simp] theorem exec_applyShares {s : State} : exec .applyShares s = execApplyShares s := rfl
@[simp] theorem exec_csrWrite {s : State} {addr} {size} {v} : exec (.csrWrite addr size v) s = execCsrWrite addr size v s := rfl
@[simp] theorem exec_opreq {s : State} {link} {t} : exec (.opreq link t) s = execOpreq link t s := rfl
@[simp] theorem exec_contextFree {s : State} {c} : exec (.contextFree c) s = execContextFree c s := rfl
@[simp] theorem exec_admitTimeout {s : State} {tile} {p} : exec (.admitTimeout tile p) s = execAdmitTimeout tile p s := rfl
@[simp] theorem exec_budgetTimeout {s : State} {c} : exec (.budgetTimeout c) s = execBudgetTimeout c s := rfl
@[simp] theorem exec_rdcContrib {s : State} {link} {t} : exec (.rdcContrib link t) s = execRdcContrib link t s := rfl
@[simp] theorem exec_rdcAbort {s : State} {link} {t} : exec (.rdcAbort link t) s = execRdcAbort link t s := rfl
@[simp] theorem exec_rd {s : State} {link} {t} : exec (.rd link t) s = execRd link t s := rfl
@[simp] theorem exec_wr {s : State} {link} {t} : exec (.wr link t) s = execWr link t s := rfl
@[simp] theorem exec_wrf {s : State} {link} {t} : exec (.wrf link t) s = execWrf link t s := rfl
@[simp] theorem exec_atom {s : State} {link} {t} : exec (.atom link t) s = execAtom link t s := rfl
@[simp] theorem exec_msg {s : State} {link} {t} : exec (.msg link t) s = execMsg link t s := rfl
@[simp] theorem exec_ack {s : State} {link} {a} : exec (.ack link a) s = execAck link a s := rfl
@[simp] theorem exec_nak {s : State} {link} {a} : exec (.nak link a) s = execNak link a s := rfl
@[simp] theorem exec_evtReceived {s : State} {e} : exec (.evtReceived e) s = execEvtReceived e s := rfl
@[simp] theorem exec_receipt {s : State} {link} {tag} : exec (.receipt link tag) s = execReceipt link tag s := rfl
@[simp] theorem exec_flagWrite {s : State} {link} {stream} {rseq} : exec (.flagWrite link stream rseq) s = execFlagWrite link stream rseq s := rfl
@[simp] theorem exec_wrfTimeout {s : State} {link} {stream} {rseq} : exec (.wrfTimeout link stream rseq) s = execWrfTimeout link stream rseq s := rfl
@[simp] theorem exec_replayExpiry {s : State} {link} {tag} : exec (.replayExpiry link tag) s = execReplayExpiry link tag s := rfl
@[simp] theorem exec_meshEdgeFailed {s : State} {edge} : exec (.meshEdgeFailed edge) s = execMeshEdgeFailed edge s := rfl
@[simp] theorem exec_tAckExpiry {s : State} {tag} : exec (.tAckExpiry tag) s = execTAckExpiry tag s := rfl
@[simp] theorem exec_tDoneExpiry {s : State} {tag} : exec (.tDoneExpiry tag) s = execTDoneExpiry tag s := rfl
@[simp] theorem exec_lostExpiry {s : State} {tag} : exec (.lostExpiry tag) s = execLostExpiry tag s := rfl
@[simp] theorem exec_msgRecordExpiry {s : State} {srcDev} {tag} : exec (.msgRecordExpiry srcDev tag) s = execMsgRecordExpiry srcDev tag s := rfl
@[simp] theorem exec_noticeResend {s : State} {id} : exec (.noticeResend id) s = execNoticeResend id s := rfl
@[simp] theorem exec_evtRepeat {s : State} {id} : exec (.evtRepeat id) s = execEvtRepeat id s := rfl
@[simp] theorem exec_rds {s : State} {link} {m} : exec (.rds link m) s = execRds link m s := rfl
@[simp] theorem exec_rdx {s : State} {link} {m} : exec (.rdx link m) s = execRdx link m s := rfl
@[simp] theorem exec_upg {s : State} {link} {m} : exec (.upg link m) s = execUpg link m s := rfl
@[simp] theorem exec_evc {s : State} {link} {m} : exec (.evc link m) s = execEvc link m s := rfl
@[simp] theorem exec_evd {s : State} {link} {m} : exec (.evd link m) s = execEvd link m s := rfl
@[simp] theorem exec_sr {s : State} {link} {m} : exec (.sr link m) s = execSr link m s := rfl
@[simp] theorem exec_gack {s : State} {link} {m} : exec (.gack link m) s = execGack link m s := rfl
@[simp] theorem exec_tSnpExpiry {s : State} {line} : exec (.tSnpExpiry line) s = execTSnpExpiry line s := rfl
@[simp] theorem exec_tGackExpiry {s : State} {line} : exec (.tGackExpiry line) s = execTGackExpiry line s := rfl
@[simp] theorem exec_caEnable {s : State} {n} {v} : exec (.caEnable n v) s = execCaEnable n v s := rfl
@[simp] theorem exec_caDisable {s : State} {n} {v} : exec (.caDisable n v) s = execCaDisable n v s := rfl
@[simp] theorem exec_drainDone {s : State} {n} : exec (.drainDone n) s = execDrainDone n s := rfl
@[simp] theorem exec_auditPass {s : State} : exec .auditPass s = execAuditPass s := rfl
@[simp] theorem exec_linkTransmit {s : State} {link} : exec (.linkTransmit link) s = execLinkTransmit link s := rfl
@[simp] theorem exec_reseqGapLost {s : State} {flow} : exec (.reseqGapLost flow) s = execReseqGapLost flow s := rfl
@[simp] theorem exec_polRateWrite {s : State} {n} {v} : exec (.polRateWrite n v) s = execPolRateWrite n v s := rfl
@[simp] theorem exec_polBurstWrite {s : State} {n} {v} : exec (.polBurstWrite n v) s = execPolBurstWrite n v s := rfl
@[simp] theorem exec_swAuditCfgWrite {s : State} {v} : exec (.swAuditCfgWrite v) s = execSwAuditCfgWrite v s := rfl
@[simp] theorem exec_reduceOpen {s : State} {e} {p} : exec (.reduceOpen e p) s = execReduceOpen e p s := rfl
@[simp] theorem exec_contrib {s : State} {e} {p} : exec (.contrib e p) s = execContrib e p s := rfl
@[simp] theorem exec_abort {s : State} {e} {p} : exec (.abort e p) s = execAbort e p s := rfl
@[simp] theorem exec_groupReduce {s : State} {p} {group} : exec (.groupReduce p group) s = execGroupReduce p group s := rfl
@[simp] theorem exec_part {s : State} {link} {t} : exec (.part link t) s = execPart link t s := rfl
@[simp] theorem exec_partEnd {s : State} {link} {t} : exec (.partEnd link t) s = execPartEnd link t s := rfl
@[simp] theorem exec_res {s : State} {link} {t} : exec (.res link t) s = execRes link t s := rfl
@[simp] theorem exec_resEnd {s : State} {link} {t} : exec (.resEnd link t) s = execResEnd link t s := rfl
@[simp] theorem exec_abortNotice {s : State} {link} {t} : exec (.abortNotice link t) s = execAbortNotice link t s := rfl
@[simp] theorem exec_groupDeadline {s : State} {p} {group} : exec (.groupDeadline p group) s = execGroupDeadline p group s := rfl
@[simp] theorem exec_earlyExpiry {s : State} {tile} {idx} : exec (.earlyExpiry tile idx) s = execEarlyExpiry tile idx s := rfl
@[simp] theorem exec_groupHoldExpiry {s : State} {p} {group} : exec (.groupHoldExpiry p group) s = execGroupHoldExpiry p group s := rfl
@[simp] theorem exec_gather {s : State} {e} {p} : exec (.gather e p) s = execGather e p s := rfl
@[simp] theorem exec_pooled {s : State} {e} {p} : exec (.pooled e p) s = execPooled e p s := rfl
@[simp] theorem exec_blockFetchDone {s : State} {tile} {p} {slot} {version} {block} : exec (.blockFetchDone tile p slot version block) s = execBlockFetchDone tile p slot version block s := rfl
@[simp] theorem exec_gthTableAdd {s : State} {a} : exec (.gthTableAdd a) s = execGthTableAdd a s := rfl
@[simp] theorem exec_gthTableRemove {s : State} {slot} : exec (.gthTableRemove slot) s = execGthTableRemove slot s := rfl
@[simp] theorem exec_gthTableQuery {s : State} {slot} : exec (.gthTableQuery slot) s = execGthTableQuery slot s := rfl
@[simp] theorem exec_gthSlotFree {s : State} {slot} : exec (.gthSlotFree slot) s = execGthSlotFree slot s := rfl
@[simp] theorem exec_gthCacheCfgWrite {s : State} {v} : exec (.gthCacheCfgWrite v) s = execGthCacheCfgWrite v s := rfl
@[simp] theorem exec_select {s : State} {e} {p} : exec (.select e p) s = execSelect e p s := rfl
@[simp] theorem exec_topk {s : State} {e} {p} : exec (.topk e p) s = execTopk e p s := rfl
@[simp] theorem exec_compute {s : State} {e} {p} : exec (.compute e p) s = execCompute e p s := rfl
@[simp] theorem exec_snoopEngine {s : State} {e} {p} : exec (.snoopEngine e p) s = execSnoopEngine e p s := rfl
@[simp] theorem exec_snoopPort {s : State} {e} {p} : exec (.snoopPort e p) s = execSnoopPort e p s := rfl
@[simp] theorem exec_dense {s : State} {e} {p} : exec (.dense e p) s = execDense e p s := rfl
@[simp] theorem exec_sketch {s : State} {e} {p} : exec (.sketch e p) s = execSketch e p s := rfl
@[simp] theorem exec_score {s : State} {e} {p} : exec (.score e p) s = execScore e p s := rfl
@[simp] theorem exec_sketchSelect {s : State} {e} {p} : exec (.sketchSelect e p) s = execSketchSelect e p s := rfl
@[simp] theorem exec_exact {s : State} {e} {p} : exec (.exact e p) s = execExact e p s := rfl
@[simp] theorem exec_merge {s : State} {e} {p} : exec (.merge e p) s = execMerge e p s := rfl
@[simp] theorem exec_shadow {s : State} {e} {p} : exec (.shadow e p) s = execShadow e p s := rfl
@[simp] theorem exec_arrayWithdraw {s : State} {tile} {array} : exec (.arrayWithdraw tile array) s = execArrayWithdraw tile array s := rfl
@[simp] theorem exec_pack {s : State} {e} {p} : exec (.pack e p) s = execPack e p s := rfl
@[simp] theorem exec_unpack {s : State} {e} {p} : exec (.unpack e p) s = execUnpack e p s := rfl
@[simp] theorem exec_workUnit {s : State} {e} {p} : exec (.workUnit e p) s = execWorkUnit e p s := rfl
@[simp] theorem exec_ticketComplete {s : State} {c} {slot} : exec (.ticketComplete c slot) s = execTicketComplete c slot s := rfl
@[simp] theorem exec_cueCapExpiry {s : State} {e} {p} : exec (.cueCapExpiry e p) s = execCueCapExpiry e p s := rfl
@[simp] theorem exec_spaceAccessComplete {s : State} {c} {key} : exec (.spaceAccessComplete c key) s = execSpaceAccessComplete c key s := rfl
@[simp] theorem exec_calRun {s : State} {u} {why} : exec (.calRun u why) s = execCalRun u why s := rfl
@[simp] theorem exec_calRunDone {s : State} {u} {r} : exec (.calRunDone u r) s = execCalRunDone u r s := rfl
@[simp] theorem exec_retest {s : State} {tile} : exec (.retest tile) s = execRetest tile s := rfl
@[simp] theorem exec_micaShadowCfgWrite {s : State} {p} {v} : exec (.micaShadowCfgWrite p v) s = execMicaShadowCfgWrite p v s := rfl
@[simp] theorem exec_tjSample {s : State} {temps} : exec (.tjSample temps) s = execTjSample temps s := rfl
@[simp] theorem exec_regionCreate {s : State} {p} {policy} {mirrored} : exec (.regionCreate p policy mirrored) s = execRegionCreate p policy mirrored s := rfl
@[simp] theorem exec_destroy {s : State} {r} : exec (.destroy r) s = execDestroy r s := rfl
@[simp] theorem exec_place {s : State} {r} {slot} {tier} {len} {list} : exec (.place r slot tier len list) s = execPlace r slot tier len list s := rfl
@[simp] theorem exec_load {s : State} {r} {slot} {tier} {version} {list} : exec (.load r slot tier version list) s = execLoad r slot tier version list s := rfl
@[simp] theorem exec_unplace {s : State} {r} {slot} {force} : exec (.unplace r slot force) s = execUnplace r slot force s := rfl
@[simp] theorem exec_pin {s : State} {r} {slot} : exec (.pin r slot) s = execPin r slot s := rfl
@[simp] theorem exec_unpin {s : State} {r} {slot} : exec (.unpin r slot) s = execUnpin r slot s := rfl
@[simp] theorem exec_seal {s : State} {r} {slot} {pub} {expect} : exec (.seal r slot pub expect) s = execSeal r slot pub expect s := rfl
@[simp] theorem exec_publish {s : State} {r} {version} {expect} : exec (.publish r version expect) s = execPublish r version expect s := rfl
@[simp] theorem exec_openVersion {s : State} {r} {version} : exec (.openVersion r version) s = execOpenVersion r version s := rfl
@[simp] theorem exec_close {s : State} {r} {version} : exec (.close r version) s = execClose r version s := rfl
@[simp] theorem exec_discard {s : State} {r} {version} : exec (.discard r version) s = execDiscard r version s := rfl
@[simp] theorem exec_revoke {s : State} {r} {version} : exec (.revoke r version) s = execRevoke r version s := rfl
@[simp] theorem exec_drainComplete {s : State} {r} {version} : exec (.drainComplete r version) s = execDrainComplete r version s := rfl
@[simp] theorem exec_quarantineEnd {s : State} {extent} : exec (.quarantineEnd extent) s = execQuarantineEnd extent s := rfl
@[simp] theorem exec_trayReadMiss {s : State} {tray} : exec (.trayReadMiss tray) s = execTrayReadMiss tray s := rfl
@[simp] theorem exec_rebuild {s : State} {tray} : exec (.rebuild tray) s = execRebuild tray s := rfl
@[simp] theorem exec_rebuildPiece {s : State} {tray} {piece} : exec (.rebuildPiece tray piece) s = execRebuildPiece tray piece s := rfl
@[simp] theorem exec_verQuotaWrite {s : State} {tier} {p} {v} : exec (.verQuotaWrite tier p v) s = execVerQuotaWrite tier p v s := rfl
@[simp] theorem exec_verPoolWrite {s : State} {tier} {v} : exec (.verPoolWrite tier v) s = execVerPoolWrite tier v s := rfl
@[simp] theorem exec_verTrayCfgWrite {s : State} {tray} {v} : exec (.verTrayCfgWrite tray v) s = execVerTrayCfgWrite tray v s := rfl
@[simp] theorem exec_sessionCreate {s : State} {a} : exec (.sessionCreate a) s = execSessionCreate a s := rfl
@[simp] theorem exec_delete {s : State} {id} : exec (.delete id) s = execDelete id s := rfl
@[simp] theorem exec_append {s : State} {a} : exec (.append a) s = execAppend a s := rfl
@[simp] theorem exec_park {s : State} {id} {deadline} : exec (.park id deadline) s = execPark id deadline s := rfl
@[simp] theorem exec_checkpoint {s : State} {id} {deadline} : exec (.checkpoint id deadline) s = execCheckpoint id deadline s := rfl
@[simp] theorem exec_revive {s : State} {id} {deadline} : exec (.revive id deadline) s = execRevive id deadline s := rfl
@[simp] theorem exec_fork {s : State} {id} {child} : exec (.fork id child) s = execFork id child s := rfl
@[simp] theorem exec_move {s : State} {a} : exec (.move a) s = execMove a s := rfl
@[simp] theorem exec_claim {s : State} {id} : exec (.claim id) s = execClaim id s := rfl
@[simp] theorem exec_query {s : State} {id} : exec (.query id) s = execQuery id s := rfl
@[simp] theorem exec_handover {s : State} {id} : exec (.handover id) s = execHandover id s := rfl
@[simp] theorem exec_phaseCommit {s : State} {id} : exec (.phaseCommit id) s = execPhaseCommit id s := rfl
@[simp] theorem exec_sessionDeadline {s : State} {id} : exec (.sessionDeadline id) s = execSessionDeadline id s := rfl
@[simp] theorem exec_windowTimeout {s : State} {id} : exec (.windowTimeout id) s = execWindowTimeout id s := rfl
@[simp] theorem exec_logSeal {s : State} {id} : exec (.logSeal id) s = execLogSeal id s := rfl
@[simp] theorem exec_offer {s : State} {link} {t} : exec (.offer link t) s = execOffer link t s := rfl
@[simp] theorem exec_data {s : State} {link} {t} : exec (.data link t) s = execData link t s := rfl
@[simp] theorem exec_commit {s : State} {link} {t} : exec (.commit link t) s = execCommit link t s := rfl
@[simp] theorem exec_moveAbort {s : State} {link} {t} : exec (.moveAbort link t) s = execMoveAbort link t s := rfl
@[simp] theorem exec_ownerQuery {s : State} {link} {t} : exec (.ownerQuery link t) s = execOwnerQuery link t s := rfl
@[simp] theorem exec_finish {s : State} {link} {t} : exec (.finish link t) s = execFinish link t s := rfl
@[simp] theorem exec_moveInTimeout {s : State} {id} : exec (.moveInTimeout id) s = execMoveInTimeout id s := rfl
@[simp] theorem exec_unconfQuery {s : State} {id} : exec (.unconfQuery id) s = execUnconfQuery id s := rfl
@[simp] theorem exec_hb {s : State} {link} {f} : exec (.hb link f) s = execHb link f s := rfl
@[simp] theorem exec_hbTimeout {s : State} {link} : exec (.hbTimeout link) s = execHbTimeout link s := rfl
@[simp] theorem exec_mwr {s : State} {link} {f} : exec (.mwr link f) s = execMwr link f s := rfl
@[simp] theorem exec_mrec {s : State} {link} {f} : exec (.mrec link f) s = execMrec link f s := rfl
@[simp] theorem exec_mmap {s : State} {link} {f} : exec (.mmap link f) s = execMmap link f s := rfl
@[simp] theorem exec_mack {s : State} {link} {f} : exec (.mack link f) s = execMack link f s := rfl
@[simp] theorem exec_mirrorResend {s : State} {stream} {mseq} : exec (.mirrorResend stream mseq) s = execMirrorResend stream mseq s := rfl
@[simp] theorem exec_down {s : State} {link} : exec (.down link) s = execDown link s := rfl
@[simp] theorem exec_audit {s : State} {link} {f} : exec (.audit link f) s = execAudit link f s := rfl
@[simp] theorem exec_key {s : State} {link} {f} : exec (.key link f) s = execKey link f s := rfl
@[simp] theorem exec_bulkEnd {s : State} {link} {f} : exec (.bulkEnd link f) s = execBulkEnd link f s := rfl
@[simp] theorem exec_stepFrame {s : State} {link} {f} : exec (.stepFrame link f) s = execStepFrame link f s := rfl
@[simp] theorem exec_bulkSend {s : State} : exec .bulkSend s = execBulkSend s := rfl
@[simp] theorem exec_admissionStep {s : State} {step} {r} : exec (.admissionStep step r) s = execAdmissionStep step r s := rfl
@[simp] theorem exec_join {s : State} : exec .join s = execJoin s := rfl
@[simp] theorem exec_admitPair {s : State} : exec .admitPair s = execAdmitPair s := rfl
@[simp] theorem exec_takeover {s : State} : exec .takeover s = execTakeover s := rfl
@[simp] theorem exec_yieldPair {s : State} : exec .yieldPair s = execYieldPair s := rfl
@[simp] theorem exec_step {s : State} : exec .step s = execStep s := rfl
@[simp] theorem exec_unpair {s : State} : exec .unpair s = execUnpair s := rfl
@[simp] theorem exec_takeoverScan {s : State} : exec .takeoverScan s = execTakeoverScan s := rfl
@[simp] theorem exec_conflictClaim {s : State} {id} : exec (.conflictClaim id) s = execConflictClaim id s := rfl
@[simp] theorem exec_journalExpiry {s : State} : exec .journalExpiry s = execJournalExpiry s := rfl
@[simp] theorem exec_ctxWatchdog {s : State} {c} : exec (.ctxWatchdog c) s = execCtxWatchdog c s := rfl
@[simp] theorem exec_engHang {s : State} {e} {p} : exec (.engHang e p) s = execEngHang e p s := rfl
@[simp] theorem exec_ctxReset {s : State} {c} {byHost} : exec (.ctxReset c byHost) s = execCtxReset c byHost s := rfl
@[simp] theorem exec_engReset {s : State} {e} : exec (.engReset e) s = execEngReset e s := rfl
@[simp] theorem exec_partReset {s : State} {p} : exec (.partReset p) s = execPartReset p s := rfl
@[simp] theorem exec_warmReset {s : State} {cause} : exec (.warmReset cause) s = execWarmReset cause s := rfl
@[simp] theorem exec_powerCycle {s : State} {cause} : exec (.powerCycle cause) s = execPowerCycle cause s := rfl
@[simp] theorem exec_fatal {s : State} {cause} : exec (.fatal cause) s = execFatal cause s := rfl
@[simp] theorem exec_escalate {s : State} {origin} {step} : exec (.escalate origin step) s = execEscalate origin step s := rfl
@[simp] theorem exec_report {s : State} {r} : exec (.report r) s = execReport r s := rfl
@[simp] theorem exec_pbEntryWrite {s : State} {tile} : exec (.pbEntryWrite tile) s = execPbEntryWrite tile s := rfl
@[simp] theorem exec_fltCntClr {s : State} {addr} : exec (.fltCntClr addr) s = execFltCntClr addr s := rfl
@[simp] theorem exec_pbRead {s : State} {seq} {count} : exec (.pbRead seq count) s = execPbRead seq count s := rfl
@[simp] theorem exec_secSeedNew {s : State} : exec .secSeedNew s = execSecSeedNew s := rfl
@[simp] theorem exec_secSeedLoad {s : State} {blob} : exec (.secSeedLoad blob) s = execSecSeedLoad blob s := rfl
@[simp] theorem exec_secSeedExport {s : State} : exec .secSeedExport s = execSecSeedExport s := rfl
@[simp] theorem exec_secTenantWrite {s : State} {p} {hi} {v} : exec (.secTenantWrite p hi v) s = execSecTenantWrite p hi v s := rfl
@[simp] theorem exec_secConfWrite {s : State} {p} {v} : exec (.secConfWrite p v) s = execSecConfWrite p v s := rfl
@[simp] theorem exec_secRangeWrite {s : State} {n} {v} : exec (.secRangeWrite n v) s = execSecRangeWrite n v s := rfl
@[simp] theorem exec_secStrmWrite {s : State} {k} {j} {v} : exec (.secStrmWrite k j v) s = execSecStrmWrite k j v s := rfl
@[simp] theorem exec_getVersion {s : State} {src} : exec (.getVersion src) s = execGetVersion src s := rfl
@[simp] theorem exec_getCapabilities {s : State} {src} : exec (.getCapabilities src) s = execGetCapabilities src s := rfl
@[simp] theorem exec_negotiateAlgorithms {s : State} {src} : exec (.negotiateAlgorithms src) s = execNegotiateAlgorithms src s := rfl
@[simp] theorem exec_getDigests {s : State} {src} : exec (.getDigests src) s = execGetDigests src s := rfl
@[simp] theorem exec_getCertificate {s : State} {src} {offset} {len} : exec (.getCertificate src offset len) s = execGetCertificate src offset len s := rfl
@[simp] theorem exec_challenge {s : State} {src} {nonce} : exec (.challenge src nonce) s = execChallenge src nonce s := rfl
@[simp] theorem exec_getMeasurements {s : State} {src} {nonce} {index} : exec (.getMeasurements src nonce index) s = execGetMeasurements src nonce index s := rfl
@[simp] theorem exec_spdmUnsupported {s : State} {src} {code} : exec (.spdmUnsupported src code) s = execSpdmUnsupported src code s := rfl
@[simp] theorem exec_spdmResponse {s : State} {link} {code} {ok} : exec (.spdmResponse link code ok) s = execSpdmResponse link code ok s := rfl
@[simp] theorem exec_keyx {s : State} {link} {payload} : exec (.keyx link payload) s = execKeyx link payload s := rfl
@[simp] theorem exec_authResend {s : State} {link} : exec (.authResend link) s = execAuthResend link s := rfl
@[simp] theorem exec_flit {s : State} {link} {bytes} {cwCorrected} {cwBad} : exec (.flit link bytes cwCorrected cwBad) s = execFlit link bytes cwCorrected cwBad s := rfl
@[simp] theorem exec_ident {s : State} {link} {m} : exec (.ident link m) s = execIdent link m s := rfl
@[simp] theorem exec_creditInit {s : State} {link} {grants} : exec (.creditInit link grants) s = execCreditInit link grants s := rfl
@[simp] theorem exec_downMessage {s : State} {link} {reason} : exec (.downMessage link reason) s = execDownMessage link reason s := rfl
@[simp] theorem exec_phyLocked {s : State} {link} : exec (.phyLocked link) s = execPhyLocked link s := rfl
@[simp] theorem exec_trainingTimeout {s : State} {link} : exec (.trainingTimeout link) s = execTrainingTimeout link s := rfl
@[simp] theorem exec_linkRetry {s : State} {link} : exec (.linkRetry link) s = execLinkRetry link s := rfl
@[simp] theorem exec_linkIdleTimeout {s : State} {link} : exec (.linkIdleTimeout link) s = execLinkIdleTimeout link s := rfl
@[simp] theorem exec_deskewLoss {s : State} {link} : exec (.deskewLoss link) s = execDeskewLoss link s := rfl
@[simp] theorem exec_glLinkCfgWrite {s : State} {k} {v} : exec (.glLinkCfgWrite k v) s = execGlLinkCfgWrite k v s := rfl
@[simp] theorem exec_cxlMemRead {s : State} {x} : exec (.cxlMemRead x) s = execCxlMemRead x s := rfl
@[simp] theorem exec_cxlMemWrite {s : State} {x} {data} : exec (.cxlMemWrite x data) s = execCxlMemWrite x data s := rfl
@[simp] theorem exec_h2dSnoop {s : State} {hpa} : exec (.h2dSnoop hpa) s = execH2dSnoop hpa s := rfl
@[simp] theorem exec_rdcurrData {s : State} {id} {ok} {data} : exec (.rdcurrData id ok data) s = execRdcurrData id ok data s := rfl
@[simp] theorem exec_cxlWinWrite {s : State} {stratum} {v} : exec (.cxlWinWrite stratum v) s = execCxlWinWrite stratum v s := rfl
@[simp] theorem exec_mailboxUnsupported {s : State} {opcode} : exec (.mailboxUnsupported opcode) s = execMailboxUnsupported opcode s := rfl
@[simp] theorem exec_thrCfg {s : State} {p} {ctxs} {qdepth} {storeKib} : exec (.thrCfg p ctxs qdepth storeKib) s = execThrCfg p ctxs qdepth storeKib s := rfl
@[simp] theorem exec_bundleBegin {s : State} {p} {slot} {len} : exec (.bundleBegin p slot len) s = execBundleBegin p slot len s := rfl
@[simp] theorem exec_bundleData {s : State} {p} {slot} {offset} {data} : exec (.bundleData p slot offset data) s = execBundleData p slot offset data s := rfl
@[simp] theorem exec_bundleCommit {s : State} {p} {slot} : exec (.bundleCommit p slot) s = execBundleCommit p slot s := rfl
@[simp] theorem exec_bundleUnload {s : State} {p} {slot} : exec (.bundleUnload p slot) s = execBundleUnload p slot s := rfl
@[simp] theorem exec_bundleQuery {s : State} {p} {slot} : exec (.bundleQuery p slot) s = execBundleQuery p slot s := rfl
@[simp] theorem exec_resetN {s : State} {addr} : exec (.resetN addr) s = execResetN addr s := rfl
@[simp] theorem exec_perstN {s : State} : exec .perstN s = execPerstN s := rfl
@[simp] theorem exec_powerDown {s : State} : exec .powerDown s = execPowerDown s := rfl
@[simp] theorem exec_railFault {s : State} {rail} : exec (.railFault rail) s = execRailFault rail s := rfl
@[simp] theorem exec_stageDone {s : State} {r} : exec (.stageDone r) s = execStageDone r s := rfl
@[simp] theorem exec_cfgDone {s : State} : exec .cfgDone s = execCfgDone s := rfl
@[simp] theorem exec_avsStep {s : State} {tile} : exec (.avsStep tile) s = execAvsStep tile s := rfl
@[simp] theorem exec_add {s : State} {c} {f} : exec (.add c f) s = execAdd c f s := rfl
@[simp] theorem exec_sub {s : State} {c} {f} : exec (.sub c f) s = execSub c f s := rfl
@[simp] theorem exec_and {s : State} {c} {f} : exec (.and c f) s = execAnd c f s := rfl
@[simp] theorem exec_or {s : State} {c} {f} : exec (.or c f) s = execOr c f s := rfl
@[simp] theorem exec_xor {s : State} {c} {f} : exec (.xor c f) s = execXor c f s := rfl
@[simp] theorem exec_shl {s : State} {c} {f} : exec (.shl c f) s = execShl c f s := rfl
@[simp] theorem exec_shr {s : State} {c} {f} : exec (.shr c f) s = execShr c f s := rfl
@[simp] theorem exec_sra {s : State} {c} {f} : exec (.sra c f) s = execSra c f s := rfl
@[simp] theorem exec_mul {s : State} {c} {f} : exec (.mul c f) s = execMul c f s := rfl
@[simp] theorem exec_mulhu {s : State} {c} {f} : exec (.mulhu c f) s = execMulhu c f s := rfl
@[simp] theorem exec_mulh {s : State} {c} {f} : exec (.mulh c f) s = execMulh c f s := rfl
@[simp] theorem exec_divu {s : State} {c} {f} : exec (.divu c f) s = execDivu c f s := rfl
@[simp] theorem exec_remu {s : State} {c} {f} : exec (.remu c f) s = execRemu c f s := rfl
@[simp] theorem exec_min {s : State} {c} {f} : exec (.min c f) s = execMin c f s := rfl
@[simp] theorem exec_max {s : State} {c} {f} : exec (.max c f) s = execMax c f s := rfl
@[simp] theorem exec_minu {s : State} {c} {f} : exec (.minu c f) s = execMinu c f s := rfl
@[simp] theorem exec_maxu {s : State} {c} {f} : exec (.maxu c f) s = execMaxu c f s := rfl
@[simp] theorem exec_sxtb {s : State} {c} {f} : exec (.sxtb c f) s = execSxtb c f s := rfl
@[simp] theorem exec_sxth {s : State} {c} {f} : exec (.sxth c f) s = execSxth c f s := rfl
@[simp] theorem exec_sxtw {s : State} {c} {f} : exec (.sxtw c f) s = execSxtw c f s := rfl
@[simp] theorem exec_clz {s : State} {c} {f} : exec (.clz c f) s = execClz c f s := rfl
@[simp] theorem exec_popc {s : State} {c} {f} : exec (.popc c f) s = execPopc c f s := rfl
@[simp] theorem exec_sel {s : State} {c} {f} {p} : exec (.sel c f p) s = execSel c f p s := rfl
@[simp] theorem exec_cmpeq {s : State} {c} {f} : exec (.cmpeq c f) s = execCmpeq c f s := rfl
@[simp] theorem exec_cmpne {s : State} {c} {f} : exec (.cmpne c f) s = execCmpne c f s := rfl
@[simp] theorem exec_cmplt {s : State} {c} {f} : exec (.cmplt c f) s = execCmplt c f s := rfl
@[simp] theorem exec_cmpltu {s : State} {c} {f} : exec (.cmpltu c f) s = execCmpltu c f s := rfl
@[simp] theorem exec_cmple {s : State} {c} {f} : exec (.cmple c f) s = execCmple c f s := rfl
@[simp] theorem exec_cmpleu {s : State} {c} {f} : exec (.cmpleu c f) s = execCmpleu c f s := rfl
@[simp] theorem exec_cmpgt {s : State} {c} {f} : exec (.cmpgt c f) s = execCmpgt c f s := rfl
@[simp] theorem exec_cmpgtu {s : State} {c} {f} : exec (.cmpgtu c f) s = execCmpgtu c f s := rfl
@[simp] theorem exec_cmpge {s : State} {c} {f} : exec (.cmpge c f) s = execCmpge c f s := rfl
@[simp] theorem exec_cmpgeu {s : State} {c} {f} : exec (.cmpgeu c f) s = execCmpgeu c f s := rfl
@[simp] theorem exec_pmov {s : State} {c} {f} : exec (.pmov c f) s = execPmov c f s := rfl
@[simp] theorem exec_pget {s : State} {c} {f} : exec (.pget c f) s = execPget c f s := rfl
@[simp] theorem exec_pand {s : State} {c} {f} : exec (.pand c f) s = execPand c f s := rfl
@[simp] theorem exec_por {s : State} {c} {f} : exec (.por c f) s = execPor c f s := rfl
@[simp] theorem exec_pxor {s : State} {c} {f} : exec (.pxor c f) s = execPxor c f s := rfl
@[simp] theorem exec_pnot {s : State} {c} {f} : exec (.pnot c f) s = execPnot c f s := rfl
@[simp] theorem exec_addi {s : State} {c} {f} : exec (.addi c f) s = execAddi c f s := rfl
@[simp] theorem exec_andi {s : State} {c} {f} : exec (.andi c f) s = execAndi c f s := rfl
@[simp] theorem exec_ori {s : State} {c} {f} : exec (.ori c f) s = execOri c f s := rfl
@[simp] theorem exec_xori {s : State} {c} {f} : exec (.xori c f) s = execXori c f s := rfl
@[simp] theorem exec_shli {s : State} {c} {f} : exec (.shli c f) s = execShli c f s := rfl
@[simp] theorem exec_shri {s : State} {c} {f} : exec (.shri c f) s = execShri c f s := rfl
@[simp] theorem exec_srai {s : State} {c} {f} : exec (.srai c f) s = execSrai c f s := rfl
@[simp] theorem exec_cmpi {s : State} {c} {f} : exec (.cmpi c f) s = execCmpi c f s := rfl
@[simp] theorem exec_li {s : State} {c} {f} : exec (.li c f) s = execLi c f s := rfl
@[simp] theorem exec_lis {s : State} {c} {f} : exec (.lis c f) s = execLis c f s := rfl
@[simp] theorem exec_b {s : State} {c} {f} : exec (.b c f) s = execB c f s := rfl
@[simp] theorem exec_bl {s : State} {c} {f} : exec (.bl c f) s = execBl c f s := rfl
@[simp] theorem exec_beqz {s : State} {c} {f} : exec (.beqz c f) s = execBeqz c f s := rfl
@[simp] theorem exec_bnez {s : State} {c} {f} : exec (.bnez c f) s = execBnez c f s := rfl
@[simp] theorem exec_bp {s : State} {c} {f} : exec (.bp c f) s = execBp c f s := rfl
@[simp] theorem exec_bnp {s : State} {c} {f} : exec (.bnp c f) s = execBnp c f s := rfl
@[simp] theorem exec_jr {s : State} {c} {f} : exec (.jr c f) s = execJr c f s := rfl
@[simp] theorem exec_ldlB {s : State} {c} {f} : exec (.ldlB c f) s = execLdlB c f s := rfl
@[simp] theorem exec_ldlH {s : State} {c} {f} : exec (.ldlH c f) s = execLdlH c f s := rfl
@[simp] theorem exec_ldlW {s : State} {c} {f} : exec (.ldlW c f) s = execLdlW c f s := rfl
@[simp] theorem exec_ldlD {s : State} {c} {f} : exec (.ldlD c f) s = execLdlD c f s := rfl
@[simp] theorem exec_ldd {s : State} {c} {f} : exec (.ldd c f) s = execLdd c f s := rfl
@[simp] theorem exec_stlB {s : State} {c} {f} : exec (.stlB c f) s = execStlB c f s := rfl
@[simp] theorem exec_stlH {s : State} {c} {f} : exec (.stlH c f) s = execStlH c f s := rfl
@[simp] theorem exec_stlW {s : State} {c} {f} : exec (.stlW c f) s = execStlW c f s := rfl
@[simp] theorem exec_stlD {s : State} {c} {f} : exec (.stlD c f) s = execStlD c f s := rfl
@[simp] theorem exec_std {s : State} {c} {f} : exec (.std c f) s = execStd c f s := rfl
@[simp] theorem exec_ld {s : State} {c} {f} : exec (.ld c f) s = execLd c f s := rfl
@[simp] theorem exec_st {s : State} {c} {f} : exec (.st c f) s = execSt c f s := rfl
@[simp] theorem exec_atomInstr {s : State} {c} {f} : exec (.atomInstr c f) s = execAtomInstr c f s := rfl
@[simp] theorem exec_copy {s : State} {c} {f} : exec (.copy c f) s = execCopy c f s := rfl
@[simp] theorem exec_enq {s : State} {c} {f} : exec (.enq c f) s = execEnq c f s := rfl
@[simp] theorem exec_waitT {s : State} {c} {f} : exec (.waitT c f) s = execWaitT c f s := rfl
@[simp] theorem exec_waitE {s : State} {c} {f} : exec (.waitE c f) s = execWaitE c f s := rfl
@[simp] theorem exec_waitETimeout {s : State} {c} : exec (.waitETimeout c) s = execWaitETimeout c s := rfl
@[simp] theorem exec_waitC {s : State} {c} {f} : exec (.waitC c f) s = execWaitC c f s := rfl
@[simp] theorem exec_waitCExpiry {s : State} {c} : exec (.waitCExpiry c) s = execWaitCExpiry c s := rfl
@[simp] theorem exec_rel {s : State} {c} {f} : exec (.rel c f) s = execRel c f s := rfl
@[simp] theorem exec_acq {s : State} {c} {f} : exec (.acq c f) s = execAcq c f s := rfl
@[simp] theorem exec_fenceM {s : State} {c} {f} : exec (.fenceM c f) s = execFenceM c f s := rfl
@[simp] theorem exec_msgSend {s : State} {c} {f} : exec (.msgSend c f) s = execMsgSend c f s := rfl
@[simp] theorem exec_msgRecv {s : State} {c} {f} : exec (.msgRecv c f) s = execMsgRecv c f s := rfl
@[simp] theorem exec_ses {s : State} {c} {f} : exec (.ses c f) s = execSes c f s := rfl
@[simp] theorem exec_ver {s : State} {c} {f} : exec (.ver c f) s = execVer c f s := rfl
@[simp] theorem exec_dins {s : State} {c} {f} : exec (.dins c f) s = execDins c f s := rfl
@[simp] theorem exec_dext {s : State} {c} {f} : exec (.dext c f) s = execDext c f s := rfl
@[simp] theorem exec_dmov {s : State} {c} {f} : exec (.dmov c f) s = execDmov c f s := rfl
@[simp] theorem exec_dclr {s : State} {c} {f} : exec (.dclr c f) s = execDclr c f s := rfl
@[simp] theorem exec_csrr {s : State} {c} {f} : exec (.csrr c f) s = execCsrr c f s := rfl
@[simp] theorem exec_csrw {s : State} {c} {f} : exec (.csrw c f) s = execCsrw c f s := rfl
@[simp] theorem exec_rdtb {s : State} {c} {f} : exec (.rdtb c f) s = execRdtb c f s := rfl
@[simp] theorem exec_rdcue {s : State} {c} {f} : exec (.rdcue c f) s = execRdcue c f s := rfl
@[simp] theorem exec_evt {s : State} {c} {f} : exec (.evt c f) s = execEvt c f s := rfl
@[simp] theorem exec_trap {s : State} {c} {f} : exec (.trap c f) s = execTrap c f s := rfl
@[simp] theorem exec_endScript {s : State} {c} {f} : exec (.endScript c f) s = execEndScript c f s := rfl
@[simp] theorem exec_undefinedEncoding {s : State} {c} {w} : exec (.undefinedEncoding c w) s = execUndefinedEncoding c w s := rfl
@[simp] theorem exec_reservedType {s : State} {link} {typ} {t} : exec (.reservedType link typ t) s = execReservedType link typ t s := rfl
@[simp] theorem exec_reservedCmsg {s : State} {link} {cmsg} {m} : exec (.reservedCmsg link cmsg m) s = execReservedCmsg link cmsg m s := rfl
@[simp] theorem exec_reservedPtype {s : State} {link} {ptype} {f} : exec (.reservedPtype link ptype f) s = execReservedPtype link ptype f s := rfl
@[simp] theorem exec_cxlPortRetrain {s : State} {width} {rate} : exec (.cxlPortRetrain width rate) s = execCxlPortRetrain width rate s := rfl
@[simp] theorem exec_tapInstruction {s : State} {ir} : exec (.tapInstruction ir) s = execTapInstruction ir s := rfl
@[simp] theorem exec_malformedCsrRead {s : State} {addr} {size} : exec (.malformedCsrRead addr size) s = execMalformedCsrRead addr size s := rfl

/-- What every meaning does: it updates the device, if it is live, and leaves the queue. -/
theorem run_completes (s : State) (f : Dev → Dev) : ∃ t, s.run f = .next t ∧ t.pending = s.pending := ⟨_, rfl, rfl⟩

end Sys2Proof.Machine
end

