-- ==== Sys2Proof/Laws/Ses.lean ====
section
/-! SUPPORT. What writes memory, sends mirror frames and places copies leaves the sessions alone. -/

namespace Sys2Proof.Machine

theorem Dev.Counts.ses {a b : Dev} (h : a.Counts b) : b.ses = a.ses := by rw [h]

@[simp] theorem Dev.ses_bump (d : Dev) (off : Nat) : (d.bump off).ses = d.ses := (d.bump_counts off).ses

@[simp] theorem Dev.ses_report (d : Dev) (code sev : Nat) (o : BitVec 32) (a b c st step : Nat) :
    (d.report code sev o a b c st step).ses = d.ses := (d.report_counts code sev o a b c st step).ses

@[simp] theorem Dev.ses_event (d : Dev) (off bit : Nat) (on : Bool) : (d.event off bit on).ses = d.ses := (d.event_counts off bit on).ses

@[simp] theorem Dev.ses_touch (d : Dev) (a : Nat) : (d.touch a).ses = d.ses := by
  unfold Dev.touch; split <;> rfl

@[simp] theorem Dev.ses_foundUe (d : Dev) (g : Nat) : (d.foundUe g).ses = d.ses := by
  simp [Dev.foundUe]

@[simp] theorem Dev.ses_dropFetchedLine (d : Dev) (g : Nat) : (d.dropFetchedLine g).ses = d.ses := rfl

@[simp] theorem Dev.ses_granWrite (d : Dev) (a : Nat) (bs : Bytes) : (d.granWrite a bs).1.ses = d.ses := by
  unfold Dev.granWrite
  dsimp only
  split
  · simp
  · split
    · simp
    · split <;> simp

@[simp] theorem ses_writePieces (d : Dev) (ps : List (Nat × Bytes)) : (writePieces d ps).1.ses = d.ses := by
  induction ps generalizing d with
  | nil => rfl
  | cons p ps ih => simp [writePieces, ih]

@[simp] theorem Dev.ses_memWrite (d : Dev) (a : Nat) (bs : Bytes) : (d.memWrite a bs).1.ses = d.ses := ses_writePieces _ _

/-- A fold of steps that leave the sessions alone leaves them alone. -/
theorem ses_foldl {α : Type} (f : Dev → α → Dev) (h : ∀ d a, (f d a).ses = d.ses) (l : List α) (d : Dev) : (l.foldl f d).ses = d.ses := by
  induction l generalizing d with
  | nil => rfl
  | cons a l ih => rw [List.foldl_cons, ih, h]

/-- What a message that leaves on a link can change: the link, the switch, the output and the free values used. -/
def Dev.Sends (d d' : Dev) : Prop := d' = { d with links := d'.links, sw := d'.sw, out := d'.out, freeIx := d'.freeIx, csr := d'.csr, flt := d'.flt, tb := d'.tb }

theorem Dev.Sends.trans {a b c : Dev} (h : a.Sends b) (h' : b.Sends c) : a.Sends c := by
  unfold Dev.Sends at *
  rw [h'] at *
  rw [h]

theorem Dev.Sends.ses {a b : Dev} (h : a.Sends b) : b.ses = a.ses := by rw [h]
theorem Dev.Sends.mem {a b : Dev} (h : a.Sends b) : b.mem = a.mem := by rw [h]

theorem Dev.Counts.sends {a b : Dev} (h : a.Counts b) : a.Sends b := by rw [h]; rfl

theorem Dev.lineOut_sends (d : Dev) (k : Nat) (bs : Bytes) : d.Sends (d.lineOut k bs) := by
  unfold Dev.lineOut
  dsimp only
  split
  · rfl
  · split <;> rfl

theorem Dev.flitOut_sends (d : Dev) (k : Nat) (body : Bytes) : d.Sends (d.flitOut k body) :=
  Dev.Sends.trans (b := (d.setLink k { d.link k with txRot := if d.isUp k then ((d.link k).txRot + 1) % 5 else 0 }).emit _) rfl (Dev.lineOut_sends _ _ _)

theorem Dev.dataOut_sends (d : Dev) (k ch cnt : Nat) (l : List (Bool × Bytes)) : d.Sends (d.dataOut k ch cnt l) := by
  unfold Dev.dataOut
  dsimp only
  split <;> exact Dev.flitOut_sends _ _ _

theorem Dev.setChan_sends (d : Dev) (k ch : Nat) (c : Chan) : d.Sends (d.setChan k ch c) := rfl

theorem Dev.drainTx_sends (d : Dev) (k ch n : Nat) : d.Sends (d.drainTx k ch n) := by
  induction n generalizing d with
  | zero => rfl
  | succ n ih =>
    unfold Dev.drainTx
    dsimp only
    split
    · rfl
    · exact ((d.dataOut_sends _ _ _ _).trans (Dev.setChan_sends _ _ _ _)).trans (ih _)

theorem Dev.carry_sends (d : Dev) (k ch : Nat) (bs : Bytes) : d.Sends (d.carry k ch bs) := by
  unfold Dev.carry
  dsimp only
  split
  · exact Dev.Sends.trans (b := d.setChan k ch _) rfl (Dev.drainTx_sends _ _ _ _)
  · rfl

theorem Dev.sendPair_sends (d : Dev) (k ptype : Nat) (f : PairFrame) : d.Sends (d.sendPair k ptype f) :=
  Dev.Sends.trans (b := d.emit (.pair k ptype f)) rfl (Dev.carry_sends _ _ _ _)

theorem Dev.releaseSend_sends (d : Dev) (l : List FlowPkt) : d.Sends (d.releaseSend l) := by
  induction l generalizing d with
  | nil => rfl
  | cons p l ih => exact (d.sendPair_sends _ _ _).trans (ih _)

theorem Dev.sprayed_sends (d : Dev) (a b : Nat) : d.Sends (d.sprayed a b).1 := by
  unfold Dev.sprayed
  split <;> rfl

theorem Dev.pairOut_sends (d : Dev) (k ptype : Nat) (f : PairFrame) : d.Sends (d.pairOut k ptype f) := by
  unfold Dev.pairOut
  dsimp only
  split
  · exact d.sendPair_sends _ _ _
  · refine Dev.Sends.trans (Dev.Sends.trans ?_ (Dev.bumpBy_counts _ _ _).sends) (Dev.releaseSend_sends _ _)
    exact (Dev.sprayed_sends d _ _).trans rfl

@[simp] theorem Dev.ses_pairSend (d : Dev) (stream ptype word1 : Nat) (data : Bytes) : (d.pairSend stream ptype word1 data).ses = d.ses := by
  unfold Dev.pairSend
  dsimp only
  split <;> split <;> simp [(Dev.pairOut_sends _ _ _ _).ses]

@[simp] theorem Dev.ses_pageWrite (d : Dev) (a : Nat) (bs : Bytes) : (d.pageWrite a bs).1.ses = d.ses := by
  unfold Dev.pageWrite
  dsimp only
  split
  · split
    · simp
    · rw [ses_foldl _ (fun d p => by simp)]; simp
  · simp

@[simp] theorem ses_writePages (d : Dev) (ps : List (Nat × Bytes)) : (writePages d ps).1.ses = d.ses := by
  induction ps generalizing d with
  | nil => rfl
  | cons p ps ih => simp [writePages, ih]

@[simp] theorem Dev.ses_write (d : Dev) (a : Nat) (bs : Bytes) : (d.write a bs).1.ses = d.ses := ses_writePages _ _

@[simp] theorem Dev.ses_sendRec (d : Dev) (stream table index : Nat) (bs : Bytes) : (d.sendRec stream table index bs).ses = d.ses := by
  unfold Dev.sendRec; split <;> simp

@[simp] theorem Dev.ses_putRegion (d : Dev) (ri : Nat) (r : Region) (slot : Nat) : (d.putRegion ri r slot).ses = d.ses := by
  unfold Dev.putRegion; dsimp only; split <;> simp

@[simp] theorem Dev.ses_clearFrames (d : Dev) (tier : Nat) (fs : List Nat) : (d.clearFrames tier fs).ses = d.ses := by
  induction fs generalizing d with
  | nil => rfl
  | cons f fs ih => rw [Dev.clearFrames, ih]; rfl

@[simp] theorem Dev.ses_takeFrames (d : Dev) (ri slot : Nat) (r : Region) (tier : Nat) (fs : List Nat) : (d.takeFrames ri slot r tier fs).ses = d.ses := by
  unfold Dev.takeFrames
  dsimp only
  split
  · simp [Dev.addCharge]
  · split
    · simp [Dev.bulkFrames, Dev.addCharge]
    · rw [ses_foldl _ (fun d f => by simp [Dev.sendMmap])]; simp [Dev.addCharge]

@[simp] theorem Dev.ses_copyOn (d : Dev) (ri slot tier len : Nat) (fs : List Nat) : (d.copyOn ri slot tier len fs).ses = d.ses := by
  unfold Dev.copyOn; split <;> simp

@[simp] theorem Dev.ses_pickOne (d : Dev) (place : Nat) (l : List Nat) : (d.pickOne place l).1.ses = d.ses := rfl

@[simp] theorem Dev.ses_pickMany (d : Dev) (place n : Nat) (l : List Nat) : (d.pickMany place n l).1.ses = d.ses := by
  induction n generalizing d l with
  | zero => rfl
  | succ n ih =>
    unfold Dev.pickMany
    dsimp only
    split
    · simp
    · rw [ih]; simp

/-- Something is picked wherever there is something. -/
theorem Dev.pickOne_isSome (d : Dev) (place : Nat) (l : List Nat) (h : l ≠ []) : ∃ a, (d.pickOne place l).2 = some a := by
  have h' : 0 < l.length := List.length_pos_iff.mpr h
  exact ⟨_, List.getElem?_eq_getElem (Nat.mod_lt _ h')⟩

@[simp] theorem Dev.ses_regionNew (d : Dev) (part policy : Nat) (m : Bool) (session : Nat) : (d.regionNew part policy m session).1.ses = d.ses := by
  unfold Dev.regionNew
  dsimp only
  split <;> simp

@[simp] theorem Dev.ses_sesPlace (d : Dev) (r : SesRec) (kv : Nat) : (d.sesPlace r kv).1.ses = d.ses := by
  cases h : (d.pickOne 5 (d.frameRuns (ceilDiv (mapLen r) (2 ^ 21)))).2 with
  | none => simp only [Dev.sesPlace, h]
  | some f0 => simp only [Dev.sesPlace, h, ses_foldl _ (fun d i => Dev.ses_write d _ _), Dev.ses_copyOn, Dev.ses_pickMany, Dev.ses_pickOne]

end Sys2Proof.Machine
end

