-- ==== Sys2Proof/WellFormed.lean ====
section
/-! DEFINITION. Well-formed commands: the links, tiles, partitions, contexts, engines, trays, sessions and units that a command names
exist (R1 to R18, R64, R78, R225, R263, R333, R373, R380), and a message carries no more than its kind can. The meanings do not rely on it. -/

namespace Sys2Proof

/-- A Galter link, G0 to G35 (R18). -/
def wfLink (k : Nat) : Bool := k < 36

/-- A tile of the mesh, T0 to T11 (R16). -/
def wfTile (t : Nat) : Bool := t < 12

/-- A partition, 0 to 15, which is also the range of the caching agents. -/
def wfPart (p : Nat) : Bool := p < 16

/-- A context that exists (R64). -/
def wfCtx (c : CtxId) : Bool := c.tile < 12 && c.core < 16 && c.ctx < 16

/-- Instances of an engine class (R78). -/
def wfInstances (cls : Nat) : Nat := [4, 4, 4, 2, 1, 16].getD cls 0

/-- An engine instance that exists (R78). -/
def wfEng (e : EngId) : Bool := e.tile < 12 && e.inst < wfInstances e.cls

/-- A transaction: at most 7 operands and 4 KiB of payload (R135, R136). -/
def wfTxn (t : Txn) : Bool := t.ops.length ≤ 7 && t.data.length ≤ 4096

/-- An answer carries at most 4 KiB. -/
def wfAnswer (a : Answer) : Bool := a.data.length ≤ 4096

/-- A coherence message carries no data or one line. -/
def wfCoh (m : CohMsg) : Bool := m.data.length == 0 || m.data.length == 128

/-- A PAIR frame carries at most 4 KiB. -/
def wfPair (f : PairFrame) : Bool := f.data.length ≤ 4096

/-- A region ID: index of 25 bits and generation of 15 (R351). -/
def wfRegion (r : RegionId) : Bool := r.index < 2 ^ 25 && r.gen < 2 ^ 15

/-- A slot of working copies, or of bundles. -/
def wfSlot16 (i : Nat) : Bool := i < 16

/-- A slot of the gather table directory (R263). -/
def wfTableSlot (i : Nat) : Bool := i < 4096

/-- A tray (R373). -/
def wfTray (t : Nat) : Bool := t < 64

/-- A session ID (R380). -/
def wfSession (id : Nat) : Bool := id < 2 ^ 24

/-- A marker: link and traffic class (R225). -/
def wfMarker (n : Nat) : Bool := n < 288

/-- An edge of the mesh. -/
def wfEdge (e : Nat) : Bool := e < 17

/-- A calibrated unit (R333). -/
def wfUnit (u : CalUnit) : Bool := u.unit < [768, 288, 1109, 2048].getD u.cls 0

/-- Where an SPDM request arrives. -/
def wfSrc (s : SpdmSrc) : Bool := match s with
  | .doe => true
  | .link k => wfLink k

/-- A well-formed command. -/
def wfInstr (i : Instr) : Bool :=
  match i with
  | .cueBoundary _ => true
  | .wuOverrun e => wfEng e
  | .msBoundary _ => true
  | .wingsSlot _ => true
  | .eccWriteback _ => true
  | .ppsEdge _ _ => true
  | .holdover => true
  | .freeRun => true
  | .applyShares => true
  | .csrWrite _ _ _ => true
  | .opreq link t => wfLink link && wfTxn t
  | .contextFree c => wfCtx c
  | .admitTimeout tile part => wfTile tile && wfPart part
  | .budgetTimeout c => wfCtx c
  | .rdcContrib link t => wfLink link && wfTxn t
  | .rdcAbort link t => wfLink link && wfTxn t
  | .rd link t => wfLink link && wfTxn t
  | .wr link t => wfLink link && wfTxn t
  | .wrf link t => wfLink link && wfTxn t
  | .atom link t => wfLink link && wfTxn t
  | .msg link t => wfLink link && wfTxn t
  | .ack link a => wfLink link && wfAnswer a
  | .nak link a => wfLink link && wfAnswer a
  | .evtReceived e => wfLink e.link
  | .receipt link _ => wfLink link
  | .flagWrite link _ _ => wfLink link
  | .wrfTimeout link _ _ => wfLink link
  | .replayExpiry link _ => wfLink link
  | .meshEdgeFailed edge => wfEdge edge
  | .tAckExpiry _ => true
  | .tDoneExpiry _ => true
  | .lostExpiry _ => true
  | .msgRecordExpiry _ _ => true
  | .noticeResend _ => true
  | .evtRepeat _ => true
  | .rds link m => wfLink link && wfCoh m
  | .rdx link m => wfLink link && wfCoh m
  | .upg link m => wfLink link && wfCoh m
  | .evc link m => wfLink link && wfCoh m
  | .evd link m => wfLink link && wfCoh m
  | .sr link m => wfLink link && wfCoh m
  | .gack link m => wfLink link && wfCoh m
  | .tSnpExpiry _ => true
  | .tGackExpiry _ => true
  | .caEnable n _ => wfPart n
  | .caDisable n _ => wfPart n
  | .drainDone n => wfPart n
  | .auditPass => true
  | .linkTransmit link => wfLink link
  | .reseqGapLost _ => true
  | .polRateWrite n _ => wfMarker n
  | .polBurstWrite n _ => wfMarker n
  | .swAuditCfgWrite _ => true
  | .reduceOpen e part => wfEng e && wfPart part
  | .contrib e part => wfEng e && wfPart part
  | .abort e part => wfEng e && wfPart part
  | .groupReduce part _ => wfPart part
  | .part link t => wfLink link && wfTxn t
  | .partEnd link t => wfLink link && wfTxn t
  | .res link t => wfLink link && wfTxn t
  | .resEnd link t => wfLink link && wfTxn t
  | .abortNotice link t => wfLink link && wfTxn t
  | .groupDeadline part _ => wfPart part
  | .earlyExpiry tile _ => wfTile tile
  | .groupHoldExpiry part _ => wfPart part
  | .gather e part => wfEng e && wfPart part
  | .pooled e part => wfEng e && wfPart part
  | .blockFetchDone tile part slot _ _ => wfTile tile && wfPart part && wfTableSlot slot
  | .gthTableAdd _ => true
  | .gthTableRemove slot => wfTableSlot slot
  | .gthTableQuery slot => wfTableSlot slot
  | .gthSlotFree slot => wfTableSlot slot
  | .gthCacheCfgWrite _ => true
  | .select e part => wfEng e && wfPart part
  | .topk e part => wfEng e && wfPart part
  | .compute e part => wfEng e && wfPart part
  | .snoopEngine e part => wfEng e && wfPart part
  | .snoopPort e part => wfEng e && wfPart part
  | .dense e part => wfEng e && wfPart part
  | .sketch e part => wfEng e && wfPart part
  | .score e part => wfEng e && wfPart part
  | .sketchSelect e part => wfEng e && wfPart part
  | .exact e part => wfEng e && wfPart part
  | .merge e part => wfEng e && wfPart part
  | .shadow e part => wfEng e && wfPart part
  | .arrayWithdraw tile _ => wfTile tile
  | .pack e part => wfEng e && wfPart part
  | .unpack e part => wfEng e && wfPart part
  | .workUnit e part => wfEng e && wfPart part
  | .ticketComplete c _ => wfCtx c
  | .cueCapExpiry e part => wfEng e && wfPart part
  | .spaceAccessComplete c _ => wfCtx c
  | .calRun u _ => wfUnit u
  | .calRunDone u _ => wfUnit u
  | .retest tile => wfTile tile
  | .micaShadowCfgWrite p _ => wfPart p
  | .tjSample _ => true
  | .regionCreate part _ _ => wfPart part
  | .destroy r => wfRegion r
  | .place r slot _ _ _ => wfRegion r && wfSlot16 slot
  | .load r slot _ _ _ => wfRegion r && wfSlot16 slot
  | .unplace r slot _ => wfRegion r && wfSlot16 slot
  | .pin r slot => wfRegion r && wfSlot16 slot
  | .unpin r slot => wfRegion r && wfSlot16 slot
  | .seal r slot _ _ => wfRegion r && wfSlot16 slot
  | .publish r _ _ => wfRegion r
  | .openVersion r _ => wfRegion r
  | .close r _ => wfRegion r
  | .discard r _ => wfRegion r
  | .revoke r _ => wfRegion r
  | .drainComplete r _ => wfRegion r
  | .quarantineEnd _ => true
  | .trayReadMiss tray => wfTray tray
  | .rebuild tray => wfTray tray
  | .rebuildPiece tray _ => wfTray tray
  | .verQuotaWrite _ p _ => wfPart p
  | .verPoolWrite _ _ => true
  | .verTrayCfgWrite tray _ => wfTray tray
  | .sessionCreate _ => true
  | .delete id => wfSession id
  | .append _ => true
  | .park id _ => wfSession id
  | .checkpoint id _ => wfSession id
  | .revive id _ => wfSession id
  | .fork id child => wfSession id && wfSession child
  | .move _ => true
  | .claim id => wfSession id
  | .query id => wfSession id
  | .handover id => wfSession id
  | .phaseCommit id => wfSession id
  | .sessionDeadline id => wfSession id
  | .windowTimeout id => wfSession id
  | .logSeal id => wfSession id
  | .offer link t => wfLink link && wfTxn t
  | .data link t => wfLink link && wfTxn t
  | .commit link t => wfLink link && wfTxn t
  | .moveAbort link t => wfLink link && wfTxn t
  | .ownerQuery link t => wfLink link && wfTxn t
  | .finish link t => wfLink link && wfTxn t
  | .moveInTimeout id => wfSession id
  | .unconfQuery id => wfSession id
  | .hb link f => wfLink link && wfPair f
  | .hbTimeout link => wfLink link
  | .mwr link f => wfLink link && wfPair f
  | .mrec link f => wfLink link && wfPair f
  | .mmap link f => wfLink link && wfPair f
  | .mack link f => wfLink link && wfPair f
  | .mirrorResend _ _ => true
  | .down link => wfLink link
  | .audit link f => wfLink link && wfPair f
  | .key link f => wfLink link && wfPair f
  | .bulkEnd link f => wfLink link && wfPair f
  | .stepFrame link f => wfLink link && wfPair f
  | .bulkSend => true
  | .admissionStep _ r => r.digest.length == 32
  | .join => true
  | .admitPair => true
  | .takeover => true
  | .yieldPair => true
  | .step => true
  | .unpair => true
  | .takeoverScan => true
  | .conflictClaim id => wfSession id
  | .journalExpiry => true
  | .ctxWatchdog c => wfCtx c
  | .engHang e part => wfEng e && wfPart part
  | .ctxReset c _ => wfCtx c
  | .engReset e => wfEng e
  | .partReset part => wfPart part
  | .warmReset _ => true
  | .powerCycle _ => true
  | .fatal _ => true
  | .escalate _ _ => true
  | .report _ => true
  | .pbEntryWrite tile => wfTile tile
  | .fltCntClr _ => true
  | .pbRead _ _ => true
  | .secSeedNew => true
  | .secSeedLoad _ => true
  | .secSeedExport => true
  | .secTenantWrite p _ _ => wfPart p
  | .secConfWrite p _ => wfPart p
  | .secRangeWrite n _ => n < 64
  | .secStrmWrite k _ _ => wfLink k
  | .getVersion src => wfSrc src
  | .getCapabilities src => wfSrc src
  | .negotiateAlgorithms src => wfSrc src
  | .getDigests src => wfSrc src
  | .getCertificate src _ _ => wfSrc src
  | .challenge src _ => wfSrc src
  | .getMeasurements src _ _ => wfSrc src
  | .spdmUnsupported src _ => wfSrc src
  | .spdmResponse link _ _ => wfLink link
  | .keyx link _ => wfLink link
  | .authResend link => wfLink link
  | .flit link _ _ _ => wfLink link
  | .ident link _ => wfLink link
  | .creditInit link _ => wfLink link
  | .downMessage link _ => wfLink link
  | .phyLocked link => wfLink link
  | .trainingTimeout link => wfLink link
  | .linkRetry link => wfLink link
  | .linkIdleTimeout link => wfLink link
  | .deskewLoss link => wfLink link
  | .glLinkCfgWrite k _ => wfLink k
  | .cxlMemRead _ => true
  | .cxlMemWrite _ _ => true
  | .h2dSnoop _ => true
  | .rdcurrData _ _ _ => true
  | .cxlWinWrite _ _ => true
  | .mailboxUnsupported _ => true
  | .thrCfg p _ _ _ => wfPart p
  | .bundleBegin p slot _ => wfPart p && wfSlot16 slot
  | .bundleData p slot _ _ => wfPart p && wfSlot16 slot
  | .bundleCommit p slot => wfPart p && wfSlot16 slot
  | .bundleUnload p slot => wfPart p && wfSlot16 slot
  | .bundleQuery p slot => wfPart p && wfSlot16 slot
  | .resetN _ => true
  | .perstN => true
  | .powerDown => true
  | .railFault _ => true
  | .stageDone _ => true
  | .cfgDone => true
  | .avsStep tile => wfTile tile
  | .add c _ => wfCtx c
  | .sub c _ => wfCtx c
  | .and c _ => wfCtx c
  | .or c _ => wfCtx c
  | .xor c _ => wfCtx c
  | .shl c _ => wfCtx c
  | .shr c _ => wfCtx c
  | .sra c _ => wfCtx c
  | .mul c _ => wfCtx c
  | .mulhu c _ => wfCtx c
  | .mulh c _ => wfCtx c
  | .divu c _ => wfCtx c
  | .remu c _ => wfCtx c
  | .min c _ => wfCtx c
  | .max c _ => wfCtx c
  | .minu c _ => wfCtx c
  | .maxu c _ => wfCtx c
  | .sxtb c _ => wfCtx c
  | .sxth c _ => wfCtx c
  | .sxtw c _ => wfCtx c
  | .clz c _ => wfCtx c
  | .popc c _ => wfCtx c
  | .sel c _ _ => wfCtx c
  | .cmpeq c _ => wfCtx c
  | .cmpne c _ => wfCtx c
  | .cmplt c _ => wfCtx c
  | .cmpltu c _ => wfCtx c
  | .cmple c _ => wfCtx c
  | .cmpleu c _ => wfCtx c
  | .cmpgt c _ => wfCtx c
  | .cmpgtu c _ => wfCtx c
  | .cmpge c _ => wfCtx c
  | .cmpgeu c _ => wfCtx c
  | .pmov c _ => wfCtx c
  | .pget c _ => wfCtx c
  | .pand c _ => wfCtx c
  | .por c _ => wfCtx c
  | .pxor c _ => wfCtx c
  | .pnot c _ => wfCtx c
  | .addi c _ => wfCtx c
  | .andi c _ => wfCtx c
  | .ori c _ => wfCtx c
  | .xori c _ => wfCtx c
  | .shli c _ => wfCtx c
  | .shri c _ => wfCtx c
  | .srai c _ => wfCtx c
  | .cmpi c _ => wfCtx c
  | .li c _ => wfCtx c
  | .lis c _ => wfCtx c
  | .b c _ => wfCtx c
  | .bl c _ => wfCtx c
  | .beqz c _ => wfCtx c
  | .bnez c _ => wfCtx c
  | .bp c _ => wfCtx c
  | .bnp c _ => wfCtx c
  | .jr c _ => wfCtx c
  | .ldlB c _ => wfCtx c
  | .ldlH c _ => wfCtx c
  | .ldlW c _ => wfCtx c
  | .ldlD c _ => wfCtx c
  | .ldd c _ => wfCtx c
  | .stlB c _ => wfCtx c
  | .stlH c _ => wfCtx c
  | .stlW c _ => wfCtx c
  | .stlD c _ => wfCtx c
  | .std c _ => wfCtx c
  | .ld c _ => wfCtx c
  | .st c _ => wfCtx c
  | .atomInstr c _ => wfCtx c
  | .copy c _ => wfCtx c
  | .enq c _ => wfCtx c
  | .waitT c _ => wfCtx c
  | .waitE c _ => wfCtx c
  | .waitETimeout c => wfCtx c
  | .waitC c _ => wfCtx c
  | .waitCExpiry c => wfCtx c
  | .rel c _ => wfCtx c
  | .acq c _ => wfCtx c
  | .fenceM c _ => wfCtx c
  | .msgSend c _ => wfCtx c
  | .msgRecv c _ => wfCtx c
  | .ses c _ => wfCtx c
  | .ver c _ => wfCtx c
  | .dins c _ => wfCtx c
  | .dext c _ => wfCtx c
  | .dmov c _ => wfCtx c
  | .dclr c _ => wfCtx c
  | .csrr c _ => wfCtx c
  | .csrw c _ => wfCtx c
  | .rdtb c _ => wfCtx c
  | .rdcue c _ => wfCtx c
  | .evt c _ => wfCtx c
  | .trap c _ => wfCtx c
  | .endScript c _ => wfCtx c
  | .undefinedEncoding c _ => wfCtx c
  | .reservedType link _ t => wfLink link && wfTxn t
  | .reservedCmsg link _ m => wfLink link && wfCoh m
  | .reservedPtype link _ f => wfLink link && wfPair f
  | .cxlPortRetrain _ _ => true
  | .tapInstruction _ => true
  | .malformedCsrRead _ _ => true

end Sys2Proof
end

