-- ==== Sys2Proof/Tests/Slice0.lean ====
section
/-! SUPPORT. Tests: the well-formedness checks refuse what they should, script words decode to the instruction they stand for, and for each
statement with hypotheses a state and operands that meet them. -/

set_option Elab.async false

namespace Sys2Proof.Tests

open Sys2Proof Sys2Proof.Machine

/-! ## Helpers: small states -/

/-- The state with a given device and nothing waiting. -/
abbrev at' (d : Dev) : State := { dev := d, pending := [] }

/-- The device after reset, changed by f. -/
abbrev st (f : Dev → Dev) : State := at' (f Dev.reset)

abbrev c0 : CtxId := { tile := 0, core := 0, ctx := 0 }
abbrev c15 : CtxId := { tile := 0, core := 0, ctx := 15 }
abbrev e0 : EngId := { tile := 0, cls := 1, inst := 0 }

/-- A bundle image with the words ws, known by uid 1, of partition 0. -/
abbrev img (ws : List (BitVec 32)) : Bundle :=
  { uid := 1, part := 0, slot := 0, words := ws, image := [], binds := [], digest := [], commitCue := 0, live := true }

/-- Context c runs ws from its first word, changed by f, on a device changed by g; its partition has an issue slot of the core. -/
abbrev script (c : CtxId) (ws : List (BitVec 32)) (f : Ctx → Ctx) (g : Dev → Dev) : State :=
  at' (({ (g Dev.reset) with
      thr := { (g Dev.reset).thr with bundles := [img ws] }
      cue := { (g Dev.reset).cue with credit := [(issueRes c * 16, 1)] } } : Dev).setCtx c
    (f { Ctx.reset with run := .running, code := 1, p := 1 }))

/-- The device with one register set. -/
abbrev reg (off v : Nat) (d : Dev) : Dev := d.putReg off v

/-! ## Well-formed commands: one that each check refuses -/

theorem test_wf_link : wfInstr (.evtReceived ⟨35, 7, false⟩) = true ∧ wfInstr (.evtReceived ⟨36, 7, false⟩) = false := by decide
theorem test_wf_tile : wfInstr (.retest 11) = true ∧ wfInstr (.retest 12) = false := by decide
theorem test_wf_part : wfInstr (.partReset 15) = true ∧ wfInstr (.partReset 16) = false := by decide
theorem test_wf_ctx : wfInstr (.contextFree { tile := 11, core := 15, ctx := 15 }) = true ∧
    wfInstr (.contextFree { tile := 12, core := 0, ctx := 0 }) = false ∧ wfInstr (.contextFree { tile := 0, core := 16, ctx := 0 }) = false ∧
    wfInstr (.contextFree { tile := 0, core := 0, ctx := 16 }) = false := by decide
theorem test_wf_eng : wfInstr (.engReset { tile := 0, cls := 4, inst := 0 }) = true ∧ wfInstr (.engReset { tile := 0, cls := 4, inst := 1 }) = false ∧
    wfInstr (.engReset { tile := 0, cls := 6, inst := 0 }) = false := by decide

abbrev route0 : Route := { dstDev := 0, srcDev := 0, dstPart := 0, dstTile := 0, dstCore := 0, dstCtx := 0, hops := 0, notify := 0 }
abbrev txn0 : Txn :=
  { tag := 0, stream := 0, rseq := 0, tc := 0, cong := false, rtx := false, len := 64, opx := 0, rsv := false, addr := 0, flagAddr := 0,
    flagVal := 0, priorCnt := 0, prevRseq := 0, prevV := false, opcode := 0, nops := 0, ops := [], route := route0, data := [] }
abbrev ans0 : Answer :=
  { tag := 0, stream := 0, rseq := 0, tc := 0, cong := false, compl := false, status := 0, aux := 0, route := none, data := [] }
abbrev coh0 : CohMsg :=
  { id := 0, rseq := 0, ca := 0, way := 0, htile := 0, newst := 0, d := false, rtx := false, status := 0, rsv := false, addr := 0, data := [] }
abbrev pf0 : PairFrame := { stream := 0, mseq := 0, len := 0, rtx := false, word1 := 0, data := [] }
abbrev rg0 : RegionId := { index := 0, gen := 0 }

theorem test_wf_txn : wfInstr (.rd 0 txn0) = true ∧ wfInstr (.rd 0 { txn0 with ops := [0, 0, 0, 0, 0, 0, 0, 0] }) = false ∧
    wfTxn { txn0 with data := List.replicate 4097 0 } = false := by
  refine ⟨by decide, by decide, ?_⟩; simp only [wfTxn, List.length_replicate]; decide
theorem test_wf_answer : wfInstr (.ack 0 ans0) = true ∧ wfAnswer { ans0 with data := List.replicate 4097 0 } = false := by
  refine ⟨by decide, ?_⟩; simp only [wfAnswer, List.length_replicate]; decide
theorem test_wf_coh : wfInstr (.rds 0 coh0) = true ∧ wfInstr (.rds 0 { coh0 with data := [0] }) = false := by decide
theorem test_wf_pair : wfInstr (.hb 0 pf0) = true ∧ wfPair { pf0 with data := List.replicate 4097 0 } = false := by
  refine ⟨by decide, ?_⟩; simp only [wfPair, List.length_replicate]; decide
theorem test_wf_region : wfInstr (.destroy { index := 33554431, gen := 32767 }) = true ∧ wfInstr (.destroy { index := 33554432, gen := 0 }) = false ∧
    wfInstr (.destroy { index := 0, gen := 32768 }) = false := by decide
theorem test_wf_slot : wfInstr (.pin rg0 15) = true ∧ wfInstr (.pin rg0 16) = false := by decide
theorem test_wf_table_slot : wfInstr (.gthTableRemove 4095) = true ∧ wfInstr (.gthTableRemove 4096) = false := by decide
theorem test_wf_tray : wfInstr (.rebuild 63) = true ∧ wfInstr (.rebuild 64) = false := by decide
theorem test_wf_session : wfInstr (.query 16777215) = true ∧ wfInstr (.query 16777216) = false := by decide
theorem test_wf_marker : wfInstr (.polRateWrite 287 0) = true ∧ wfInstr (.polRateWrite 288 0) = false := by decide
theorem test_wf_edge : wfInstr (.meshEdgeFailed 16) = true ∧ wfInstr (.meshEdgeFailed 17) = false := by decide
theorem test_wf_unit : wfInstr (.calRun { cls := 3, unit := 2047 } .first) = true ∧ wfInstr (.calRun { cls := 3, unit := 2048 } .first) = false ∧
    wfInstr (.calRun { cls := 4, unit := 0 } .first) = false := by decide
theorem test_wf_src : wfInstr (.getVersion (.link 35)) = true ∧ wfInstr (.getVersion (.link 36)) = false := by decide
theorem test_wf_range : wfInstr (.secRangeWrite 63 0) = true ∧ wfInstr (.secRangeWrite 64 0) = false := by decide

/-! ## Words written out from the tables of R561, R564 and R565 -/

-- trap p1, 0x21: OP 0x39, P 1, imm16 0x21
theorem test_word_trap : decode 0xE4800021 = some (.trap { p := 1, z := 0, imm := 0x21 }) := by decide
-- ldd d0, [g0 + 0xCC0 × 64]: OP 0x18
theorem test_word_ldd : decode 0x60000CC0 = some (.ldd { rd := 0, ra := 0, imm := 0xCC0 }) := by decide
-- dins d0, g4 at bit 64, 64 bits wide: OP 0x30
theorem test_word_dins : decode 0xC004207E = some (.dins { dd := 0, ra := 4, pos := 64, wm1 := 63, z := 0 }) := by decide
-- wait.t g15, g14: OP 0x26
theorem test_word_wait : decode 0x98F38000 = some (.waitT { rd := 15, ra := 14, rb := 0, fn := 0 }) := by decide
-- bnez g15, +3: OP 0x0F
theorem test_word_bnez : decode 0x3CF00003 = some (.bnez { ra := 15, off := 3 }) := by decide
-- end g0, g16: OP 0x3A
theorem test_word_end : decode 0xE8001000 = some (.endScript { rd := 0, ra := 0, rb := 16, fn := 0 }) := by decide

/-! ## Witnesses: instructions of a script -/

theorem live_st (d : Dev) (h : d.pwr = Pwr.reset) : (at' d).live := by simp [State.live, h, Pwr.reset]

/-- A partition that has been given enough slots takes them. -/
theorem slot_of_credit {res p need n : Nat} {pending : Nat → Bool} {d : Dev} (h : need ≤ d.slotCredit res p) :
    (takeSlots res pending p need n d).isSome = true := by
  cases n <;> simp [takeSlots, h]

/-- Any legal word is issued somewhere: the hypothesis of every statement about an instruction is met, whatever its fields, registers
and the predicate on the context that holds of some f. -/
theorem witness_issues (c : CtxId) (w : BitVec 32) (regs : List Nat) (hw : staticOk w = true) (f : Ctx → Ctx)
    (hf : ∀ x, (f x).run = x.run ∧ (f x).pc = x.pc ∧ (f x).code = x.code ∧ (f x).outst = x.outst ∧ (f x).part = x.part) :
    (script c [w] f id).issues c w regs := by
  obtain ⟨h1, h2, h3, h4, h5⟩ := hf { Ctx.reset with run := .running, code := 1, p := 1 }
  have hs : ((script c [w] f id).dev.issueSlot c).isSome = true := by
    unfold Dev.issueSlot
    split
    · rfl
    · exact slot_of_credit (by simp only [Dev.ctx_setCtx, h5]; simp [Dev.slotCredit, Dev.setCtx, Ctx.reset, Tab.get, Tab.find?])
  refine ⟨⟨rfl, rfl⟩, ?_, hw⟩
  simp only [Dev.issues, hs]
  simp only [Dev.ctx_setCtx, h1, h2, h3, h4, Dev.wordAt, Dev.bundle, Ctx.stalls]
  simp [Dev.setCtx, Ctx.reset]

/-- Every field of every format has legal values: the top register, the longest immediate. -/
theorem witness_words :
    staticOk (encode (.add { rd := 63, ra := 63, rb := 63 })) = true ∧ staticOk (encode (.addi { rd := 63, ra := 63, imm := 0x3FFF })) = true ∧
    staticOk (encode (.sel { rd := 63, ra := 63, rb := 63 } 7)) = true ∧ staticOk (encode (.cmpi { pd := 7, cc := 7, ra := 63, imm := 0x3FFF })) = true ∧
    staticOk (encode (.li { rd := 63, imm := 0xFFFFF })) = true ∧ staticOk (encode (.bl { ra := 63, off := 0x80000 })) = true ∧
    staticOk (encode (.b { ra := 0, off := 0x7FFFF })) = true ∧ staticOk (encode (.bp { ra := 7, off := 0x7FFFF })) = true ∧
    staticOk (encode (.jr { rd := 0, ra := 63, rb := 0, fn := 0 })) = true ∧ staticOk (encode (.ldd { rd := 15, ra := 63, imm := 0x3FFF })) = true ∧
    staticOk (encode (.dins { dd := 15, ra := 63, pos := 448, wm1 := 63, z := 0 })) = true ∧
    staticOk (encode (.dext { rd := 63, ds := 15, pos := 511, wm1 := 0, z := 0 })) = true ∧
    staticOk (encode (.waitC { p := 0, z := 0, imm := 0xFFFF })) = true ∧ staticOk (encode (.rel { p := 0, z := 0, imm := 0 })) = true ∧
    staticOk (encode (.fenceM { rd := 62, ra := 0, rb := 0, fn := 0 })) = true ∧ staticOk (encode (.trap { p := 7, z := 0, imm := 0xFFFF })) = true ∧
    staticOk (encode (.ld { rd := 62, ra := 63, rb := 0, sz := 3, st := 1, aop := 0, z := 0 })) = true ∧
    staticOk (encode (.st { rd := 63, ra := 63, rb := 63, sz := 3, st := 1, aop := 0, z := 0 })) = true ∧
    staticOk (encode (.atomInstr { rd := 62, ra := 63, rb := 62, sz := 3, st := 1, aop := 9, z := 0 })) = true ∧
    staticOk (encode (.copy { rd := 63, ra := 63, rb := 63, rc := 63, z := 0 })) = true ∧
    staticOk (encode (.enq { rd := 63, ra := 15, rb := 0, fn := 0 })) = true ∧ staticOk (encode (.msgRecv { rd := 15, ra := 0, rb := 0, fn := 0 })) = true ∧
    staticOk (encode (.ses { rd := 63, ra := 15, rb := 0, fn := 0 })) = true ∧ staticOk (encode (.csrw { rd := 0, ra := 63, rb := 63, fn := 0 })) = true ∧
    staticOk (encode (.endScript { rd := 0, ra := 63, rb := 63, fn := 0 })) = true ∧ staticOk 0xFFFFFFFF = false := by decide

/-- LOCAL: the last aligned access below 256 KiB is good, the next one bad, a misaligned one bad; 0x30000 is the first image byte. -/
theorem witness_local :
    let x := { Ctx.reset with g := [(1, 0x2FFC0), (2, 0x3FFF8), (3, 1)] }
    (badLocal (memAddr x { rd := 0, ra := 1, imm := 0 } 64) 64 = false ∧ inImages (memAddr x { rd := 0, ra := 1, imm := 0 } 64).toNat = false) ∧
    (badLocal (memAddr x { rd := 0, ra := 2, imm := 0 } 8) 8 = false ∧ 0x30000 ≤ (memAddr x { rd := 0, ra := 2, imm := 0 } 8).toNat) ∧
    badLocal (memAddr x { rd := 0, ra := 2, imm := 1 } 8) 8 = true ∧ badLocal (memAddr x { rd := 0, ra := 3, imm := 0 } 2) 2 = true ∧
    (badLocal (memAddr x { rd := 0, ra := 1, imm := 64 } 1) 1 = false ∧ 0x30000 ≤ (memAddr x { rd := 0, ra := 1, imm := 64 } 1).toNat) ∧
    (badLocal (memAddr x { rd := 0, ra := 1, imm := 1 } 64) 64 = false ∧ 0x30000 ≤ (memAddr x { rd := 0, ra := 1, imm := 1 } 64).toNat) ∧
    badLocal (memAddr x { rd := 0, ra := 0, imm := 4096 } 64) 64 = true := by decide

abbrev tk (gen : Nat) (k : TicketKind) (done : Option Status) (lost : Bool := false) : Ticket :=
  { gen := gen, kind := k, done := done, lost := lost, seq := 0 }

/-- wait.t: a ticket of the highest slot and generation, completed or running; a stale value; a free slot. -/
theorem witness_waitT :
    let f : RegFnF := { rd := 63, ra := 1, rb := 0, fn := 0 }
    let s (t : Ticket) (v : Word) := script c0 [encode (.waitT f)] (fun x => { x with tickets := [(63, t)], g := [(1, v)] }) id
    (∀ t v, (s t v).issues c0 (encode (.waitT f)) [f.rd.toNat, f.ra.toNat]) ∧
    ((((s (tk 1023 .copy (some .ok)) 0xFFFF).dev.ctx c0).gr 1).toNat % 64 = 63 ∧ (((s (tk 1023 .copy none) 0xFFFF).dev.ctx c0).gr 1).toNat / 64 % 1024 = 1023) ∧
    Tab.find? ((s (tk 1023 .copy none) 0xFFFF).dev.ctx c0).tickets 63 = some (tk 1023 .copy none) ∧
    (tk 1022 .copy none).gen ≠ 1023 ∧ Tab.find? ((s (tk 1023 .copy none) 0xFFFF).dev.ctx c0).tickets 62 = none := by
  refine ⟨fun t v => witness_issues _ _ _ (by decide) _ (fun x => ⟨rfl, rfl, rfl, rfl, rfl⟩), by decide, by decide, by decide, by decide⟩

/-- wait.e and wait.c: a masked event that is set, none that is, without and with a limit, and the cue of the limit. -/
theorem witness_waitE :
    let f : RegFnF := { rd := 63, ra := 1, rb := 2, fn := 0 }
    let s (ev : BitVec 32) (n : Word) := script c0 [encode (.waitE f)] (fun x => { x with events := ev, g := [(1, 0x80000000), (2, n)] }) id
    (∀ ev n, (s ev n).issues c0 (encode (.waitE f)) [f.rd.toNat, f.ra.toNat, f.rb.toNat]) ∧
    (((s 0x80000000 0).dev.ctx c0).events &&& (((s 0x80000000 0).dev.ctx c0).gr 1).extractLsb' 0 32 ≠ 0) ∧
    (((s 1 0).dev.ctx c0).events &&& (((s 1 0).dev.ctx c0).gr 1).extractLsb' 0 32 = 0) ∧
    (((s 1 0x10000).dev.ctx c0).gr 2).toNat % 2 ^ 16 = 0 ∧ (((s 1 0xFFFF).dev.ctx c0).gr 2).toNat % 2 ^ 16 ≠ 0 := by
  refine ⟨fun t v => witness_issues _ _ _ (by decide) _ (fun x => ⟨rfl, rfl, rfl, rfl, rfl⟩), by decide, by decide, by decide, by decide⟩

/-- A waiting context: at the cue of its limit, and one cue before. -/
theorem witness_waitExpiry :
    let s (r : CtxRun) (n : Nat) := st (fun d => ({ d with tb := { d.tb with cueCount := n } } : Dev).setCtx c0 { Ctx.reset with run := r })
    (s (.waitE 1 (some 5) 63) 5).live ∧ ((s (.waitE 1 (some 5) 63) 5).dev.ctx c0).run = .waitE 1 (some 5) 63 ∧
    ((s (.waitE 1 (some 5) 63) 5).dev.ctx c0).pendErr = none ∧ 5 ≤ (s (.waitE 1 (some 5) 63) 5).dev.tb.cueCount ∧
    (s (.waitC 5) 5).live ∧ ((s (.waitC 5) 5).dev.ctx c0).run = .waitC 5 ∧ ((s (.waitC 5) 5).dev.ctx c0).pendErr = none ∧
    ((s (.waitC 5) 4).dev.ctx c0).run = .waitC 5 ∧ (s (.waitC 5) 4).dev.tb.cueCount < 5 := by
  refine ⟨⟨rfl, rfl⟩, ?_⟩; refine ⟨?_, ?_, ?_, ⟨rfl, rfl⟩, ?_⟩ <;> decide

abbrev acc0 : SpaceAcc :=
  { kind := .load, addr := 0x2000000000000008, n := 8, rd := 62, st := false, aop := 0, v1 := 0, v2 := 0, pc := 0, instr := 0, acc := none }

/-- rel, acq and fence.m: nothing outstanding, a store alone, a load; MSG tickets that all completed. -/
theorem witness_ordering :
    let s (l : List SpaceAcc) := script c0 [encode (.rel { p := 0, z := 0, imm := 0 })] (fun x => { x with outst := l }) id
    (s []).issues c0 (encode (.rel { p := 0, z := 0, imm := 0 })) [] ∧ ((s []).dev.ctx c0).outst = [] ∧
    ((s [acc0]).dev.ctx c0).outst ≠ [] ∧ (∃ a ∈ ((s [acc0]).dev.ctx c0).outst, a.kind ≠ .store) ∧
    (∀ a ∈ ((s [{ acc0 with kind := .store }]).dev.ctx c0).outst, a.kind = .store) ∧
    (let x := { Ctx.reset with tickets := [(0, tk 0 .msg (some .ok)), (1, tk 0 .copy none)] }
     (∀ t ∈ x.tickets, t.2.kind = .msg → t.2.done.isSome = true) ∧
       (∀ t ∈ x.tickets, t.2.kind = .msg → t.2.lost = false ∧ t.2.done = some .ok)) := by
  simp only [State.issues, State.live]; decide

/-- rdtb: the last nanosecond of a cue, in confidential mode and not. -/
theorem witness_rdtb :
    let f : RegFnF := { rd := 63, ra := 0, rb := 0, fn := 0 }
    let s (conf : BitVec 16) :=
      script c0 [encode (.rdtb f)] id (fun d => { d with tb := { d.tb with sub := 249 }, sec := { d.sec with conf := conf } })
    (s 0).issues c0 (encode (.rdtb f)) [f.rd.toNat] ∧ (s 0).dev.tb.sub < 250 ∧ (s 0).dev.isConf 0 = false ∧
    (s 1).issues c0 (encode (.rdtb f)) [f.rd.toNat] ∧ (s 1).dev.tb.sub < 250 ∧ (s 1).dev.isConf 0 = true := by
  simp only [State.issues, State.live]; decide

/-- evt: HOST = 1; a context of the same partition, by tile and by tile 15; one of another; trap with p and without. -/
theorem witness_evt :
    let f : RegFnF := { rd := 0, ra := 1, rb := 2, fn := 0 }
    let s (v : Word) := script c0 [encode (.evt f)] (fun x => { x with g := [(1, v)] })
      (fun d => { d with thr := { d.thr with owner := [(3855 - 256 * 4 - 1, 1)] } })
    (s 0x8000).dev.issues c0 (encode (.evt f)) [1, 2] = true ∧ ((s 0x8000).dev.ctx c0).gr 1 = 0x8000 ∧
    (s 0x7EFB).dev.issues c0 (encode (.evt f)) [1, 2] = true ∧
    (let v := (((s 0x7EFB).dev.ctx c0).gr 1).toNat
     v < 2 ^ 15 ∧ v % 16 < 12 ∧ v / 256 % 16 ≠ 15 ∧
       (s 0x7EFB).dev.ctxPart { tile := v % 16, core := v / 16 % 16, ctx := v / 256 % 16 } ≠ some 0) ∧
    (let v := (((s 0x0EFB).dev.ctx c0).gr 1).toNat
     v < 2 ^ 15 ∧ v % 16 < 12 ∧ v / 256 % 16 ≠ 15 ∧ v / 2 ^ 12 % 8 = 0) := by decide

theorem witness_evt_same :
    let s := st (fun d => { d with thr := { d.thr with owner := [(11 * 256 + 15 * 16 + 14, 1)] } })
    s.dev.ctxPart { tile := 0x0EFB % 16, core := 0x0EFB / 16 % 16, ctx := 0x0EFB / 256 % 16 } = some (Ctx.reset.part) ∧
    (s.dev.ctx c0).run = .free ∧
    ({ Ctx.reset with p := 0x81 } : Ctx).pr 7 = true ∧ ({ Ctx.reset with p := 1 } : Ctx).pr 7 = false ∧ Ctx.reset.pr 0 = true := by
  decide

abbrev ext0 : DescEntry :=
  { id := 1, ctx := c0, slot := 0, gen := 0, part := 0, word := 0, ext := [], started := false, firstCue := 0, work := 0, status := none,
    phase := .fresh, att := { len := 0, pinned := false, arrays := [], nArr := 0, topk := none, scored := 0, sel := [], ck := 0, tau := 0, cut := 0,
                              fallback := false, trunc := false, withdrawn := false, arrMask := 0, shadowed := false, journal := none, w := [],
                              shift := 0, hist := [], resumed := false, blk := 0, eligible := 0 },
    topk := none, snoops := [], folded := [], nFolded := 0, nTrans := 0, target := none, targetDone := none, waitMack := [] }

/-- end: 4,096 result bytes and the highest status; 4,097; a reserved status; an access outstanding; descriptors queued. -/
theorem witness_end :
    let f : RegFnF := { rd := 0, ra := 1, rb := 2, fn := 0 }
    let s (st n : Word) (l : List SpaceAcc) := script c0 [encode (.endScript f)] (fun x => { x with g := [(1, st), (2, n)], outst := l }) id
    (s 0xD 4096 []).issues c0 (encode (.endScript f)) [1, 2] ∧ statusOf (((s 0xD 4096 []).dev.ctx c0).gr 1).toNat = some .busy ∧
    (((s 0xD 4096 []).dev.ctx c0).gr 2).toNat ≤ 4096 ∧ 4096 < (((s 0xD 4097 []).dev.ctx c0).gr 2).toNat ∧
    statusOf (((s 0xE 0 []).dev.ctx c0).gr 1).toNat = none ∧ (s 0xD 0 [acc0]).dev.issues c0 (encode (.endScript f)) [1, 2] = true ∧
    ((s 0xD 0 [acc0]).dev.ctx c0).outst ≠ [] := by
  simp only [State.issues, State.live]; decide

/-- Partition 0 owns frame 0 of STRATUM through fixed range 0. -/
abbrev owning (d : Dev) : Dev := d.putReg SEC_RANGE (1 + 2 + 2 ^ 25)

/-- ld, st and atom: accesses that are issued, the 33rd, and those that raise. -/
theorem witness_space :
    let f : SpcF := { rd := 62, ra := 1, rb := 3, sz := 3, st := 1, aop := 0, z := 0 }
    let s (a : Word) (l : List SpaceAcc) (w : BitVec 32) := script c0 [w] (fun x => { x with g := [(1, a)], outst := l }) owning
    let full := List.replicate 32 { acc0 with kind := .store }
    (s 0x20000000001FFFF8 [] (encode (.ld f))).issues c0 (encode (.ld f)) [1, 62, 63] ∧
    (s 0x20000000001FFFF8 [] (encode (.st f))).issues c0 (encode (.st f)) [1, 3, 62] ∧
    (s 0x20000000001FFFF8 [] (encode (.atomInstr f))).issues c0 (encode (.atomInstr f)) [1, 3, 62, 63] ∧
    (let d := (s 0x20000000001FFFF8 [] (encode (.ld f))).dev
     spaceOf 0x20000000001FFFF8 ≠ 0 ∧ spaceOf 0x20000000001FFFF8 ≠ 8 ∧ d.ctxRights 0 0x20000000001FFFF8 8 .load = true ∧
       d.ctxRights 0 0x20000000001FFFF8 8 .store = true ∧ d.ctxRights 0 0x20000000001FFFF8 8 .atomic = true ∧ inMem 0x2000000000200000 8 = true ∧
       d.owns 0 0x2000000000200000 8 = false) ∧
    spaceOf 0x8000000000000000 = 8 ∧ spaceOf 0x3000000000000000 = 3 ∧ spaceOf 0x4000000000000000 = 4 ∧ spaceOf 8 = 0 ∧
    32 ≤ ((s 0x20000000001FFFF8 full (encode (.ld f))).dev.ctx c0).outst.length := by
  simp only [State.issues, State.live]; decide

/-- The end of a load: an aligned one of STRATUM's last bytes, and a misaligned one with a status. -/
theorem witness_spaceEnd :
    let s (a : SpaceAcc) := script c0 [] (fun x => { x with outst := [a] }) id
    let a : SpaceAcc := { acc0 with addr := 0x2000008FFFFFFFF8 }
    let b : SpaceAcc := { acc0 with addr := 0x2000000000000001, st := true }
    (s a).live ∧ ((s a).dev.ctx c0).run = .running ∧ ((s a).dev.ctx c0).outst = [a] ∧ a.kind = .load ∧ a.acc = none ∧ a.n ∈ [1, 2, 4, 8] ∧
    (s a).dev.coh.groups = [] ∧ (s a).dev.coh.accs = [] ∧ (s a).dev.coh.wayWait = [] ∧ a.addr.toNat % a.n = 0 ∧ spaceOf a.addr.toNat = 2 ∧
    inMem a.addr.toNat a.n = true ∧ a.st = false ∧ ((s b).dev.ctx c0).outst = [b] ∧ b.addr.toNat % b.n ≠ 0 ∧ b.st = true ∧ b.rd ≠ 0 := by
  simp only [State.live]; decide

/-- Memory after reset is clean. -/
theorem witness_clean : Dev.reset.mem.clean := fun _ => ⟨rfl, rfl⟩

/-- copy: the longest one, within LOCAL, and one with all tickets held. -/
theorem witness_copy :
    let f : CpyF := { rd := 63, ra := 1, rb := 2, rc := 3, z := 0 }
    let s (dst src n : Word) (l : Tab Ticket) := script c0 [encode (.copy f)] (fun x => { x with g := [(1, dst), (2, src), (3, n)], tickets := l }) owning
    let full := (List.range 64).map (fun i => (i, tk 0 .copy none))
    (s 0x2FFC0 0x2000000000000000 64 []).issues c0 (encode (.copy f)) [63, 1, 2, 3] ∧ ((s 0x2FFC0 0x2000000000000000 64 []).dev.ctx c0).exhausted = false ∧
    localBad 0x2FFC0 64 = false ∧ localBad 0x2000000000000000 64 = false ∧ 0x2FFC0 + 64 ≤ 0x30000 ∧
    (s 0x2FFC0 0x2000000000000000 64 []).dev.checkCopy 0 0x2FFC0 0x2000000000000000 64 = .ok ∧
    (s 0 0 0 []).dev.checkCopy 0 0x2FFC0 0x2000000000200000 64 = .access ∧ (s 0 0 0 []).dev.checkCopy 0 0 0 0 = .badRequest ∧
    (s 0 0 0 full).issues c0 (encode (.copy f)) [63, 1, 2, 3] ∧ ((s 0 0 0 full).dev.ctx c0).exhausted = true := by
  simp only [State.issues, State.live]; decide

/-- enq: a descriptor that R79 takes, one that it rejects, a full queue; EXT at LOCAL's end. -/
theorem witness_enq :
    let f : RegFnF := { rd := 63, ra := 15, rb := 0, fn := 0 }
    let v : Desc := BitVec.ofNat 512 (3 + 15 * 2 ^ 8 + 2 * 2 ^ 12 + 4095 * 2 ^ 210)
    let s (v : Desc) (q : List DescEntry) := script c0 [encode (.enq f)] (fun x => { x with d := [(15, v)] })
      (fun d => { d with eng := { d.eng with queue := [(48 * 16, q)] } })
    (s v []).issues c0 (encode (.enq f)) [63] ∧ ((s v []).dev.ctx c0).exhausted = false ∧ dfld v 210 12 * 64 + 64 ≤ 2 ^ 18 ∧ descRejected v = false ∧
    descRejected (v - 0x300) = true ∧ ((s v []).dev.engQ (descEng c0 v) 0).length < 32 ∧
    32 ≤ ((s v (List.replicate 32 ext0)).dev.engQ (descEng c0 v) 0).length := by
  simp only [State.issues, State.live]; decide +kernel

/-- msg.send, ses, ver and msg.recv. -/
theorem witness_msg :
    let f : RegFnF := { rd := 63, ra := 15, rb := 0, fn := 0 }
    let v : Desc := BitVec.ofNat 512 (1 + 1 * 2 ^ 40 + (2 ^ 18 - 4096) * 2 ^ 192 + 4096 * 2 ^ 210)
    let s (w : BitVec 32) := script c0 [w] (fun x => { x with d := [(15, v)] }) id
    (s (encode (.msgSend f))).issues c0 (encode (.msgSend f)) [63] ∧ ((s (encode (.msgSend f))).dev.ctx c0).exhausted = false ∧
    dfld v 192 18 + dfld v 210 13 ≤ 2 ^ 18 ∧ dfld v 124 4 ≠ 0xA ∧ dfld v 124 4 ≠ 0xB ∧ (s 0).dev.checkSend 0 v = .ok ∧
    ((s 0).dev.sendMsg 0 txn0 (.ctxMsg c0 0 0)).2.isSome = true ∧
    (let full := script c0 [encode (.msgSend f)] (fun x => { x with d := [(15, v)] }) (fun d => { d with flt := { d.flt with fatal := true } })
     full.issues c0 (encode (.msgSend f)) [63] ∧ (full.dev.sendMsg 0 txn0 (.ctxMsg c0 0 0)).2 = none) ∧
    primCheck 0x10 0x19 (BitVec.ofNat 512 (0x11 + 5 * 2 ^ 64)) = .ok ∧ primCheck 0x20 0x2C (BitVec.ofNat 512 (0x29 + 5 * 2 ^ 64 + 2 ^ 192)) = .ok ∧
    (s (encode (.ses f))).issues c0 (encode (.ses f)) [63] ∧ (s (encode (.ver f))).issues c0 (encode (.ver f)) [63] ∧
    (s (encode (.msgRecv { f with rd := 15, ra := 0 }))).issues c0 (encode (.msgRecv { f with rd := 15, ra := 0 })) [] ∧
    (let m : MsgEntry := { srcDev := 4095, len := 4096, addr := 0, notify := 0 }
     let x := { Ctx.reset with msgq := [m], outst := [{ acc0 with kind := .store }] }
     x.msgq ≠ [] ∧ (∀ a ∈ x.outst, a.kind = .store) ∧ Ctx.reset.msgq = []) := by
  simp only [State.issues, State.live]; decide +kernel

/-- csrr and csrw: CUE_NOW, TB_NOW, another register; context 15 and a context of a partition. -/
theorem witness_csr :
    let f : RegFnF := { rd := 0, ra := 1, rb := 2, fn := 0 }
    let r : RegFnF := { rd := 63, ra := 1, rb := 0, fn := 0 }
    let s (c : CtxId) (w : BitVec 32) (a : Nat) := script c [w] (fun x => { x with g := [(1, BitVec.ofNat 64 (8 * 2 ^ 60 + a))] }) id
    (s c0 (encode (.csrr r)) CUE_NOW).issues c0 (encode (.csrr r)) [63, 1] ∧ spaceOf (8 * 2 ^ 60 + CUE_NOW) = 8 ∧ offOf (8 * 2 ^ 60 + CUE_NOW) = CUE_NOW ∧
    (s c0 (encode (.csrr r)) TB_NOW).issues c0 (encode (.csrr r)) [63, 1] ∧ (s c0 0 TB_NOW).dev.tb.sub < 250 ∧ TB_NOW ≠ CUE_NOW ∧
    offOf (8 * 2 ^ 60 + GL_DEV_ID) ≠ CUE_NOW ∧ offOf (8 * 2 ^ 60 + GL_DEV_ID) ≠ TB_NOW ∧
    (s c15 (encode (.csrw f)) GL_DEV_ID).issues c15 (encode (.csrw f)) [1, 2] ∧ c15.ctx = 15 ∧
    (s c0 (encode (.csrw f)) GL_DEV_ID).issues c0 (encode (.csrw f)) [1, 2] ∧ c0.ctx ≠ 15 := by
  simp only [State.issues, State.live]; decide

/-- A word that is no instruction, the PC behind the code, and a legal word. -/
theorem witness_undefined :
    let s (ws : List (BitVec 32)) := script c0 ws id id
    (s [0xFFFFFFFF]).live ∧ ((s [0xFFFFFFFF]).dev.ctx c0).run = .running ∧ (s [0xFFFFFFFF]).dev.wordAt ((s [0xFFFFFFFF]).dev.ctx c0) = some 0xFFFFFFFF ∧
    staticOk 0xFFFFFFFF = false ∧ ((s []).dev.issueSlot c0).isSome = true ∧ (s []).dev.wordAt ((s []).dev.ctx c0) = none ∧
    (s [0xE8001000]).dev.wordAt ((s [0xE8001000]).dev.ctx c0) = some 0xE8001000 ∧ staticOk 0xE8001000 = true := by
  simp only [State.live]; decide

/-! ## Witnesses: contexts, faults and recovery -/

abbrev cue (n : Nat) (d : Dev) : Dev := { d with tb := { d.tb with cueCount := n } }
abbrev fatal' (d : Dev) : Dev := { d with flt := { d.flt with fatal := true } }
abbrev rid0 : ReqId := { link := 0, tag := 0, stream := 0, rseq := 0, tc := 0, cong := false, uid := 1, opcode := 7, rsv := 0 }
abbrev qreq0 : QReq := { req := rid0, txn := txn0, cueIn := 0, admitCues := 5, stamp := 0 }
abbrev bind0 : Binding := { opcode := 7, entry := 0, budget := 5, admitCues := 5, minArg := 64, roles := 1 }
abbrev bundles (d : Dev) : Dev := { d with thr := { d.thr with bundles := [{ img [] with binds := [bind0] }] } }

/-- An ended context with no owner, with an owner and an empty queue, with an owner and a request; one whose ticket still runs. -/
theorem witness_contextFree :
    let s (own : Nat) (q : List QReq) (r : CtxRun) := st (fun d => ({ (bundles d) with thr := { (bundles d).thr with owner := [(0, own)], queue := [(0, q)] } } : Dev).setCtx c0
      { Ctx.reset with run := r, tickets := [(0, tk 0 .copy (some .ok))] })
    (s 0 [] .ended).live ∧ ((s 0 [] .ended).dev.ctx c0).run = .ended ∧ (∀ t ∈ ((s 0 [] .ended).dev.ctx c0).tickets, t.2.done.isSome = true) ∧
    ((s 0 [] .ended).dev.ctx c0).outst = [] ∧ (s 0 [] .ended).dev.ctxPart c0 = none ∧
    (s 1 [] .ended).dev.ctxPart c0 = some 0 ∧ (s 1 [] .ended).dev.dispatchQ c0.tile 0 = [] ∧
    (s 1 [qreq0] .ended).dev.ctxPart c0 = some 0 ∧ (s 1 [qreq0] .ended).dev.dispatchQ c0.tile 0 = [qreq0] ∧
    ((s 1 [qreq0] .ended).dev.binding 0 qreq0.req.opcode).isSome = true ∧ ((s 0 [] .running).dev.ctx c0).run ≠ .ended := by
  simp only [State.live]; decide

/-- A script at its budget, and one cue before. -/
theorem witness_budget :
    let s (n : Nat) := st (fun d => (cue n d).setCtx c0 { Ctx.reset with run := .running, budget := 5 })
    (s 5).live ∧ ((s 5).dev.ctx c0).active = true ∧ ((s 5).dev.ctx c0).startCue + ((s 5).dev.ctx c0).budget ≤ (s 5).dev.tb.cueCount ∧
    ((s 4).dev.ctx c0).active = true ∧ (s 4).dev.tb.cueCount < ((s 4).dev.ctx c0).startCue + ((s 4).dev.ctx c0).budget := by
  simp only [State.live]; decide

/-- Names that ExceptionRecord and EndOfScript quantify over exist. -/
theorem witness_names : ({ tile := 11, core := 15, ctx := 15 } : CtxId).tile < 16 ∧ (Dev.reset.ctx c0).part < 16 ∧
    (Dev.reset.ctx c0).tickets = [] := by decide

abbrev rep0 : Report :=
  { code := 1, sev := 1, step := 0, status := 0, origin := 0, a := 0, b := 0, c := 0, cue := 7, tbase := 0 }

/-- A first report, and one more of the same cue. -/
theorem witness_report :
    let s (l : List Storm) := st (fun d => { d with flt := { d.flt with storm := l } })
    let e : Storm := { origin := 0, code := 1, cue := 7, valid := true, fwd := 1, dup := 0, sup := 0, first := 0, last := 0, used := true }
    (s []).live ∧ rep0.code ≠ 0x0003 ∧ bypassesStorm rep0.code = false ∧ (s []).dev.reg FLT_REPORT_CNT < 2 ^ 62 ∧ (s []).dev.reg FLT_DUP_CNT < 2 ^ 62 ∧
    (∀ e ∈ (s []).dev.flt.storm, ¬(e.origin = rep0.origin ∧ e.code = rep0.code)) ∧ (s []).dev.flt.storm.length < 4096 ∧
    (Tab.get [] (s []).dev.flt.staging (rep0.origin.toNat / 16 % 16)).length < 256 ∧
    (s [e]).dev.flt.storm.find? (fun e => e.origin == rep0.origin && e.code == rep0.code) = some e ∧ e.valid = true ∧ e.cue = rep0.cue ∧
    (2 ^ 63 - 2) % 2 ^ 63 + 1 = 2 ^ 63 - 1 := by
  simp only [State.live]; decide

/-- A staged entry before the book's last position, and the lengths of PB_READ. -/
theorem witness_promptBook :
    let e : PbEntry := reportEntry rep0
    let s := st (fun d => { d with flt := { d.flt with staging := [(11, [e])], head := 2 ^ 32 - 1 }, pwr := { d.pwr with memDone := true } })
    s.live ∧ s.dev.pwr.memDone = true ∧ Tab.get [] s.dev.flt.staging 11 = [e] ∧ e.kind ≠ 1 ∧ e.kind ≠ 3 ∧ s.dev.flt.head < 2 ^ 32 ∧
    1 ≤ 64 ∧ 64 < 65 := by
  simp only [State.live]; decide

/-- A counter, a register that is none, an address outside CSR space; a fatal declaration 17 cues old that a warm reset follows. -/
theorem witness_counter :
    let a : Word := BitVec.ofNat 64 (8 * 2 ^ 60 + FLT_REPORT_CNT)
    let s := st (fun d => { (cue 17 d) with flt := { d.flt with fatal := true, after := 4 } })
    spaceOf a.toNat = 8 ∧ offOf a.toNat < 2 ^ 24 ∧ (csrFam (offOf a.toNat)).any (·.counter) = true ∧ (csrFam GL_DEV_ID).any (·.counter) = false ∧
    spaceOf 0 ≠ 8 ∧ s.live ∧ s.dev.flt.fatal = true ∧ s.dev.stepBegins 4 = true := by
  simp only [State.live]; decide

/-- A context past its grace; a hung engine; every step, with AUTO_MAX from 2 to 5. -/
theorem witness_recovery :
    let s (w : Bool) (n : Nat) := st (fun d => ({ (cue n d) with eng := { d.eng with queue := [(16 * 16, [ext0])] } } : Dev).setCtx c0
      { Ctx.reset with run := .running, wdogFired := w })
    let a (n : Nat) := st (reg FLT_CFG (n * 2 ^ 32))
    (s false 64).live ∧ (s false 64).dev.wdogDue c0 = true ∧ (s false 7).dev.wdogDue c0 = false ∧
    ((s true 64).dev.engQ e0 0).find? (fun x => ((s true 64).dev.ctx x.ctx).wdogFired) = some ext0 ∧ ¬(e0 ∈ (s true 64).dev.eng.hung) ∧
    Tab.get 0 (s true 64).dev.eng.lastUnit (engKey e0) + (s true 64).dev.wdogGrace ≤ (s true 64).dev.tb.cueCount ∧
    c0.tile < 12 ∧ c0.ctx ≠ 15 ∧ ((s true 64).dev.ctx c0).run ≠ .free ∧ (s true 64).dev.flt.fatal = false ∧
    engExists e0 = true ∧ engExists { e0 with cls := 4, inst := 1 } = false ∧
    (a 3).dev.autoMax < 4 ∧ (a 4).dev.autoMax = 4 ∧ (a 5).dev.autoMax = 5 ∧ (st fatal').dev.flt.fatal = true := by
  simp only [State.live]; decide +kernel

/-! ## Witnesses: requests, answers and records -/

/-- Link 0 is up in a role, and its stream 0 is partition 0's. -/
abbrev linked (role : Nat) (d : Dev) : Dev :=
  ({ d with links := [(0, { Link.reset with state := .up })] } : Dev).putReg GL_LINK_CFG (1 + 2 * role) |>.putReg SEC_STRM 0x10

/-- A request that passes and is taken; ones that each check refuses; a tag at the allowance. -/
theorem witness_requests :
    let s := st (linked 1)
    s.live ∧ s.dev.passes 0 0 txn0 ∧ ((s.dev.takenIn 0 1 txn0).1.streamPart 0 0 = some 0) ∧ (s.dev.takenIn 0 1 txn0).1.tagRec 0 0 = none ∧
    (s.dev.takenIn 0 0 { txn0 with len := 0 }).1.checkRequest 0 0 { txn0 with len := 0 } = .badRequest ∧
    s.dev.passes 0 15 txn0 ∧
    (let z := st (fun d => owning (linked 1 d))
     let t : Txn := { txn0 with addr := 0x2000000000000000 }
     z.live ∧ z.dev.passes 0 0 t ∧ (z.dev.takenIn 0 0 t).1.checkRequest 0 0 t = .ok ∧ (z.dev.takenIn 0 0 t).1.streamPart 0 0 = some 0 ∧
       (z.dev.takenIn 0 0 t).1.tagRec 0 0 = none) := by
  simp only [State.live, Dev.passes]; decide +kernel

theorem witness_checkOrder :
    let d := linked 1 Dev.reset
    let t : Txn := { txn0 with tag := 6144 }
    d.tagLimit 0 ≤ t.tag.toNat ∧ check1 0 txn0 = false ∧ txn0.tag.toNat < d.tagLimit 0 ∧ (linked 2 Dev.reset).role 0 ≠ 1 ∧
    (linked 2 Dev.reset).role 0 ≠ 3 ∧ (linked 3 Dev.reset).role 0 = 3 ∧ d.role 0 = 1 ∧ d.streamPart 0 1 = none ∧ d.streamPart 0 0 = some 0 ∧
    6 ≤ ({ txn0 with tc := 6 } : Txn).tc.toNat ∧ bitAt ((reg POL_PRIV 0 d).regFld POL_PRIV 0 16) 0 = false ∧
    4096 < ({ txn0 with len := 4097 } : Txn).len.toNat := by decide +kernel

/-- A MSG for this device, and one for another. -/
theorem witness_messages :
    let s := st (fun d => reg GL_DEV_ID 5 (reg SEC_LINK 0x10000 (linked 3 d)))
    let t : Txn := { txn0 with len := 0, route := { route0 with dstDev := 5, srcDev := 9, hops := 1, notify := 0xB000000000000000 } }
    let u : Txn := { t with route := { t.route with dstDev := 6 } }
    s.live ∧ s.dev.passes 0 5 t ∧ t.route.dstDev.toNat = s.dev.devId ∧ s.dev.role 0 = 3 ∧
    Tab.find? (s.dev.takenIn 0 5 t).1.txn.msgTags (msgKey 9 0) = none ∧ (s.dev.takenIn 0 5 t).1.checkMsg 0 t = .ok ∧
    s.dev.passes 0 5 u ∧ u.route.dstDev.toNat ≠ s.dev.devId := by
  simp only [State.live, Dev.passes]; decide +kernel

/-- A binding with the largest argument, a free context, a full queue. -/
theorem witness_dispatch :
    let d (run : CtxRun) := (({ (bundles (linked 1 Dev.reset)) with thr := { (bundles (linked 1 Dev.reset)).thr with owner := [(0, 1)] } } : Dev)).setCtx c0 { Ctx.reset with run := run }
    let t : Txn := { txn0 with data := List.replicate 192 0 }
    ((d .free).binding 0 7).isSome = true ∧ (d .free).binding 0 8 = none ∧ t.data.length ≤ 192 ∧ bind0.minArg ≤ t.data.length ∧
    txn0.data.length < bind0.minArg ∧ bitAt bind0.roles (if (d .free).role 0 = 3 then 1 else 0) = true ∧
    bitAt bind0.roles (if (linked 3 Dev.reset).role 0 = 3 then 1 else 0) = false ∧ (d .free).freeCtx 0 (opreqTile 0 t) = some c0 ∧
    (d .running).freeCtx 0 (opreqTile 0 t) = none ∧ ((d .running).thrCfg 0).2.1 ≤ ((d .running).dispatchQ (opreqTile 0 t) 0).length ∧
    (let e := { d .running with thr := { (d .running).thr with cfg := [(0, (1, 1, 1))] } }
     (e.dispatchQ (opreqTile 0 t) 0).length < (e.thrCfg 0).2.1) := by decide +kernel

abbrev reqt0 : ReqTag := { link := 0, part := 0, typ := 1, txn := txn0, phase := .sent, n := 0, lastSend := 0, purpose := .ctxMsg c0 0 0 }

/-- An answer that matches a request, and one that does not. -/
theorem witness_answers :
    let s := st (fun d => { (linked 3 d) with txn := { d.txn with req := [(0, reqt0)] } })
    let y := (s.dev.passCells 0).noteCong 0 0 false
    s.live ∧ s.dev.isUp 0 = true ∧ y.passesBy 0 ans0 = none ∧ y.answered 0 ans0 = some (0, reqt0) ∧ y.answered 0 { ans0 with rseq := 1 } = none ∧
    s.dev.spellsAnswer 0 ans0 false = true ∧ s.dev.spellsAnswer 0 ans0 true = true ∧ s.dev.spellsEvt 0 7 false = true ∧ ans0.compl = false ∧
    statusOf 0xD = some .busy ∧
    (let a : Answer := { ans0 with route := some { route0 with dstDev := 6 } }
     let f := st (fun d => reg GL_DEV_ID 5 (linked 3 d))
     ((f.dev.passCells 0).noteCong 0 0 false).passesBy 0 a = some 6 ∧
       ((f.dev.passCells 0).noteCong 0 0 false).leastQueued (((f.dev.passCells 0).noteCong 0 0 false).fwdLinks 6) = none) := by
  simp only [State.live]; decide +kernel

abbrev trec0 : TagRec :=
  { id := rid0, kind := .opreq, done := true, status := .ok, aux := 0, ret := [1], dropped := false, receipted := false, again := [], doneCue := 0 }

/-- Records and tags at their times, and one cue before. -/
theorem witness_records :
    let s (r : TagRec) := st (fun d => { (cue 48 d) with txn := { d.txn with tags := [(0, r)] } })
    (s trec0).live ∧ (s trec0).dev.tagRec 0 0 = some trec0 ∧ trec0.done = true ∧ trec0.kind = .opreq ∧ trec0.ret ≠ [] ∧
    trec0.doneCue + 48 ≤ (s trec0).dev.tb.cueCount ∧ (s { trec0 with done := false }).dev.tagRec 0 0 = some { trec0 with done := false } ∧
    (let q (n : Nat) (r : ReqTag) := st (fun d => { (cue n d) with txn := { d.txn with req := [(0, r)] } })
     Tab.find? (q 8 reqt0).dev.txn.req 0 = some reqt0 ∧ reqt0.phase = .sent ∧ reqt0.lastSend + 8 ≤ (q 8 reqt0).dev.tb.cueCount ∧ reqt0.n < 3 ∧
       (q 7 reqt0).dev.tb.cueCount < reqt0.lastSend + 8 ∧ Tab.find? (q 8 { reqt0 with n := 3 }).dev.txn.req 0 = some { reqt0 with n := 3 } ∧
       (let r := { reqt0 with phase := .receipted, typ := 5 }
        Tab.find? (q 24 r).dev.txn.req 0 = some r ∧ r.lastSend + (if r.typ = 5 then 24 else 40) ≤ (q 24 r).dev.tb.cueCount) ∧
       (let r := { reqt0 with phase := .lost }
        Tab.find? (q 8 r).dev.txn.req 0 = some r ∧ r.lastSend + 8 ≤ (q 8 r).dev.tb.cueCount)) ∧
    (let m : MsgRec := { id := rid0, txn := txn0, rseq := 0, done := true, status := .ok, aux := 0, receipted := false, doneCue := 0, stored := none }
     let z := st (fun d => { (cue 128 d) with txn := { d.txn with msgTags := [(4095 * 8192 + 8191, m)] } })
     Tab.find? z.dev.txn.msgTags ((4095 : BitVec 12).toNat * 8192 + (8191 : BitVec 13).toNat) = some m ∧ m.done = true ∧ m.doneCue + 128 ≤ z.dev.tb.cueCount) ∧
    (let m : MsgRec := { id := { rid0 with link := 0 }, txn := txn0, rseq := 0, done := false, status := .ok, aux := 0, receipted := false, doneCue := 0, stored := none }
     let z := st (fun d => { (linked 3 d) with txn := { d.txn with msgTags := [(0, m)] } })
     z.live ∧ z.dev.rsvFits 0 1 = true ∧ z.dev.tagRec 0 0 = none ∧ z.dev.msgPending 0 0 = some (0, m) ∧ z.dev.waitingFor 0 0 = none) ∧
    (s { trec0 with done := false }).dev.rsvFits 0 1 = true ∧ (s trec0).dev.msgPending 0 0 = none ∧ (s trec0).dev.waitingFor 0 0 = none := by
  simp only [State.live]; decide +kernel

abbrev held0 : HeldWrf :=
  { txn := txn0, id := rid0, rseq := 3, pos := 131075, accepted := 0, seq := 1, dataDone := some .ok, waitFor := [], failing := false }

/-- A WRF whose flag may be written; one that waits 40 cues, and 39; notices, EVTs and edges. -/
theorem witness_wrf :
    let s (n : Nat) (h : HeldWrf) := st (fun d => { (cue n d) with txn := { d.txn with src := [(srcKey 0 0, { WrfSrc.reset with held := [h] })] } })
    let w : HeldWrf := { held0 with txn := { txn0 with priorCnt := 1 } }
    (s 0 held0).live ∧ ((s 0 held0).dev.src 0 0).held.find? (fun h => h.rseq == (3 : BitVec 16).toNat) = some held0 ∧
    flagReady ((s 0 held0).dev.src 0 0) held0 = true ∧ held0.failing = false ∧
    ((s 40 w).dev.src 0 0).held.find? (fun h => h.rseq == (3 : BitVec 16).toNat) = some w ∧ w.accepted + 40 ≤ (s 40 w).dev.tb.cueCount ∧
    countReached ((s 40 w).dev.src 0 0) w = false ∧ wrfFailed ((s 40 w).dev.src 0 0) w = false ∧ (s 39 w).dev.tb.cueCount < w.accepted + 40 ∧
    (let r : Resend := { id := 1, part := 0, group := 0, uid := 0, unsent := false, txn := txn0, due := 5, until' := 6 }
     let q (n : Nat) := st (fun d => { (cue n d) with txn := { d.txn with resends := [r] } })
     (q 5).dev.txn.resends.find? (fun r => r.id == 1) = some r ∧ r.due ≤ (q 5).dev.tb.cueCount ∧ (q 5).dev.tb.cueCount < r.until' ∧
       r.until' ≤ (q 6).dev.tb.cueCount ∧
       (({ (q 5).dev with txn := { (q 5).dev.txn with resends := [] } } : Dev).sendMsg r.part r.txn (.notice r.part r.group r.uid r.until')).2.isSome = true) ∧
    (let e : EvtRep := { id := 1, links := [0], code := 1, info := 0, left := 1, spacing := 1, due := 5 }
     let q (n : Nat) := st (fun d => { (cue n d) with txn := { d.txn with evts := [e] } })
     (q 4).dev.txn.evts.find? (fun e => e.id == 1) = some e ∧ (q 4).dev.tb.cueCount < e.due ∧ e.due ≤ (q 5).dev.tb.cueCount ∧ e.left ≤ 1) ∧
    16 < 17 := by
  simp only [State.live]; decide +kernel

/-! ## Witnesses: coherence -/

/-- Agent 0 is active on link 0, with 16 ways, and partition 0 owns frame 0 of NEAR. -/
abbrev agent (s : CaState) (d : Dev) : Dev :=
  ({ (linked 1 d) with coh := { d.coh with state := [(0, s)] } } : Dev).putReg GL_CA_CFG (1 + 15 * 2 ^ 5 + 2 ^ 13) |>.putReg SEC_RANGE (1 + 2 ^ 25)
abbrev cohN : CohMsg := { coh0 with way := 15, addr := 0x1000000000000080 }

/-- A new request of an active agent, of a draining one; what is no request. -/
theorem witness_cohRequests :
    let s := st (agent .active)
    s.live ∧ (s.dev.takeRx 0 1).newRequest 0 1 cohN ∧ (s.dev.takeRx 0 1).newRequest 0 5 { cohN with d := true, data := List.replicate 128 0 } ∧
    (s.dev.takeRx 0 1).caState 0 = .active ∧ (s.dev.takeRx 0 1).owns ((s.dev.takeRx 0 1).caPart 0) cohN.addr.toNat 128 = true ∧
    inPromptBook cohN.addr.toNat 128 = false ∧ (s.dev.takeRx 0 1).coh.filter = [] ∧
    (st (agent .draining)).dev.newRequest 0 1 cohN ∧ (st (agent .draining)).dev.caState 0 = .draining ∧ 5 < (6 : BitVec 5).toNat ∧ (15 : BitVec 5).toNat < 16 ∧
    s.dev.spellsCoh 0 1 1 cohN = true ∧ s.dev.spellsCoh 0 1 15 coh0 = true ∧ s.dev.spellsCoh 0 3 31 coh0 = true ∧
    (let d := s.dev
     let z : Dev := { d with coh := { d.coh with filter := [(d.wayKey 0 1 15, { line := 12289, st := .s })] } }
     z.newRequest 0 1 cohN ∧ z.wayTaken 1 cohN = true ∧ z.caState 0 = .active) := by
  simp only [State.live, Dev.newRequest]; decide +kernel

theorem witness_mayFill : ((st (agent .active)).dev.takeRx 0 1).mayFill cohN :=
  ⟨by decide +kernel, by decide +kernel, by decide +kernel, fun e h => by
    have : ((st (agent .active)).dev.takeRx 0 1).coh.filter = [] := by decide +kernel
    rw [this] at h; simp [Tab.find?] at h⟩

/-- An idle line that nobody holds, that another agent shares or owns, that the agent holds in each state; a marked line. -/
theorem witness_grants :
    let d (l : List (Nat × FState)) := { (agent .active Dev.reset) with
      coh := { (agent .active Dev.reset).coh with filter := l.foldl (fun f (e : Nat × FState) => Tab.insert f ((agent .active Dev.reset).wayKey e.1 1 0) { line := 1, st := e.2 }) [] } }
    (d []).caState 0 = .active ∧ (d []).wayTaken 1 coh0 = false ∧ (d [(0, .s)]).wayTaken 1 coh0 = false ∧ (d [(1, .em)]).wayTaken 1 coh0 = false ∧ (d []).entryOf 0 1 = none ∧ (d []).others 0 1 = [] ∧ (d [(1, .s)]).others 0 1 ≠ [] ∧ (∀ h ∈ (d [(1, .s)]).others 0 1, h.2 = .s) ∧
    (d [(1, .s)]).entryOf 0 1 = none ∧ ((d [(0, .s)]).entryOf 0 1).map (·.2) = some .s ∧ ((d [(0, .s)]).clearEntry 0 1).entryOf 0 1 = none ∧
    (d [(0, .s)]).others 0 1 = [] ∧ ((d [(0, .em)]).entryOf 0 1).map (·.2) = some .em ∧ ((d [(0, .em)]).clearEntry 0 1).entryOf 0 1 = none ∧
    ((d [(0, .o)]).entryOf 0 1).map (·.2) = some .o ∧ ((d [(0, .o)]).clearEntry 0 1).entryOf 0 1 = none ∧ (d [(0, .em)]).mirrors = false ∧
    ((d [(1, .em)]).others 0 1).find? (fun h => h.2 != .s) = some (1, .em) ∧ (d [(1, .em)]).entryOf 0 1 = none ∧ (d [(1, .em)]).lineMarked 1 = false := by
  decide +kernel

abbrev htxn0 (f : HomeFor) : HomeTxn :=
  { txid := 3, serves := f, snp := .sni, waiting := [(0, 0)], resp := [], data := none, resends := 0, lastSend := 0, grant := none }
abbrev lined (n : Nat) (h : HLine) (d : Dev) : Dev :=
  { (agent .active (cue n d)) with coh := { (agent .active (cue n d)).coh with lines := [(1, h)] } }

/-- Lines that wait for an SR, one or two, and for GACK; their timers on time and a cue early. -/
theorem witness_snoops :
    let h : HLine := { phase := .waitSnp, txn := some (htxn0 (.drain 0)), queue := [] }
    let m : CohMsg := { coh0 with id := 3, addr := 0x1000000000000080 }
    let g : HomeTxn := { (htxn0 (.coh 0 1 cohN)) with waiting := [], grant := some (0x19, coh0) }
    let k : HLine := { phase := .waitAck, txn := some g, queue := [] }
    (st (lined 2 h)).live ∧ (st (lined 2 h)).dev.spellsCoh 0 3 0x10 m = true ∧ m.htile.toNat = lineHome (cohLine m) ∧
    (st (lined 8 k)).dev.spellsCoh 0 3 0x11 { cohN with way := 0 } = true ∧ spaceOf cohN.addr.toNat = 1 ∧ cohMalformed 0x10 m = false ∧ ((st (lined 2 h)).dev.takeRx 0 3).cohTaken 0 m = true ∧
    (((st (lined 2 h)).dev.takeRx 0 3).hline (cohLine m)).txn = some (htxn0 (.drain 0)) ∧
    (((st (lined 2 h)).dev.takeRx 0 3).hline (cohLine m)).phase = .waitSnp ∧ (htxn0 (.drain 0)).txid = m.id.toNat ∧ spaceOf m.addr.toNat = 1 ∧
    (htxn0 (.drain 0)).waiting.any (fun w => w.1 == m.ca.toNat) = true ∧
    newstOk (htxn0 (.drain 0)).snp ((((st (lined 2 h)).dev.takeRx 0 3).entryOf m.ca.toNat (cohLine m)).map (·.2)) m.newst.toNat = true ∧
    (htxn0 (.drain 0)).waiting.filter (fun w => w.1 ≠ m.ca.toNat) = [] ∧ [(0, 0), (1, 0)].filter (fun (w : Nat × Nat) => w.1 ≠ 0) ≠ [] ∧
    cohMalformed 0x11 { cohN with way := 0 } = false ∧ (((st (lined 8 k)).dev.takeRx 0 3).hline 1).txn = some g ∧
    (((st (lined 8 k)).dev.takeRx 0 3).hline 1).phase = .waitAck ∧ sameReq { cohN with way := 0 } g.serves = true ∧
    ((st (lined 2 h)).dev.hline 1).phase = .waitSnp ∧ (htxn0 (.drain 0)).lastSend + 2 ≤ (st (lined 2 h)).dev.tb.cueCount ∧ (htxn0 (.drain 0)).resends < 3 ∧
    g.grant.isSome = true ∧ g.lastSend + 8 ≤ (st (lined 8 k)).dev.tb.cueCount := by
  simp only [State.live]; decide +kernel

/-- Agents to be enabled, disabled and drained. -/
theorem witness_agents :
    let s := st (linked 1)
    let v : Word := BitVec.ofNat 64 (15 * 2 ^ 5 + 13 * 2 ^ 9 + 2 ^ 13)
    s.live ∧ s.dev.caState 15 = .disabled ∧ v.toNat < 2 ^ 49 ∧ fld v.toNat 9 4 ≤ 13 ∧
    (∀ k ∈ bitsSet 36 (fld v.toNat 13 36), s.dev.role k = 1 ∧ ∀ j, j < 16 → j ≠ 15 → s.dev.regFld (GL_CA_CFG + 8 * j) 0 1 = 1 → k ∉ s.dev.caLinks j) ∧
    (st (agent .active)).dev.caState 0 = .active ∧ (st (agent .draining)).dev.caState 0 = .draining ∧ (st (agent .draining)).dev.linesOf 0 = [] ∧
    (st (agent .draining)).dev.coh.lines = [] := by
  simp only [State.live]; decide +kernel

/-! ## Witnesses: the switch core and the engines -/

abbrev qp0 : QPkt := { handle := 1, wire := .evt 1 0 false, len := 16, color := .green, cells := [5], cueIn := 0, rsv := 0, flits := 0, receipted := false }

/-- Markers: each colour at its boundary; settings that are taken and that are rejected; the audit's settings. -/
theorem witness_markers :
    let d (tc tp : Nat) := { Dev.reset with sw := { Sw.reset with burst := [(287, BitVec.ofNat 64 (2 ^ 48))], tc := [(287, tc)], tp := [(287, tp)] } }
    let l := Dev.reset.lenOn 35 64 * 256
    ((d 0 0).marker 287).en = true ∧ (Dev.reset.marker 287).en = false ∧ ((d 0 (l - 1)).police 35 7 64).2 = .red ∧ ((d (l - 1) l).police 35 7 64).2 = .yellow ∧
    ((d l l).police 35 7 64).2 = .green ∧ (st id).live ∧
    markerBad 0 (4199 + 4199 * 2 ^ 24 + 2 ^ 48) = false ∧ markerBad 0 (4198 + 4199 * 2 ^ 24 + 2 ^ 48) = true ∧ markerBad 1 (4199 + 4199 * 2 ^ 24 + 2 ^ 48) = true ∧
    bitAt (Dev.reset.reg (POL_BURST + 16 * 287)) 48 = false ∧ bitAt ((reg (POL_BURST + 16 * 287) (2 ^ 48) Dev.reset).reg (POL_BURST + 16 * 287)) 48 = true ∧
    512 ≤ fld 512 0 16 ∧ fld 511 0 16 < 512 ∧ (reg SW_AUDIT_CFG (2 ^ 16 + 512) (cue 4000 Dev.reset)).regFld SW_AUDIT_CFG 16 1 = 1 ∧
    Sw.reset.auditCue + 4000 ≤ (cue 4000 Dev.reset).tb.cueCount ∧ (cue 3999 Dev.reset).tb.cueCount < Sw.reset.auditCue + 4000 ∧
    (reg SW_AUDIT_CFG 512 Dev.reset).regFld SW_AUDIT_CFG 16 1 ≠ 1 := by
  simp only [State.live]; decide +kernel

/-- What a link sends: an answer, class 7, class 6; credits that are enough and that are not; a gap 8 cues old. -/
theorem witness_egress :
    let d (q : Nat) (g : Nat) := { (linked 1 Dev.reset) with
      links := [(0, { Link.reset with state := .up, chans := [(0, { Chan.reset with txGrant := g })] })], sw := { Sw.reset with queues := [(q, [qp0])] } }
    (d 576 1).swQ (answerQ 0) = [qp0] ∧ (d 295 1).swQ (answerQ 0) = [] ∧ (d 295 1).swQ (classQ 0 7) = [qp0] ∧ (d 295 1).shaperLets 0 7 qp0 = true ∧
    (d 294 1).swQ (classQ 0 7) = [] ∧ (d 294 1).swQ (classQ 0 6) = [qp0] ∧ (d 294 1).shaperLets 0 6 qp0 = true ∧ (at' (d 576 1)).live ∧
    (d 576 1).isUp 0 = true ∧ ((d 576 1).egress 0).2 = some (576, qp0) ∧ ((d 576 1).chan 0 0).txSlots = [] ∧ (d 576 1).flitsFor 0 (wireBytes qp0.wire) + 0 ≤ ((d 576 1).chan 0 0).txGrant ∧
    ((d 576 0).chan 0 0).txGrant < (d 576 0).flitsFor 0 (wireBytes qp0.wire) + 0 := by
  simp only [State.live]; decide +kernel

theorem witness_reseq :
    let s (n : Nat) := st (fun d => { (cue n d) with sw := { d.sw with flows := [(0, { sent := 3, exp := 65535, flight := [], held := [(1, (0, 0, 1, pf0))], waits := [] })] } })
    (s 8).live ∧ ((s 8).dev.flow 0).held ≠ [] ∧ (∃ e ∈ ((s 8).dev.flow 0).held, e.2.1 + 8 ≤ (s 8).dev.tb.cueCount) ∧
    (∀ e ∈ ((s 7).dev.flow 0).held, (s 7).dev.tb.cueCount < e.2.1 + 8) := by
  simp only [State.live]; decide +kernel

/-- A packet that is expected, with the one after it held; one outside the window, one before a gap; a packet to be numbered, and one that must wait. -/
theorem witness_flows :
    let f : Reseq := { sent := 0, exp := 65535, flight := [], held := [(0, (0, 0, 1, pf0))], waits := [(3, 0, 1, pf0)] }
    f.exp < 65536 ∧ f.sent < 65536 ∧ (f.arrive 7 65535 (3, 0, 1, pf0)).2.1.length = 2 ∧ 4096 ≤ (4095 + 65536 - f.exp) % 65536 ∧
    (Tab.find? f.held 0).isSome = true ∧ Tab.find? f.held 4094 = none ∧ Tab.find? f.held f.exp = none ∧ (4094 + 65536 - f.exp) % 65536 < 4096 ∧
    (∀ e ∈ f.flight, 7 < e.2.1) ∧ f.waits = [(3, 0, 1, pf0)] ∧ (f.sent + 65536 - f.exp) % 65536 < 4096 ∧
    4096 ≤ (({ f with sent := 4095 } : Reseq).sent + 65536 - f.exp) % 65536 := by decide +kernel

/-- Engine e works next on a descriptor of an operation, with more fields, of partition 0. -/
abbrev desc (cls op more : Nat) : DescEntry := { ext0 with word := BitVec.ofNat 512 (cls + op * 2 ^ 12 + more) }
abbrev queued (e : EngId) (l : List DescEntry) (d : Dev) : Dev := { d with eng := { d.eng with queue := [(engQKey e 0, l)] } }

/-- A descriptor whose first work unit has run, of a snoop that is attached. -/
abbrev ran (x : DescEntry) : DescEntry := { x with started := true, work := 1, target := some 9 }

/-- Work units of every operation that start, a descriptor that its first check ends, and one that finds no slot. -/
theorem witness_starts :
    (∀ x ∈ ([(0, 1), (0, 2), (0, 3), (1, 1), (1, 2), (1, 3), (2, 1), (2, 2), (3, 1), (3, 2), (4, 1), (4, 2), (5, 1), (5, 2), (5, 3)] : List (Nat × Nat)),
      let e : EngId := { tile := 11, cls := x.1, inst := 0 }
      (st (queued e [ran (desc x.1 x.2 0)])).starts e 0 x.1 x.2 noPre (ran (desc x.1 x.2 0)) ∧
        (st (queued e [ran (desc x.1 x.2 0)])).dev.shadowDue e 0 = false) ∧
    (let e : EngId := { tile := 11, cls := 5, inst := 0 }
     let s := st (queued e [desc 5 1 0])
     let z := st (fun d => { (queued e [ran (desc 5 1 0)] d) with tb := { d.tb with cueLen := 16 }, pwr := { d.pwr with duty := 0 } })
     s.live ∧ e ∉ s.dev.eng.hung ∧ s.dev.atWork e 0 = some (desc 5 1 0) ∧ (desc 5 1 0).op = 1 ∧ (desc 5 1 0).work = 0 ∧
       computePre e s.dev (desc 5 1 0) ≠ .ok ∧ z.dev.atWork e 0 = some (ran (desc 5 1 0)) ∧ z.dev.engSlot e 0 = none ∧ (ran (desc 5 1 0)).work ≠ 0) := by
  simp only [State.starts, State.live]; decide +kernel

theorem witness_engines :
    let e : EngId := { tile := 0, cls := 0, inst := 0 }
    (∀ p ∈ [JobPhase.fresh, .loaded, .scored, .selected],
      (st (queued e [{ ran (desc 0 2 0) with phase := p }])).starts e 0 0 2 jobPre { ran (desc 0 2 0) with phase := p }) ∧
    (st id).dev.atWork e 0 = none ∧ e ∈ (st (fun d => { d with eng := { d.eng with hung := [e] } })).dev.eng.hung ∧
    (st (fun d => { d with eng := { d.eng with shadows := [desc 0 1 0] } })).dev.eng.shadows.find?
      (fun x => x.part == 0 && descEng x.ctx x.word == e && ((st id).dev.findDesc x.id).isNone) = some (desc 0 1 0) ∧
    crcBad (desc 5 1 0) = true ∧ lenBad (desc 5 1 ((2 ^ 26 + 1) * 2 ^ 448)) = true ∧ lenBad (desc 5 1 0) = true ∧
    2 ^ 26 < (desc 4 1 ((2 ^ 26 + 1) * 2 ^ 256)).fl 256 27 ∧ (desc 4 1 (4095 * 2 ^ 256)).fl 256 27 % 4096 ≠ 0 := by
  simp only [State.starts, State.live]; decide +kernel

/-- OPEN of an integer sum of 0 elements with one local contributor, without a tree. -/
abbrev openX : DescEntry := desc 1 1 (13 * 2 ^ 103 + 13 * 2 ^ 107 + 1 * 2 ^ 132 + 1 * 2 ^ 151)

theorem witness_open :
    let s := st (queued e0 [openX])
    let g := groupOf openX (s.dev.reg RDC_CFG) s.dev.tb.cueCount []
    s.starts e0 0 1 1 (openPre e0) openX ∧ openPre e0 s.dev openX = .ok ∧ g.role = 0 ∧
    spaceOf (openX.fl 320 64) ≠ 3 ∧ spaceOf (openX.fl 320 64) ≠ 4 ∧ s.dev.coh.groups = [] ∧ (s.dev.rdc.groups.filter (fun h => groupEngine h.gid == e0)).length < 64 ∧
    s.dev.group 0 g.gid = none ∧ s.dev.rdc.early = [] := by
  simp only [State.starts, State.live]; decide +kernel

abbrev group0 : Group :=
  { uid := 0, evtEn := false, sending := false, part := 0, gid := 0, state := .collect, oper := 0, fast := false, allred := false, role := 0, inFmt := 13, outFmt := 13, count := 0, nlocal := 1, nchild := 0,
    tc := 0, deadline := 5, stage := 0, result := 0, tree := [], owner := c0, slot := 0, gen := 0, openCue := 0, hold := 16, contribs := [],
    chunks := [], ends := [], resChunks := [], sat := false, ovf := false, nan := false, reason := 0, origin := 0, endCue := 0, resEnd := none, waitMack := [] }

/-- CONTRIB and ABORT of a group; a group that is ready, at its DEADLINE, and 16 cues after its end; an early entry. -/
theorem witness_groups :
    let s (n : Nat) (g : Group) (x : DescEntry) := st (fun d => { (cue n (queued e0 [x] d)) with rdc := { d.rdc with groups := [g] } })
    let r : Group := { group0 with contribs := [(0, .ctx c0 0 0)] }
    let f : Group := { group0 with state := .done }
    (s 0 group0 (desc 1 2 0)).starts e0 0 1 2 noPre (desc 1 2 0) ∧ (s 0 group0 (desc 1 2 0)).dev.group 0 0 = some group0 ∧ (desc 1 2 0).fl 64 32 = 0 ∧
    (desc 1 2 0).fl 96 16 < group0.nlocal ∧ Tab.find? group0.contribs 0 = none ∧ (s 0 group0 (desc 1 3 0)).starts e0 0 1 3 noPre (desc 1 3 0) ∧
    group0.state ≠ .done ∧ (s 0 r (desc 1 3 0)).dev.group 0 0 = some r ∧ r.state = .collect ∧ r.ready = true ∧ groupEngine 0 ∉ (s 0 r (desc 1 3 0)).dev.eng.hung ∧
    ((s 0 r (desc 1 3 0)).dev.groupSlot (groupEngine 0) 0).isSome = true ∧ group0.ready = false ∧
    r.openCue + r.deadline ≤ (s 5 r (desc 1 3 0)).dev.tb.cueCount ∧ (s 4 r (desc 1 3 0)).dev.tb.cueCount < r.openCue + r.deadline ∧
    (s 16 f (desc 1 3 0)).dev.group 0 0 = some f ∧ f.live = false ∧ f.endCue + f.hold ≤ (s 16 f (desc 1 3 0)).dev.tb.cueCount ∧ group0.live = true ∧
    (let z := fun n => st (fun d => { (cue n d) with rdc := { d.rdc with early := [(11, [.contrib (.ctx c0 0 0) 0 0 0 0])] } })
     ((z 1).dev.earlyTable 11)[0]? = some (.contrib (.ctx c0 0 0) 0 0 0 0) ∧ 0 + earlyOf ((z (earlyOf ((z 0).dev.reg RDC_CFG))).dev.reg RDC_CFG) ≤
       (z (earlyOf ((z 0).dev.reg RDC_CFG))).dev.tb.cueCount ∧ (z 0).dev.tb.cueCount < 0 + earlyOf ((z 0).dev.reg RDC_CFG)) := by
  simp only [State.starts, State.live]; decide +kernel

/-! ## Witnesses: gather tables, tickets, calibration -/

abbrev ready' (d : Dev) : Dev := { d with pwr := { d.pwr with ready := true } }
abbrev ver0 : Version := { state := .head, base := 0, len := 4096, holders := 65534, pending := 0, slot := 0, pub := none, askers := [], index := 0, cleaned := [] }
abbrev reg0 : Region := { part := 0, gen := 0, policy := 0, mirrored := false, head := 1, next := 3, session := 0, copies := [], dying := none }
/-- Region 0 with versions 1 and 2. -/
abbrev regions (r : Region) (v w : Version) (d : Dev) : Dev :=
  reg VER_VER_CNT 4 (reg VER_EXT_CNT 2 (reg VER_REG_CNT 1 { d with ver := { d.ver with regions := [(0, r)], versions := [(1, v), (2, w)] } }))
abbrev table0 : TableAdd := { region := rg0, version := 0, rows := 256, rowBytes := 16, fmt := 0, dim := 4, share := 1 }

theorem pickOne_single (d : Dev) (p a : Nat) : (d.pickOne p [a]).2 = some a := by simp [Dev.pickOne, Nat.mod_one]

/-- A choice among some is one of them. -/
theorem pickOne_some (d : Dev) (p : Nat) (l : List Nat) (h : l ≠ []) : (d.pickOne p l).2.isSome = true := by
  have : 0 < l.length := List.length_pos_iff.mpr h
  simp [Dev.pickOne, Nat.mod_lt _ this]

theorem witness_freeSlot : (List.range 4096).filter (fun i => (Dev.reset.gslot i).state == .free) ≠ [] := by
  intro h
  have : 0 ∈ (List.range 4096).filter (fun i => (Dev.reset.gslot i).state == .free) := by simp [List.mem_filter]; decide
  simp [h] at this

/-- A table over the whole head version, and the states of a directory slot. -/
theorem witness_tables :
    let s := st (fun d => ready' (regions reg0 ver0 ver0 d))
    let g (x : GSlot) (f : List Fetch) := st (fun d => ready' { d with gth := { d.gth with dir := [(4095, x)], fetches := f } })
    let a : GSlot := { GSlot.reset with state := .draining }
    let f0 : Fetch := { tile := 0, part := 0, slot := 4095, version := 1, block := 0, fill := false, inst := 0, party := 7, waits := [1] }
    s.serves ∧ s.dev.regionFor none table0.region = some reg0 ∧ tableBad table0 = false ∧ tableBad { table0 with rowBytes := 15 } = true ∧
    (∀ v, s.dev.version 0 1 = some v → table0.rows * table0.rowBytes ≤ v.len) ∧ (s.dev.openVer 0 0).2.1 = .ok ∧
    ((st (regions reg0 { ver0 with state := .draining } ver0)).dev.openVer 0 0).2.1 ≠ .ok ∧
    (g a []).serves ∧ ((g a []).dev.gslot 4095).state ≠ .free ∧ ((g a []).dev.gslot 0).state = .free ∧ ((g a []).dev.gslot 4095).state = .draining ∧
    (g a []).dev.slotHeld 4095 = false ∧ (g a [f0]).dev.slotHeld 4095 = true ∧
    (g a [f0]).dev.gth.fetches.find? (fun f => f.same 0 0 4095 1 0) = some f0 ∧ (g a []).dev.gth.fetches.find? (fun f => f.same 0 0 4095 1 0) = none ∧
    (let z := st (fun d => { d with ver := { d.ver with held := [(7 * 2 ^ 38, [1])] } })
     List.find? (fun e => e.1 / 2 ^ 38 == f0.party) z.dev.ver.held = some (7 * 2 ^ 38, [1]) ∧
       List.find? (fun e => e.1 / 2 ^ 38 == f0.party) (g a [f0]).dev.ver.held = none) := by
  simp only [State.serves, State.live]; decide +kernel

theorem witness_cacheCfg :
    let on := st (reg GTH_CACHE_CFG (2 ^ 16 + 8))
    let off := st (reg GTH_CACHE_PART 8)
    on.live ∧ on.dev.regFld GTH_CACHE_CFG 16 1 = 1 ∧ fld 8 16 1 = 0 ∧ fld (2 ^ 16 + 8) 16 1 = 1 ∧ off.dev.regFld GTH_CACHE_CFG 16 1 ≠ 1 ∧
    ((List.range 16).map (fun p => off.dev.regFld (GTH_CACHE_PART + 8 * p) 0 16)).sum ≤ min 32768 (fld (2 ^ 16 + 8) 0 16) ∧
    (∀ p, p < 16 → off.dev.regFld (GTH_CACHE_PART + 8 * p) 0 16 % 8 = 0) ∧
    min 32768 (fld (2 ^ 16 + 7) 0 16) < ((List.range 16).map (fun p => off.dev.regFld (GTH_CACHE_PART + 8 * p) 0 16)).sum := by
  simp only [State.live]; decide +kernel

/-- Selections: of 4 candidates, K = 2 and K_MAX = 3; of as many as K. -/
theorem witness_selection :
    let codes := [(10, 63), (11, 5), (12, 63), (13, 0)]
    0 < 2 ∧ 2 ≤ 3 ∧ (∀ e ∈ codes, e.2 < 64) ∧ (codes.map (·.1)).Nodup ∧ 2 < codes.length ∧ codes.length ≤ 4 ∧
    (selection 2 3 0 ((List.range 64).map (fun c => codes.countP (fun e => e.2 == c))) codes).2.2.2.2 = false ∧
    (selection 1 1 0 ((List.range 64).map (fun c => codes.countP (fun e => e.2 == c))) codes).2.2.2.2 = true := by decide +kernel

/-- Tickets of each kind, descriptors that have ended, and CUE_CAP at its cue. -/
theorem witness_tickets :
    let x : DescEntry := { desc 3 1 (5 * 2 ^ 32) with status := some .ok }
    let y : DescEntry := { desc 3 1 (5 * 2 ^ 32) with started := true }
    let e : EngId := { tile := 0, cls := 3, inst := 0 }
    let j : CopyJob := copyJob c0 0 0 0 0 0 64 none
    let q : Prim := { ctx := c0, slot := 0, gen := 0, status := .ok, note := false, result := none }
    let s (k : TicketKind) (n : Nat) (l : List DescEntry) := st (fun d => ({ (cue n (queued e l d)) with thr := { d.thr with copies := [j], prims := [q] } } : Dev).setCtx c0
      { Ctx.reset with run := .running, tickets := [(0, tk 0 k none)] })
    (s .copy 0 []).live ∧ Tab.find? ((s .copy 0 []).dev.ctx c0).tickets 0 = some (tk 0 .copy none) ∧
    (s .copy 0 []).dev.thr.copies.find? (fun j => j.ctx == c0 && j.slot == 0 && j.gen == 0) = some j ∧
    (s .prim 0 []).dev.thr.prims.find? (fun j => j.ctx == c0 && j.slot == 0 && j.gen == 0) = some q ∧
    (s .desc 0 [x]).dev.allDescs.find? (fun e => e.2.ctx == c0 && e.2.slot == 0 && e.2.gen == 0) = some (engQKey e 0, x) ∧
    (Tab.get [] (s .desc 0 [x]).dev.eng.queue (engQKey e 0 / 16 * 16 + x.part)).head? = some x ∧ x.waitMack = [] ∧ x.fl 0 4 ≠ 0 ∧ x.topk = none ∧
    x.att.topk = none ∧ x.fl 20 1 = 0 ∧ ((s .copy 0 []).dev.ctx c0).run = .running ∧ (s .desc 5 [y]).dev.capped e 0 = [y] ∧ y.fl 0 4 ≠ 1 ∧
    (s .desc 4 [y]).dev.capped e 0 = [] ∧ (s .desc 4 [y]).dev.workingParts e ≠ [] ∧ (s .desc 4 [x]).dev.workingParts e = [] := by
  simp only [State.live]; decide +kernel

abbrev cal0 (s : CalState) (run : Bool) (runs passes : Nat) : CalInfo := { CalInfo.reset with state := s, running := run, runs := runs, passes := passes }

/-- Runs that may start and that may not; the ends of runs in every state; array 0 of a partition. -/
theorem witness_calibration :
    let s (cls : Nat) (c : CalInfo) := st (fun d => { d with mica := { d.mica with cal := [(cls * 2048, c)], held := [(0, 1)] } })
    (st id).live ∧ (st id).dev.calMayStart { cls := 0, unit := 767 } .first = true ∧ (st id).dev.calMayStart { cls := 0, unit := 768 } .first = false ∧
    ((s 1 (cal0 .retry true 0 0)).dev.calInfo 1 0).running = true ∧ (((s 1 (cal0 .retry true 0 0)).dev.calInfo 1 0).after true).state ≠ .retired ∧
    (((s 1 (cal0 .retry true 0 0)).dev.calInfo 1 0).after false).state = .retired ∧ ((s 0 (cal0 .calFirst true 3 1)).dev.calInfo 0 0).running = true ∧
    (cal0 .calFirst true 3 0).runs = 3 ∧ (cal0 .retest true 2 1).runs < 3 ∧ (cal0 .retest true 2 1).passes = 1 ∧
    Tab.get 0 (s 0 (cal0 .retired false 0 0)).dev.mica.held (arrKey 0 0) ≠ 0 ∧ ((s 0 (cal0 .retired false 0 0)).dev.calInfo 0 (arrKey 0 0)).state = .retired ∧
    ((st id).dev.calInfo 0 (arrKey 0 0)).state ≠ .retired ∧ (st id).dev.regFld (MICA_SHADOW_CFG + 8 * 15) 0 1 = 0 ∧ 1 % 2 = 1 := by
  simp only [State.live]; decide +kernel

/-! ## Witnesses: versions and trays -/

abbrev copy0 : WCopy :=
  { tier := 0, len := 0, frames := [], base := 0, pins := 0, age := 0, sealing := none, evicting := false, mirror := false }

theorem witness_regionCreate :
    let s := st (fun d => ready' (reg VER_REG_CNT 1 d))
    s.serves ∧ (∃ d i, s.dev.regionNew 15 2 false 0 = (d, some i)) := by
  refine ⟨⟨⟨rfl, rfl⟩, rfl, rfl⟩, ?_⟩
  have h : ((ready' (reg VER_REG_CNT 1 Dev.reset)).ownHalf (ready' (reg VER_REG_CNT 1 Dev.reset)).regCount).filter
      (fun i => (Tab.find? (ready' (reg VER_REG_CNT 1 Dev.reset)).ver.regions i).isNone && Tab.get 0 (ready' (reg VER_REG_CNT 1 Dev.reset)).ver.gens i < 32768) = [0] := by
    decide +kernel
  have h' := pickOne_single (ready' (reg VER_REG_CNT 1 Dev.reset)) 0 0
  simp only [Dev.regionNew, h, Bool.false_eq_true, ne_eq, not_true_eq_false, or_false, false_and, if_false, h']
  exact ⟨_, _, rfl⟩

/-- Region 0, with a NEAR pool and a quota of one frame. -/
abbrev placeD : Dev := ready' (reg VER_QN 1 (reg VER_POOL_N (2 ^ 14) (owning (regions reg0 ver0 ver0 Dev.reset))))

/-- A LIST whose granules are good once the copy is built. -/
theorem witness_place :
    let y := placeD.buildCopy 0 15 reg0 0 (2 ^ 21) 0 1
    y.1.writeStops [(0x2000000000000000, 8 * y.2.frames.length)] = [] := by
  have h : placeD.readyFrames 0 = [0] := by decide +kernel
  have hn : ceilDiv (2 ^ 21) (2 ^ 21) = 0 + 1 := by decide
  have h' := pickOne_single placeD 1 0
  have hd : (placeD.pickOne 1 [0]).1 = { placeD with freeIx := placeD.freeIx + 1 } := rfl
  simp only [Dev.buildCopy, h, hn, Dev.pickMany, h', hd]
  decide +kernel

/-- Copies to be placed and loaded, within the quota and one frame beyond it; versions in each state. -/
theorem witness_regions :
    let s := at' placeD
    let l : Word := 0x2000000000000000
    s.serves ∧ s.dev.regionFor none rg0 = some reg0 ∧ reg0.session = 0 ∧
    (reg0.copies.any (fun c => c.2.pins ≠ 0 || c.2.sealing.isSome || c.2.evicting)) = false ∧
    s.dev.ver.versions.any (fun e => e.1 / 2 ^ 32 == 0 && e.2.state == .sealing) = false ∧ Tab.find? reg0.copies 15 = none ∧
    s.dev.listStatus 0 (.mailbox 0xC322) l.toNat (8 * ceilDiv (2 ^ 21) (2 ^ 21)) = .ok ∧
    s.dev.ver.places = [] ∧ s.dev.ver.waiting = [] ∧ s.dev.regionBusy 0 = false ∧ reg0.dying = none ∧ s.dev.mirrors = false ∧ spaceOf l.toNat = 2 ∧
    s.dev.charge 0 0 + ceilDiv (2 ^ 21) (2 ^ 21) ≤ s.dev.quota 0 0 ∧ ceilDiv (2 ^ 21) (2 ^ 21) ≤ (s.dev.readyFrames 0).length ∧
    s.dev.listStatus 0 (.mailbox 0xC323) l.toNat (8 * ceilDiv ver0.len (2 ^ 21)) = .ok ∧ ceilDiv ver0.len (2 ^ 21) = 1 ∧
    Tab.find? s.dev.ver.regions 0 = some reg0 ∧ Tab.get 0 s.dev.ver.gone (s.dev.goneKey 0 3) = 0 ∧
    (let z := st (fun d => regions reg0 ver0 ver0 { d with ver := { d.ver with gone := [(d.goneKey 0 3, 1)] } })
     z.dev.version 0 3 = none ∧ Tab.get 0 z.dev.ver.gone (z.dev.goneKey 0 3) ≠ 0) ∧
    s.dev.quota 0 0 < s.dev.charge 0 0 + ceilDiv (2 ^ 21 + 1) (2 ^ 21) ∧ 0 < 2 ∧ 2 < reg0.next ∧ s.dev.version 0 2 = some ver0 ∧
    ver0.state ≠ .sealing ∧ ver0.state ≠ .draining ∧ reg0.shared = false ∧ reg0.head = 1 ∧ (2 : Nat) ≠ reg0.head ∧ ver0.holders < 65535 ∧
    ver0.state ≠ .superseded ∧ ver0.holders ≠ 0 ∧ ({ ver0 with state := .sealed } : Version).state = .sealed := by
  simp only [State.serves, State.live]; decide +kernel

/-- A slot with a clean copy, pinned and not; a copy whose SEAL starts; a load of no bytes. -/
theorem witness_copies :
    let s (w : WCopy) := st (fun d => ready' (regions { reg0 with copies := [(15, w)] } ver0 ver0 d))
    (s copy0).serves ∧ (s copy0).dev.copyOf 0 15 = some copy0 ∧ copy0.pins = 0 ∧ copy0.sealing = none ∧ copy0.evicting = false ∧
    (s copy0).dev.copyDirty copy0 = false ∧ (s { copy0 with pins := 1 }).dev.copyOf 0 15 = some { copy0 with pins := 1 } ∧
    (let j : PlaceJob := { asker := .mailbox 0xC323, region := 0, slot := 15, tier := 0, len := 4096, list := 0, version := 1, base := 0, waited := false,
                           built := true, next := 0, mack := [] }
     let d := (s copy0).dev
     j.next < ceilDiv j.len 4096 ∧ d.poolLive (3 * 2 ^ 60 + (j.base * 512 + j.next) * 4096) 1 = false ∧
       Tab.find? d.ver.held (blkKey j.party (j.base * 512 + j.next)) = none ∧ d.blkBusy j.party (j.base * 512 + j.next) = false) := by
  simp only [State.serves, State.live]; decide +kernel

/-- A draining version, extents in quarantine at its end and a cue before. -/
theorem witness_drain :
    let v : Version := { ver0 with state := .draining }
    let e : Extent := { state := .revoked, part := 0, region := 0, version := 1, policy := 0, pieces := [], revokedAt := 0 }
    let s (n : Nat) := st (fun d => cue n { (regions reg0 v v d) with ver := { (regions reg0 v v d).ver with extents := [(0, e)] } })
    (s 0).live ∧ Tab.find? (s 0).dev.ver.regions 0 = some reg0 ∧ (s 0).dev.version 0 1 = some v ∧ v.state = .draining ∧
    (s 0).dev.someLive v = false ∧ (s 0).dev.verInFlight 0 1 v = false ∧ Tab.find? (s 4000000).dev.ver.extents 0 = some e ∧ e.state = .revoked ∧
    e.revokedAt + 4000000 ≤ (s 4000000).dev.tb.cueCount ∧ (s 3999999).dev.tb.cueCount < e.revokedAt + 4000000 := by
  simp only [State.live]; decide +kernel

/-- A tray before and at its 16th miss; a piece to be rebuilt onto another tray; settings. -/
theorem witness_trays :
    let t (n : Nat) : Tray := { Tray.reset with state := .healthy, misses := n }
    let s (n : Nat) := st (fun d => { d with ver := { d.ver with trays := [(63, t n)] } })
    (s 14).live ∧ ((s 14).dev.trayRec 63).state = .healthy ∧ ((s 14).dev.trayRec 63).misses < 15 ∧ 15 ≤ ((s 15).dev.trayRec 63).misses ∧
    ((st id).dev.trayRec 63).state ≠ .healthy ∧ ((st id).dev.trayRec 63).state = .disabled ∧ fld 0 14 14 ≤ fld 0 0 14 ∧
    (st id).dev.reserves 0 15 (fld 0 14 14) ≤ (st id).dev.poolCount 0 ∧ (st id).dev.isConf 15 = false ∧ fld 0 0 14 < fld (2 ^ 14) 14 14 ∧
    (let c := st (fun d => { d with sec := { d.sec with conf := 0x8000 } }); c.dev.isConf 15 = true ∧ fld 1 0 19 ≠ fld 1 19 19) ∧
    (st ready').dev.pwr.ready = true ∧ (st id).dev.pwr.ready = false ∧ fld (294911 + 2 ^ 19) 0 19 + fld (294911 + 2 ^ 19) 19 19 ≤ 294912 ∧
    (st id).dev.reserves 1 16 0 ≤ fld (294911 + 2 ^ 19) 19 19 ∧ 15360 < fld (15360 + 2 ^ 14) 0 14 + fld (15360 + 2 ^ 14) 14 14 ∧
    fld 2 0 1 = 0 ∧ fld 1 0 1 = 1 ∧ (∀ u, u < 64 → u ≠ 63 → (st id).dev.regFld (VER_TRAY_CFG + 8 * u) 0 1 = 0) ∧ fld 1 1 26 * 278528 ≤ 2 ^ 50 := by
  simp only [State.live]; decide +kernel

/-- A mirrored extent with a piece on a rebuilding tray and one on a tray that is served; a third tray has room. -/
theorem witness_rebuild :
    let e : Extent := { state := .live, part := 0, region := 0, version := 1, policy := 1, pieces := [(0, 0), (1, 0)], revokedAt := 0 }
    let d := reg (VER_TRAY_CFG + 8) (1 + 2 * 256 + 2 ^ 27) (reg (VER_TRAY_CFG + 16) (1 + 2 * 256 + 2 ^ 27)
      { (linked 2 Dev.reset) with ver := { Ver.reset with extents := [(5, e)], trays := [(0, { Tray.reset with state := .rebuilding }),
                                            (1, { Tray.reset with state := .healthy }), (2, { Tray.reset with state := .healthy })] } })
    (at' d).live ∧ (d.trayRec 0).state = .rebuilding ∧ (d.piecesOn 0).find? (fun p => p.2.2 / 64 == 0) = some (5, 0, 0) ∧
    Tab.find? d.ver.extents 5 = some e ∧ d.candTrays (piecesPer 1) (e.pieces.map (·.1)) = [2] ∧ d.otherTray e = some 2 ∧ d.ver.rebuilds = [] ∧ (d.version e.region e.version).any (·.state == .sealing) = false ∧
    0 < e.pieces.length := by
  simp only [State.live]; decide +kernel

abbrev sealD : Dev :=
  reg VER_VER_CNT 1 (reg VER_EXT_CNT 1 { (ready' Dev.reset) with ver := { Ver.reset with regions := [(0, { reg0 with copies := [(15, copy0)] })] } })

theorem witness_seal :
    ∃ d, sealD.sealNew 0 15 { reg0 with copies := [(15, copy0)] } copy0 none false [(.mailbox 0xC327, [])] 0 = (d, .ok) := by
  have h1 : sealD.freeRuns 0 = [0] := by decide +kernel
  have h2 : (sealD.pickOne 2 [0]).1.freeVerRecs = [0] := rfl
  have h3 := pickOne_single sealD 2 0
  have h4 := pickOne_single (sealD.pickOne 2 [0]).1 3 0
  have h0 : ceilDiv 0 (2 ^ 21) = 0 := by decide
  have h5 : ¬(sealD.quota 0 2 < sealD.charge 0 2 + 0) := by decide +kernel
  simp only [Dev.sealNew, h0, h1, h2, h3, h4, h5, placeExtents, Bool.not_false, and_true, if_false]
  exact ⟨_, rfl⟩

/-! ## Witnesses: sessions -/

/-- Session 0 of partition 0 is in the table, in a state, with its region 0. -/
abbrev ses0 (s : SesState) : SesRec := { SesRec.reset with state := s, layers := 1, groups := 1, dim := 32, maxRows := 1 }
abbrev rec0 : Nat := 0x2000000000100000
abbrev recCells (r : SesRec) : List Host.Cell := (((List.range 128).zip (sesBytes r)).filter (fun c => c.2 != 0)).map (fun c => (rec0 + c.1, c.2))
abbrev sessions (r : SesRec) (d : Dev) : Dev :=
  ready' (reg GL_DEV_ID 0 (reg SES_TBL_BASE rec0 (reg SES_TBL_CNT 2 (reg SES_QUOTA 2
    { d with ses := { d.ses with used := [0] }, mem := { d.mem with bytes := recCells r } }))))

/-- The table of these states lies in STRATUM, and a record that is written fits. -/
theorem witness_table :
    (sessions (ses0 .active) Dev.reset).tableAt 0 ∧ (sessions (ses0 .active) Dev.reset).tableAt 1 ∧ ({ (ses0 .parked) with map := 0, stamp := 0 } : SesRec).fits := by
  have h : ∀ b ∈ (ses0 .parked).beds, b.fits := fun b hb => nomatch (show b ∈ ([] : List Bed) from hb)
  refine ⟨by simp only [Dev.tableAt]; decide +kernel, by simp only [Dev.tableAt]; decide +kernel, ?_⟩
  unfold SesRec.fits idFits
  exact ⟨by decide, by decide, by decide, by decide, by decide, by decide, by decide, by decide, by decide, by decide, by decide, by decide, by decide,
    by decide, by decide, by decide, by decide, by decide, by decide, by decide, by decide, by decide, by decide, by decide, by decide, by decide, h,
    by decide, by decide⟩

/-- A record left by a takeover, and records in each operation and phase, with an operation in progress that has and has not started its seals. -/
theorem witness_sessionPhases :
    let s (op ph : Nat) (b : Bool) := st (fun d => let x := sessions { ses0 .active with op := op, phase := ph } d
      { x with ses := { x.ses with ops := [(0, { newOp (.mailbox 0xC313) 5 .active with started := b })] } })
    (s 8 0 false).serves ∧ ((s 8 0 false).dev.sesRec 0).op = 8 ∧ (s 8 0 false).dev.sesCheck none 0 = .ok ∧ ((s 8 0 false).dev.sesOp 0).isSome = true ∧
    (∀ op, op < 8 → ∀ ph, ph < 3 → (s op ph false).live ∧ ((s op ph false).dev.sesRec 0).op = op ∧ ((s op ph false).dev.sesRec 0).phase = ph) ∧
    (s 1 0 false).dev.appendRuns 0 = false ∧ (s 1 0 false).dev.sesPinned 0 = false ∧ ((s 1 1 false).dev.sesOp 0).any (·.started) = false ∧
    ((s 1 1 true).dev.sesOp 0).any (·.started) = true ∧ (s 1 1 true).dev.sealsDone 0 [7] = some false := by
  simp only [State.serves, State.live]; decide +kernel

/-- The common premises of the host's operations, and those of each, in the states that the operations start from. -/
theorem witness_sessionOps :
    let s (r : SesRec) := st (sessions r)
    (s (ses0 .active)).serves ∧ (s (ses0 .active)).dev.sesCheck none 0 = .ok ∧ ((s (ses0 .active)).dev.sesRec 0).op ≠ 8 ∧
    (s (ses0 .active)).dev.sesOp 0 = none ∧ ((s (ses0 .active)).dev.sesRec 0).state = .active ∧ ((s (ses0 .parked)).dev.sesRec 0).state = .parked ∧
    (s (ses0 .parked)).dev.sesCheck none 0 = .ok ∧ ((s (ses0 .orphaned)).dev.sesRec 0).state = .orphaned ∧ (s (ses0 .orphaned)).dev.sesCheck none 0 = .ok ∧
    (4095 ≠ (s (ses0 .active)).dev.devId) ∧ 4095 ≠ (s (ses0 .active)).dev.partner ∧ ((s (ses0 .active)).dev.sesRec 0).unconf = false ∧
    1 < (s (ses0 .active)).dev.sesLimit ∧ ((s (ses0 .active)).dev.sesRec 1).state = .free ∧ (s (ses0 .active)).dev.sesFull 0 = false ∧
    ((s (ses0 .parked)).dev.sesRec 0).beds.any (fun b => ((s (ses0 .parked)).dev.version b.region.index b.version).any (fun v => 65535 ≤ v.holders)) = false ∧
    ({ (s (ses0 .parked)).dev with pair := { Pair.reset with state := .paired } } : Dev).pair.state = .paired := by
  simp only [State.serves, State.live]; decide +kernel

abbrev forkD : Dev := reg VER_REG_CNT 1 { (sessions (ses0 .parked) Dev.reset) with sec := { Sec.reset with seed := some [] } }

/-- A FORK with room: a free record and a free region. -/
theorem witness_fork : (forkD.regionNew 0 0 false 2).2.isSome = true := by
  have h : (forkD.ownHalf forkD.regCount).filter (fun i => (Tab.find? forkD.ver.regions i).isNone && Tab.get 0 forkD.ver.gens i < 32768) = [0] := by decide +kernel
  have h' := pickOne_single forkD 0 0
  simp only [Dev.regionNew, h, Bool.false_eq_true, and_false, if_false, h', Option.isSome_some,
    show forkD.sec.seed.isNone = false from rfl]

/-- APPENDs: one that the rules refuse, and one that fails its rights and so ends at once. -/
theorem witness_append :
    let x : SesAppend := { id := 0, pos := 0, count := 1, layerLo := 0, nLayer := 1, src := 0, input := 0, inLen := 0, sync := false }
    let s := st (sessions (ses0 .active))
    appendBad x = false ∧ ((s.dev).ses.appends = []) ∧ appendRule (s.dev.sesRec 0) (Tab.find? s.dev.ses.windows 0) { x with pos := 1 } = .badRequest ∧
    appendRule (s.dev.sesRec 0) (Tab.find? s.dev.ses.windows 0) x = .ok ∧ (s.dev.tryAppend (.mailbox 0xC312) x).2 = true := by
  decide +kernel

abbrev create0 : SesCreate :=
  { id := 0, part := 0, layers := 1, groups := 1, d := 32, fmt := 1, tier := 1, policy := 0, kvmir := false, proj := 0x2000000000000000, maxlen := 256 }
abbrev createD : Dev :=
  reg VER_REG_CNT 1 (reg VER_QS 2 (reg VER_POOL_S (1 + 3 * 2 ^ 19) (reg SES_TBL_CNT 1 (reg SES_QUOTA 1 (owning
    { (ready' Dev.reset) with sec := { Sec.reset with seed := some [] } })))))

/-- A CREATE that has room, a region record and frames for its copies. -/
theorem witness_create :
    (at' createD).serves ∧ createD.createBad create0 = false ∧ (createD.sesRec 0).state = .free ∧ createD.pair.state ≠ .joining ∧
    createD.owns 0 create0.proj.toNat (projTable (createRec create0)) = true ∧ createD.sesFull 0 = false ∧
    createD.sesRoom (createRec create0) 0 = (createD, true, .ok) := by
  simp only [State.serves, State.live]; decide +kernel

theorem witness_createPlace :
    ∃ y, createD.regionNew 0 0 false 1 = (y, some 0) ∧
      ∀ r : SesRec, ceilDiv (mapLen r) (2 ^ 21) = 1 → (y.sesPlace r 0).2 = true := by
  have h : (createD.ownHalf createD.regCount).filter (fun i => (Tab.find? createD.ver.regions i).isNone && Tab.get 0 createD.ver.gens i < 32768) = [0] := by decide +kernel
  have h' := pickOne_single createD 0 0
  refine ⟨(createD.regionNew 0 0 false 1).1, ?_, ?_⟩
  · simp only [Dev.regionNew, h, show createD.sec.seed.isNone = false from rfl, Bool.false_eq_true, and_false, if_false, h']
  · intro r hr
    have hn : (createD.regionNew 0 0 false 1).1.frameRuns 1 ≠ [] := by
        simp only [Dev.regionNew, h, show createD.sec.seed.isNone = false from rfl, Bool.false_eq_true, and_false, if_false, h']
        decide +kernel
    obtain ⟨a, ha⟩ := Dev.pickOne_isSome (createD.regionNew 0 0 false 1).1 5 _ hn
    simp only [Dev.sesPlace, hr, ha]

abbrev opz (dl : Nat) : SesOp := newOp (.mailbox 0xC313) dl .active

/-- Phases, deadlines, windows, log seals and moves at their cues, and one cue before. -/
theorem witness_sessionTimers :
    let s (r : SesRec) (n : Nat) := st (fun d => cue n { (sessions r d) with
      ses := { (sessions r d).ses with ops := [(0, { (opz 5) with started := true })], windows := [(0, { pos := 0, count := 1, layers := [0], lastCue := 0 })] } })
    let p : SesRec := { ses0 .parking with op := 1, phase := 1 }
    (s p 5).live ∧ (s p 5).dev.sesOp 0 = some { (opz 5) with started := true } ∧ ((s p 5).dev.sesRec 0).phase = 1 ∧ ((s p 5).dev.sesRec 0).op = 1 ∧
    (s p 5).dev.sealsDone 0 [] = some true ∧ (s p 5).dev.ses.appends = [] ∧ (s p 5).dev.ses.creates = [] ∧ (s p 5).dev.ses.notices = [] ∧
    (opz 5).deadline ≠ 0 ∧ (opz 5).deadline ≤ (s p 5).dev.tb.cueCount ∧ (s p 4).dev.tb.cueCount < (opz 5).deadline ∧
    (let w := max 1 ((s p 0).dev.regFld SES_CFG 32 8)
     Tab.find? (s p w).dev.ses.windows 0 = some { pos := 0, count := 1, layers := [0], lastCue := 0 } ∧ 0 + max 1 ((s p w).dev.regFld SES_CFG 32 8) ≤ (s p w).dev.tb.cueCount ∧
       (s p (w - 1)).dev.tb.cueCount < 0 + max 1 ((s p (w - 1)).dev.regFld SES_CFG 32 8)) := by
  simp only [State.live]; decide +kernel

theorem witness_sessionMoves :
    let s (r : SesRec) (n : Nat) := st (fun d => cue n (sessions r d))
    let m := (s (ses0 .movingIn) 0).dev.moveTmo
    (s (ses0 .movingIn) m).live ∧ ((s (ses0 .movingIn) m).dev.sesRec 0).state = .movingIn ∧
    Tab.get 0 (s (ses0 .movingIn) m).dev.ses.moveCue 0 + (s (ses0 .movingIn) m).dev.moveTmo ≤ (s (ses0 .movingIn) m).dev.tb.cueCount ∧
    (s (ses0 .movingIn) m).dev.sesOp 0 = none ∧ (s (ses0 .movingIn) m).dev.ses.notices = [] ∧
    (s (ses0 .movingIn) (m - 1)).dev.tb.cueCount < Tab.get 0 (s (ses0 .movingIn) (m - 1)).dev.ses.moveCue 0 + (s (ses0 .movingIn) (m - 1)).dev.moveTmo ∧
    ((s { ses0 .active with unconf := true } m).dev.sesRec 0).unconf = true ∧
    ((s { ses0 .active with unconf := true } m).dev.sesRec 0).owner = (s { ses0 .active with unconf := true } m).dev.devId := by
  simp only [State.live]; decide +kernel

/-- A dirty log whose seal starts. -/
abbrev logD : Dev := cue 65536 { (sessions (ses0 .active) sealD) with
  ver := { sealD.ver with regions := [(0, { reg0 with copies := [(2, copy0)] })] }
  ses := { (sessions (ses0 .active) sealD).ses with logs := [(0, { SesLog.reset with dirty := true })] } }

theorem witness_logSeal :
    (logD.sesRec 0).state = .active ∧ (logD.sesLog 0).dirty = true ∧ (logD.sesLog 0).sealing = none ∧ logD.sesOp 0 = none ∧
    (logD.sesLog 0).sealedAt + max 1 (logD.regFld SES_CFG 0 16) ≤ logD.tb.cueCount := by decide +kernel

theorem witness_logSealStarts : ∃ y, logD.sealLogCopy (ses0 .active) = (y, .ok) := by
  have h1 : logD.freeRuns 0 = [0] := by decide +kernel
  have h2 : (logD.pickOne 2 [0]).1.freeVerRecs = [0] := rfl
  have h3 := pickOne_single logD 2 0
  have h4 := pickOne_single (logD.pickOne 2 [0]).1 3 0
  have h0 : ceilDiv copy0.len (2 ^ 21) = 0 := by decide
  have h5 : ¬(logD.quota 0 2 < logD.charge 0 2 + 0) := by decide +kernel
  have h6 : Tab.find? logD.ver.regions (ses0 .active).region.index = some { reg0 with copies := [(2, copy0)] } := by decide +kernel
  have h7 : logD.copyOf (ses0 .active).region.index 2 = some copy0 := by decide +kernel
  have h8 : ∃ d, logD.sealNew (ses0 .active).region.index 2 { reg0 with copies := [(2, copy0)] } copy0 none false [] copy0.len = (d, .ok) := by
    simp only [Dev.sealNew, h0, h1, h2, h3, h4, h5, placeExtents, Bool.not_false, and_true, if_false]
    exact ⟨_, rfl⟩
  obtain ⟨d, h8⟩ := h8
  simp only [Dev.sealLogCopy, h6, h7, Dev.startSealOf, h8, h0]
  exact ⟨_, rfl⟩

/-! ## Witnesses: the pair, links and security -/

abbrev pr (s : PairState) : Pair := { Pair.reset with state := s }
/-- Link 0 is up as a PAIR link, and the pair is as given. -/
abbrev paired (p : Pair) (d : Dev) : Dev := reg PAIR_CFG (3 * 2 ^ 13) (linked 4 { d with pair := p })
abbrev unack0 : Unacked := { stream := 0, mseq := 7, ptype := 1, frame := pf0, link := 0, tries := 0, lastSend := 0 }

/-- A PAIR link takes a frame in each state of the pair, a JOINING device at the frame of the control stream that is next. -/
theorem witness_pairFrames :
    let s (p : Pair) := st (paired p)
    (s (pr .paired)).live ∧ ((s (pr .paired)).dev.takeRx 0 0).pairTakes 0 = true ∧ ((s (pr .paired)).dev.takeRx 0 0).pairRuns = true ∧
    ((s (pr .lost)).dev.takeRx 0 0).pairTakes 0 = true ∧ ((s (pr .lost)).dev.takeRx 0 0).pair.state = .lost ∧
    fld ({ pf0 with word1 := 3 } : PairFrame).word1.toNat 0 3 = 3 ∧ fld ({ pf0 with word1 := 5 } : PairFrame).word1.toNat 0 3 = 5 ∧
    ((s (pr .solo)).dev.takeRx 0 0).pair.state = .solo ∧ (st (fun d => reg PAIR_CFG (1 + 3 * 2 ^ 13) (paired (pr .solo) d))).dev.primary = false ∧
    ((s (pr .joining)).dev.takeRx 0 0).pairRuns = true ∧ ((s (pr .joining)).dev.takeRx 0 0).pair.state = .joining ∧
    ({ pf0 with stream := 12 } : PairFrame).stream.toNat = 12 ∧ pf0.mseq.toNat = Tab.get 0 ((s (pr .joining)).dev.takeRx 0 0).pair.rxSeq 12 ∧
    ((s (pr .joining)).dev.takeRx 0 0).pair.early = [] ∧ pf0.stream.toNat < 12 ∧ ((s (pr .source)).dev.takeRx 0 0).pair.state = .source ∧
    ((s (pr .paired)).dev.frontRx 0 0).isNone = true ∧ (st id).dev.pairTakes 0 = false ∧ (∀ p, p < 16 → (s (pr .paired)).dev.spellsPair 0 p pf0 = true) := by
  simp only [State.live]; decide +kernel

/-- A frame that waits in the link spells itself and no other; numbers behind the one due, and ahead of it. -/
theorem witness_pairSpelled :
    let m := pairImage 2 { pf0 with len := 16, data := zeros 16 }
    let d := paired (pr .paired) Dev.reset
    let d := { d with links := [(0, { Link.reset with state := .up, rx := [(0, 1, padSlots m)] })] }
    d.spellsPair 0 2 { pf0 with len := 16, data := zeros 16 } = true ∧ d.spellsPair 0 1 { pf0 with len := 16, data := zeros 16 } = false ∧
    d.spellsPair 0 2 { pf0 with len := 16, data := zeros 16, stream := 1 } = false ∧ 2 ^ 31 ≤ sub32 pf0.mseq.toNat 1 ∧
    0 < sub32 ({ pf0 with mseq := 1 } : PairFrame).mseq.toNat 0 ∧ sub32 ({ pf0 with mseq := 1 } : PairFrame).mseq.toNat 0 < 2 ^ 31 := by
  decide +kernel

/-- A link without a heartbeat for 8 cues, and for 7; an unacknowledged frame after 2 cues, and after 1. -/
theorem witness_pairTimers :
    let s (n : Nat) (p : Pair) := st (fun d => cue n (paired p d))
    let u : Pair := { (pr .paired) with unacked := [unack0], linkUp := [(0, true)] }
    (s 8 (pr .paired)).live ∧ 0 ∈ (s 8 (pr .paired)).dev.pairLinks ∧ Tab.get 0 (s 8 (pr .paired)).dev.pair.lastHb 0 + 8 ≤ (s 8 (pr .paired)).dev.tb.cueCount ∧
    (s 7 (pr .paired)).dev.tb.cueCount < Tab.get 0 (s 7 (pr .paired)).dev.pair.lastHb 0 + 8 ∧
    (s 2 u).dev.pair.unacked = [unack0] ∧ unack0.link ∈ (s 2 u).dev.pairUp ∧ (s 2 u).dev.pair.state ≠ .lost ∧
    unack0.lastSend + 2 ≤ (s 2 u).dev.tb.cueCount ∧ (s 1 u).dev.tb.cueCount < unack0.lastSend + 2 ∧ unack0.tries < 3 ∧ (s 2 (pr .paired)).dev.pairUp = [] := by
  simp only [State.live]; decide +kernel

/-- Two PAIR links that are up: a frame tried often enough, or on a link that is down, moves to the other. -/
theorem witness_pairMoves :
    let d (p : Pair) : Dev := (({ (paired p Dev.reset) with links := [(0, { Link.reset with state := .up }), (1, { Link.reset with state := .up })] } : Dev).putReg
      (GL_LINK_CFG + 8) 9)
    let u : Pair := { (pr .paired) with unacked := [{ unack0 with tries := 3 }], linkUp := [(0, true), (1, true)] }
    let v : Pair := { (pr .paired) with unacked := [unack0], linkUp := [(0, false), (1, true)] }
    ((d u).pairUp.filter (· ≠ 0)).head? = some 1 ∧ (d v).pairUp = [1] ∧ unack0.link ∉ (d v).pairUp ∧ 3 ≤ ({ unack0 with tries := 3 } : Unacked).tries := by
  decide +kernel

theorem witness_pairControl :
    let s (p : Pair) := st (fun d => { (paired p (ready' d)) with sec := { d.sec with idOk := true } })
    (s (pr .unpaired)).live ∧ (s (pr .unpaired)).dev.pair.state = .unpaired ∧ (s (pr .unpaired)).dev.pwr.ready = true ∧
    (s (pr .unpaired)).dev.linksOk = true ∧ (s (pr .unpaired)).dev.sec.idOk = true ∧ (st id).dev.linksOk = false ∧
    (s (pr .source)).dev.pair.admStep < 3 ∧
    (∀ u ∈ (s { (pr .source) with bulkDone := true }).dev.pair.unacked, u.ptype ≠ 10) ∧
    (s { (pr .joining) with admStep := 2 }).dev.pair.admStep = 2 ∧ (s { (pr .source) with admStep := 3 }).dev.pair.bulkQueue = [] ∧
    (s { (pr .source) with admStep := 3, bulkQueue := [.record 0 0] }).dev.pair.bulkQueue = [.record 0 0] ∧
    (s (pr .lost)).dev.pair.state = .lost ∧ (s { (pr .solo) with scanning := true }).dev.pair.scanning = true ∧ (s (pr .solo)).dev.pair.scanning = false := by
  simp only [State.live]; decide +kernel

/-- A session of the partner under the scan, a conflict after 8 cues and after 7, and the journal's age. -/
theorem witness_pairClaims :
    let s (n : Nat) (p : Pair) := st (fun d => cue n (sessions (ses0 .active) (paired p d)))
    let c : Pair := { (pr .paired) with conflicts := [(0, 0)] }
    (s 0 { (pr .solo) with scanning := true }).dev.sessions = [(0, ses0 .active)] ∧
    (ses0 .active).owner = (s 0 { (pr .solo) with scanning := true }).dev.partner ∧ (s 0 { (pr .solo) with scanning := true }).dev.pair.scanPos ≤ 0 ∧
    Tab.find? (s 8 c).dev.pair.conflicts 0 = some 0 ∧ (s 8 c).dev.primary = true ∧ (s 8 c).dev.pair.state = .paired ∧ 0 + 8 ≤ (s 8 c).dev.tb.cueCount ∧
    (s 7 c).dev.tb.cueCount < 0 + 8 ∧ (s 4000000 (pr .solo)).dev.pair.takeoverCue + 4000000 ≤ (s 4000000 (pr .solo)).dev.tb.cueCount ∧
    (s 3999999 (pr .solo)).dev.tb.cueCount < (s 3999999 (pr .solo)).dev.pair.takeoverCue + 4000000 := by
  decide +kernel

/-- Link 0 with a role, in a state, at a cue. -/
abbrev lk (role : Nat) (s : LinkState) (n : Nat) (d : Dev) : Dev :=
  cue n { (linked role d) with links := [(0, { Link.reset with state := s })], sec := { d.sec with idOk := true } }
abbrev ident0 : IdentMsg := { kind := 0, role := 0, devid := 5, instanceId := 9, enc := false }

theorem witness_linkTraining :
    let s (r : Nat) (l : LinkState) (n : Nat) := st (lk r l n)
    (s 1 .phy 0).live ∧ ((s 1 .phy 0).dev.link 0).state = .phy ∧ (s 1 .phy 0).dev.lanesRetired 0 = 0 ∧
    ((s 1 .ident 0).dev.link 0).state = .ident ∧ ident0.enc = (s 1 .ident 0).dev.linkEnc 0 ∧ (s 1 .ident 0).dev.role 0 < 3 ∧
    (s 1 .ident 0).dev.peerFits ((s 1 .ident 0).dev.role 0) ident0 = true ∧
    (s 1 .ident 0).dev.peerFits ((s 1 .ident 0).dev.role 0) { ident0 with kind := 1 } = false ∧
    3 ≤ (s 3 .ident 0).dev.role 0 ∧ (s 3 .ident 0).dev.devId = 0xFFF ∧
    ((s 1 .credit 0).dev.link 0).state = .credit ∧ ((s 3 .auth 0).dev.link 0).state = .auth ∧ (s 3 .auth 0).dev.sec.idOk = true ∧
    ((s 3 .auth 0).dev.auth 0).certOk = false ∧ ((s 3 .auth 0).dev.auth 0).challengeOk = false ∧ ((s 3 .auth 0).dev.auth 0).keyxSent = false ∧
    ((s 3 .auth 0).dev.auth 0).lastSend + 8 ≤ (s 3 .auth 8).dev.tb.cueCount ∧ (s 3 .auth 7).dev.tb.cueCount < ((s 3 .auth 0).dev.auth 0).lastSend + 8 ∧
    ((s 1 .down 40000).dev.link 0).state = .down ∧ (s 1 .down 40000).dev.linkEn 0 = true ∧ (s 1 .down 40000).dev.role 0 ≠ 0 ∧
    ((s 1 .down 40000).dev.link 0).laneFail = false ∧ ((s 1 .down 40000).dev.link 0).failCue + 40000 ≤ (s 1 .down 40000).dev.tb.cueCount ∧
    (s 1 .down 39999).dev.tb.cueCount < ((s 1 .down 39999).dev.link 0).failCue + 40000 ∧
    ((s 1 .up 16).dev.link 0).lastFlit + 16 ≤ (s 1 .up 16).dev.tb.cueCount ∧ (s 1 .up 15).dev.tb.cueCount < ((s 1 .up 15).dev.link 0).lastFlit + 16 := by
  simp only [State.live]; decide +kernel

/-- A link that is up, channels with and without credit, and flits of each kind. -/
theorem witness_flits :
    let u (f : Link → Link) := st (fun d => { (linked 1 d) with links := [(0, f { Link.reset with state := .up })] })
    let g (n fr : Nat) := u (fun l => { l with chans := [(0, { Chan.reset with granted := n, rxFreed := fr })] })
    (u id).live ∧ (u id).dev.isUp 0 = true ∧ (u id).dev.linkEnc 0 = false ∧ ((u id).dev.chan 0 0).txSlots = [] ∧
    (0 + 32768 - ((u id).dev.chan 0 0).txAck) % 32768 ≤ ((u id).dev.chan 0 0).txGrant ∧
    ((u id).dev.chan 0 0).txGrant < (1 + 32768 - ((u id).dev.chan 0 0).txAck) % 32768 ∧
    (zeros 240).length = 240 ∧ ((u id).dev.chan 0 0).granted = 0 ∧ 0 < ((g 1 0).dev.chan 0 0).granted ∧
    2048 ≤ (2048 + 4096 - ((g 1 0).dev.chan 0 0).rxSeq % 4096) % 4096 ∧
    ((g 1 0).dev.chan 0 0).rxFreed + ((g 1 0).dev.chan 0 0).granted ≤ ((g 1 0).dev.chan 0 0).rxSeq + (1 + 4096 - ((g 1 0).dev.chan 0 0).rxSeq % 4096) % 4096 ∧
    ((g 1 0).dev.chan 0 0).rxSeq < ((g 1 0).dev.chan 0 0).rxFreed + ((g 1 0).dev.chan 0 0).granted ∧ ((g 1 0).dev.chan 0 0).partialMsg = [] ∧
    ((g 1 0).dev.chan 0 0).partFlits = 0 ∧ 1 * 16 < messageBytes 1 0 ((txnImage 1 { txn0 with data := zeros 64 }).take 16) ∧
    messageBytes 1 0 ((txnImage 0 txn0).take 16) = 1 * 16 ∧
    ((u id).dev.chan 0 0).txGrant ≤ (((u id).dev.chan 0 0).txSeq + 32768 - ((u id).dev.chan 0 0).txAck) % 32768 := by
  simp only [State.live]; decide +kernel

/-- Messages of each format within their fields. -/
theorem witness_formats :
    spelt 0 txn0 ∧ spelt 1 { txn0 with data := zeros 64 } ∧ spelt 4 { txn0 with opcode := 7, nops := 1, ops := [9], data := zeros 64 } ∧
    spelt 5 { txn0 with route := { route0 with dstDev := 5 }, data := zeros 64 } ∧ spelt 2 { txn0 with flagVal := 1, data := zeros 64 } ∧
    coh0.rsv = false ∧ coh0.data.length = (if coh0.d then 128 else 0) ∧ ({ coh0 with d := true, data := zeros 128 } : CohMsg).data.length = 128 ∧
    pf0.data.length = pf0.len.toNat ∧ messageBytes 1 0 (txnImage 0 txn0) = (txnImage 0 txn0).length ∧ ({ Auth.reset with peerKey := zeros 32 } : Auth).peerKey.length = 32 := by
  refine ⟨?_, ?_, ?_, ?_, ?_, by decide +kernel⟩ <;> simp only [spelt] <;> decide +kernel

/-- The training limit of each state, reached and not. -/
theorem witness_trainingLimits :
    ∀ l ∈ [LinkState.phy, .ident, .auth, .credit],
      ((st (lk 1 l (trainLimit l))).dev.link 0).enteredCue + trainLimit l ≤ (st (lk 1 l (trainLimit l))).dev.tb.cueCount ∧
      (st (lk 1 l (trainLimit l - 1))).dev.tb.cueCount < ((st (lk 1 l (trainLimit l - 1))).dev.link 0).enteredCue + trainLimit l := by
  decide +kernel

/-- A link configuration that fits and one per field that does not, and a flit whose check is right and one whose is not. -/
theorem witness_linkCfg :
    let v : Word := 1 + 2 * 3 + 64 * 6144
    fld v.toNat 1 3 < 5 ∧ fld v.toNat 4 2 ≠ 3 ∧ fld v.toNat 6 14 ≤ 8192 ∧
    (((List.range 36).filter (· ≠ 0)).map (fun j => Dev.reset.regFld (GL_LINK_CFG + 8 * j) 6 14)).sum + fld v.toNat 6 14 ≤ 221184 ∧
    5 ≤ fld (10 : Word).toNat 1 3 ∧ fld (48 : Word).toNat 4 2 = 3 ∧ 8192 < fld (64 * 8193 : Word).toNat 6 14 := by decide +kernel

theorem crc_zeros0 : (zeros 31).foldl (crcByte 64 4823603603198064275 true) 18446744073709551615 = 15879310073284827200 := by decide +kernel
theorem crc_zeros1 : (zeros 31).foldl (crcByte 64 4823603603198064275 true) 15879310073284827200 = 14586728332071357 := by decide +kernel
theorem crc_zeros2 : (zeros 31).foldl (crcByte 64 4823603603198064275 true) 14586728332071357 = 15338492763406043521 := by decide +kernel
theorem crc_zeros3 : (zeros 31).foldl (crcByte 64 4823603603198064275 true) 15338492763406043521 = 7456572121818650051 := by decide +kernel
theorem crc_zeros4 : (zeros 31).foldl (crcByte 64 4823603603198064275 true) 7456572121818650051 = 17890675410050617274 := by decide +kernel
theorem crc_zeros5 : (zeros 31).foldl (crcByte 64 4823603603198064275 true) 17890675410050617274 = 13241838303391363258 := by decide +kernel
theorem crc_zeros6 : (zeros 31).foldl (crcByte 64 4823603603198064275 true) 13241838303391363258 = 10157181346633911210 := by decide +kernel
theorem crc_zeros7 : (zeros 31).foldl (crcByte 64 4823603603198064275 true) 10157181346633911210 = 3088559427994792658 := by decide +kernel

theorem crc_zeros : crc64xz (zeros 248) = 13021020697539691691 := by
  have h : zeros 248 = zeros 31 ++ (zeros 31 ++ (zeros 31 ++ (zeros 31 ++ (zeros 31 ++ (zeros 31 ++ (zeros 31 ++ zeros 31)))))) := by
    simp [zeros]
  have r : reflect 64 3088559427994792658 ^^^ (2 ^ 64 - 1) = 13021020697539691691 := by decide +kernel
  rw [crc64xz, crcOf, h]
  simp only [List.foldl_append]
  simp only [show (2 ^ 64 - 1 : Nat) = 18446744073709551615 from rfl] at r ⊢
  rw [crc_zeros0, crc_zeros1, crc_zeros2, crc_zeros3, crc_zeros4, crc_zeros5, crc_zeros6, crc_zeros7]
  simpa using r

abbrev flit0 (c : Nat) : Bytes := zeros 248 ++ leBytes 8 c

theorem witness_flit :
    (flit0 13021020697539691691).length = 256 ∧ crc64xz ((flit0 13021020697539691691).take 248) = leAt (flit0 13021020697539691691) 248 8 ∧
    crc64xz ((flit0 0).take 248) ≠ leAt (flit0 0) 248 8 := by
  have h : ∀ c, (flit0 c).take 248 = zeros 248 := fun c => List.take_left' List.length_replicate
  rw [h, h, crc_zeros]
  decide +kernel

/-- An opened payload: the padding is free, so the premise is met by what the free value gives or by none. -/
theorem witness_keyx (payload nonce : Bytes) (h : nonce.length = 16) :
    (Config.oaepOpen rootKey payload = none ∨ ∃ body, Config.oaepOpen rootKey payload = some body) ∧
    ((zeros 40 ++ nonce).length = 56 ∧ (zeros 40 ++ nonce).drop 40 = nonce) := by
  refine ⟨?_, by simp [zeros, h], by simp [zeros]⟩
  cases Config.oaepOpen rootKey payload <;> simp

abbrev secured (d : Dev) : Dev := { (ready' d) with sec := { d.sec with rootOk := true, idOk := true } }

theorem witness_security :
    let s := st secured
    s.serves ∧ s.dev.sec.rootOk = true ∧ s.dev.sec.idOk = true ∧ s.dev.sec.seed = none ∧ blobSeed [] = none ∧
    (st (fun d => { (secured d) with sec := { (secured d).sec with seed := some [1] } })).dev.sec.seed = some [1] ∧
    s.dev.tenantLocked 0 = false ∧ (st (fun d => reg SEC_TENANT_HI (2 ^ 63) (secured d))).live ∧
    fld (24 : Word).toNat 3 2 = 3 ∧ fld (1 : Word).toNat 3 2 ≠ 3 ∧ s.dev.isConf 0 = false ∧ s.dev.isConf (fld (0 : Word).toNat 2 4) = false ∧
    s.dev.regFld (SEC_RANGE + 8 * 0) 0 1 = 0 ∧ s.dev.rangeBad 0 (1 + 2 ^ 25) = false ∧ fld (1 + 2 ^ 25 : Word).toNat 0 1 = 1 ∧ s.dev.sec.conf = 0 := by
  simp only [State.serves, State.live]; decide +kernel

theorem witness_tenantLocked : ∃ d : Dev, (at' d).live ∧ d.tenantLocked 0 = true := ⟨{ Dev.reset with sec := { Dev.reset.sec with conf := 1 } }, by simp only [State.live]; decide +kernel⟩

theorem witness_rangeBad : ∃ v : Word, fld v.toNat 0 1 = 1 ∧ Dev.reset.rangeBad 0 (v.toNat % 2 ^ 44) = true := ⟨1, by decide +kernel⟩

theorem witness_spdm :
    let s := st secured
    s.live ∧ s.dev.sec.idOk = true ∧ 0 ≤ certChain.length ∧ certChain.length < certChain.length + 1 ∧ (1 : Nat) ≠ 0 ∧ (1 : Nat) ≠ 0xFF ∧
    (s.dev.measured.measurement 1).isSome = true ∧ s.dev.measured.measurement 200 = none := by
  refine ⟨?_, rfl, Nat.zero_le _, Nat.lt_succ_self _, by decide, by decide, ?_, ?_⟩
  · simp only [State.live]; decide +kernel
  · rfl
  · rfl

/-! ## Witnesses: the host port, bundles, power, time -/

/-- A window of 1 frame of NEAR, a line in it and one beyond it, and one that belongs to a confidential partition. -/
abbrev hosted (conf : BitVec 16) (d : Dev) : Dev :=
  reg CXL_WIN_N (2 ^ 14) { (owning d) with cxl := { d.cxl with mode := true }, sec := { d.sec with conf := conf } }

theorem witness_hostPort :
    let s (c : BitVec 16) := st (hosted c)
    (s 0).live ∧ (s 0).dev.cxl.mode = true ∧ (s 0).dev.cxl.viral = false ∧ (s 0).dev.window (0x200000 / 64 * 64) = none ∧
    (s 0).dev.window (0 / 64 * 64) = some (nearAddr 0) ∧ (s 0).dev.hostDenied (nearAddr 0) = false ∧
    (st (fun d => { (reg SEC_RANGE (1 + 2 ^ 25) (hosted 1 d)) with pair := d.pair })).dev.hostDenied (nearAddr 0) = true ∧
    (st id).dev.cxl.mode = false ∧ Tab.find? (s 0).dev.cxl.reads 0 = none ∧ (s 0).dev.cxl.reads = [] ∧ (st id).dev.pwr.ready = false ∧
    (st (fun d => ready' (hosted 0 d))).dev.pwr.ready = true ∧ csrOffset (0x40000 : Word).toNat = some 0x40000 ∧
    fld (0 : Word).toNat 0 14 + fld (0 : Word).toNat 14 14 ≤ 15360 ∧ 15360 < fld (0x3FFF : Word).toNat 0 14 + fld (0x3FFF : Word).toNat 14 14 ∧
    fld (0 : Word).toNat 0 19 + fld (0 : Word).toNat 19 19 ≤ 294912 ∧ 294912 < fld (0x7FFFF : Word).toNat 0 19 + fld (0x7FFFF : Word).toNat 19 19 ∧
    mailboxDefined (0xC306 : BitVec 16).toNat = false := by
  simp only [State.live]; decide +kernel

theorem witness_hostRead :
    let r : HostRead := { serves := .party 0, addr := 0, n := 128, left := [0, 1], got := [], bad := false }
    let s := st (fun d => { (hosted 0 d) with cxl := { (hosted 0 d).cxl with reads := [(3, r)] } })
    Tab.find? s.dev.cxl.reads ((3 * 2 ^ 24 + 1) / 2 ^ 24) = some r ∧ (∃ j, j ∈ r.left ∧ j ≠ (3 * 2 ^ 24 + 1) % 2 ^ 24) ∧ (3 * 2 ^ 24 + 1) % 2 ^ 24 ∈ r.left := by
  refine ⟨by decide +kernel, ⟨0, by decide +kernel⟩, by decide +kernel⟩

/-- A register with a plain write, one whose write is barred after READY, and an offset of no register. -/
theorem witness_csrPut :
    let s := st ready'
    s.live ∧ csrOffset (BitVec.ofNat 64 SES_CFG).toNat = some SES_CFG ∧ SES_CFG % 8 = 0 ∧ s.dev.writeBarred SES_CFG = false ∧ SES_CFG < 2 ^ 24 ∧
    (s.dev.famWrite SES_CFG 0).isNone = true ∧ (s.dev.secWrite SES_CFG 0).isNone = true ∧ (s.dev.oneWrite SES_CFG 0).isNone = true ∧
    (csrFam SES_CFG).isSome = true ∧ s.dev.writeBarred GL_DEV_ID = true ∧ csrFam 0x7F000 = none ∧ SES_CFG ≠ TB_NOW := by
  simp only [State.live]; decide +kernel

theorem witness_noFam :
    let s := st ready'
    s.dev.writeBarred 0x7F000 = false ∧ (s.dev.famWrite 0x7F000 0).isNone = true ∧ (s.dev.secWrite 0x7F000 0).isNone = true ∧
    (s.dev.oneWrite 0x7F000 0).isNone = true := by decide +kernel

/-- An image of one end instruction, bound once. -/
abbrev digest0 : Bytes :=
  [0xa5, 0xc1, 0xa8, 0xc4, 0x94, 0xa1, 0x67, 0x3c, 0xcf, 0xdf, 0x6c, 0xc5, 0x35, 0xd6, 0x2e, 0x02, 0x44, 0xc2, 0xc1, 0x40, 0x82, 0x9c, 0x9c, 0x3f, 0x07, 0xc0, 0xc5, 0xf5, 0xf1, 0xe8, 0x44, 0x9a]
abbrev head0 : Bytes :=
  leBytes 4 0x42524854 ++ leBytes 2 1 ++ [0, 0] ++ leBytes 4 256 ++ leBytes 4 4 ++ leBytes 4 256 ++ leBytes 4 0 ++ leBytes 4 320 ++ leBytes 2 1 ++
    leBytes 2 0
abbrev tail0 : Bytes := zeros 192 ++ leBytes 4 0x01000000 ++ zeros 60 ++ (leBytes 2 7 ++ leBytes 4 0 ++ leBytes 2 1 ++ [1, 0, 0] ++ zeros 5)
abbrev image0 : Bytes := head0 ++ digest0 ++ tail0

theorem image0_digest : sha256 (head0 ++ zeros 32 ++ tail0) = digest0 := by decide +kernel
theorem image0_zeroed : overlay (slice image0 0 336) 0x20 (zeros 32) = head0 ++ zeros 32 ++ tail0 := by decide +kernel
theorem image0_header : headerOk image0 0 336 = true := by decide +kernel
theorem image0_code : codeWords (slice image0 (leAt image0 0x08 4) (leAt image0 0x0C 4)) (leAt image0 0x0C 4 / 4) = [0x01000000] := by decide +kernel
theorem image0_rows : (List.range (leAt image0 0x1C 2)).map (fun i => slice image0 (leAt image0 0x18 4 + 16 * i) 16) = [slice image0 320 16] := by
  decide +kernel
theorem image0_slice : slice image0 0x20 32 = digest0 := by decide +kernel
abbrev bundle0 : Bundle :=
  { uid := 0, part := 0, slot := 0, words := [0x01000000], image := slice image0 256 0, binds := [bindingOf (slice image0 320 16)],
    digest := digest0, commitCue := 0, live := false }

theorem witness_image : ∃ b, bundleOf image0 0 0 336 = some b ∧ b.words.length = 1 ∧ b.part = 0 ∧ b.slot = 0 := by
  have h : (codeOk [(0x01000000 : BitVec 32)] && [slice image0 320 16].all (fun r => bindingOk r [(0x01000000 : BitVec 32)].length) &&
    noRepeats ([slice image0 320 16].map (fun r => (bindingOf r).opcode))) = true := by decide +kernel
  simp only [bundleOf, image0_header, image0_code, image0_rows, image0_slice, image0_zeroed, image0_digest, h, beq_self_eq_true, Bool.not_true,
    Bool.and_self, if_true, Bool.false_eq_true, if_false]
  exact ⟨_, rfl, rfl, rfl, rfl⟩

abbrev load0 : Loading := { len := 336, bytes := putBytes [] 0 image0 }
theorem witness_loaded : (List.range load0.len).map (fun i => Tab.get 0 load0.bytes i) = image0 := by decide +kernel

theorem witness_bundles :
    let s := st (fun d => { (ready' d) with thr := { d.thr with loading := [(0, load0)], cfg := [(0, (1, 1, 16))] } })
    s.serves ∧ s.dev.partBusy 0 = false ∧ s.dev.cfgSum 0 (·.1) + 1 ≤ 240 ∧ s.dev.cfgSum 0 (fun c => c.2.2) + 16 ≤ 1024 ∧
    s.dev.storeUsed 0 0 + 4 * 1 ≤ (s.dev.thrCfg 0).2.2 * 1024 ∧
    Tab.find? s.dev.thr.loading (loadKey 0 1) = none ∧ (Tab.find? s.dev.thr.loading (loadKey 0 0)).isSome = true ∧ s.dev.thr.staged = [] ∧ s.dev.thr.bundles = [] := by
  simp only [State.serves, State.live]; decide +kernel

theorem witness_partBusy : (st (fun d => { d with thr := { d.thr with queue := [(0, [qreq0])] } })).dev.partBusy 0 = true := by decide +kernel

theorem witness_staged : ∃ d : Dev, d.thr.staged = [bundle0] := ⟨{ Dev.reset with thr := { Dev.reset.thr with staged := [bundle0] } }, rfl⟩

/-- The stages of a bring-up, each before and after it is done, and a voltage below and above its target. -/
theorem witness_power :
    let s (p : Pwr) := st (fun d => { d with pwr := p })
    (s Dev.reset.pwr).live ∧ (s Dev.reset.pwr).dev.pwr.romDone = false ∧ (s { Dev.reset.pwr with romDone := true }).live ∧
    (s { Dev.reset.pwr with romDone := true }).dev.pwr.rootTried = false ∧ (s Dev.reset.pwr).dev.pwr.idDone = false ∧
    (st secured).dev.sec.rootOk = true ∧ (st secured).dev.pwr.idDone = false ∧ (s { Dev.reset.pwr with romDone := true }).dev.pwr.memDone = false ∧
    (s { Dev.reset.pwr with memDone := true }).dev.pwr.memDone = true ∧ (s Dev.reset.pwr).dev.vset 11 = (s Dev.reset.pwr).dev.vtarget 11 ∧
    (s { Dev.reset.pwr with vtarget := [(11, 755)] }).dev.vset 11 < (s { Dev.reset.pwr with vtarget := [(11, 755)] }).dev.vtarget 11 ∧
    (s { Dev.reset.pwr with vtarget := [(11, 600)] }).dev.vtarget 11 < (s { Dev.reset.pwr with vtarget := [(11, 600)] }).dev.vset 11 := by
  simp only [State.live]; decide +kernel

theorem witness_resets :
    let s (step n : Nat) (req : Bool) := st (fun d => cue n { d with flt := { Flt.reset with fatal := true, after := step, pwrReq := req } })
    (s 4 17 false).live ∧ (s 4 17 false).dev.flt.fatal = true ∧ (s 4 17 false).dev.stepBegins 4 = true ∧ (s 4 16 false).dev.stepBegins 4 = false ∧
    (s 5 17 false).dev.stepBegins 5 = true ∧ (s 5 17 false).dev.flt.pwrReq = false ∧ (st id).dev.flt.fatal = false := by
  simp only [State.live]; decide +kernel

abbrev tbs (t : Tb) (d : Dev) : Dev := { d with tb := t }

/-- The timebase's states at an edge: the first, an interval of 1 s and one of 2 s, the third good one, an edge late in a second; holdover and
the fixed periods. -/
theorem witness_timebase :
    let s (t : Tb) := st (tbs t)
    let r := Dev.reset.tb
    let q (n : Nat) : Tb := { r with state := .acquiring, lastEdge := some 0, aclk := 3600000000, goodInt := n }
    let z : Tb := { r with state := .tracking, tbase := 500000000 }
    let h : Tb := { r with state := .locked, met := false, aclk := 3600000 }
    (s r).live ∧ 0 < (s r).dev.tb.cueLen ∧ (s r).dev.tb.state = .unlocked ∧ (s { r with state := .freeRun }).dev.tb.state = .freeRun ∧
    (s (q 0)).dev.tb.state = .acquiring ∧ (s (q 0)).dev.tb.lastEdge = some 0 ∧
    (((64 * ((s (q 0)).dev.tb.aclk + 0) + 0 % 64 - 0 : Nat) : Int) - sec64).natAbs ≤ ms64 ∧ (s (q 0)).dev.tb.goodInt + 1 < 3 ∧
    ms64 < (((64 * ((s { (q 0) with aclk := 7200000000 }).dev.tb.aclk + 0) + 0 % 64 - 0 : Nat) : Int) - sec64).natAbs ∧
    2 ≤ (s (q 2)).dev.tb.goodInt ∧ (st (fun d => reg TB_SEC_NEXT 1 (reg TB_CTRL 1 (tbs (q 2) d)))).dev.regFld TB_CTRL 0 1 = 1 ∧
    (st (fun d => reg TB_SEC_NEXT 1 (reg TB_CTRL 1 (tbs (q 2) d)))).dev.tb.at 0 <
      (st (fun d => reg TB_SEC_NEXT 1 (reg TB_CTRL 1 (tbs (q 2) d)))).dev.regFld TB_SEC_NEXT 0 34 * 1000000000 ∧
    (s z).dev.tb.state.servo = true ∧ 2000000 ≤ (s z).dev.tb.inSec ∧ (s h).dev.tb.state = .locked ∧ (s h).dev.tb.met = false ∧
    ((64 * (s h).dev.tb.cue0At : Nat) : Int) + (s h).dev.tb.slew0 + (ms64 : Nat) ≤ (64 * (s h).dev.tb.aclk : Nat) ∧
    (s { h with met := true }).dev.tb.met = true ∧ (s r).dev.tb.msDue = false ∧ (s { r with msDue := true }).dev.tb.msDue = true ∧
    (s r).dev.tb.inSec + 1 < 4000000 ∧ (s r).dev.pwr.ready = false ∧ (st ready').dev.pwr.ready = true := by
  simp only [State.live]; decide +kernel

/-- Shares that may be applied, and shares whose sum is over 64. -/
theorem witness_shares :
    let d (v : Nat) := reg CUE_SHARE v { Dev.reset with cue := { Dev.reset.cue with applyPending := true } }
    (d 64).cue.applyPending = true ∧ (d 64).applyOk = true ∧ (d 65).applyOk = false := by decide +kernel

/-- Wings slots: one of scrub, over a marked granule; turns of no class, of a class with nothing to do, and one that goes to the second class after
it; a granule to write back. -/
theorem witness_wings :
    let at_ (n : Nat) (tel : Bool) : Dev :=
      let d : Dev := { Dev.reset with pwr := { Dev.reset.pwr with memDone := true }, cue := { Dev.reset.cue with wingsTurn := [(16, n), (2048, n)] },
                                      mem := { Mem.reset with marks := [(scrubGranule (.stack 0) 0, true)], writeBack := [2 ^ 58] } }
      if tel then reg SW_TEL_CFG (2 ^ 24) d else d
    let turn (n : Nat) (r : WingsRes) := (wingsWheel r)[Tab.get 0 (at_ n false).cue.wingsTurn (wingsKey r)]?
    (at' (at_ 0 false)).live ∧ wingsThere (.stack 0) = true ∧ turn 0 (.stack 0) = some .scrub ∧ (at_ 0 false).bgPending .scrub (.stack 0) = true ∧
    bgWeight .scrub (.stack 0) ≠ 0 ∧
    Tab.get false (at_ 0 false).mem.marks (scrubGranule (.stack 0) (Tab.get 0 (at_ 0 false).cue.scrubPos (wingsKey (.stack 0)))) = true ∧
    turn 8 (.stack 0) = some .wear ∧ (at_ 8 false).bgPending .wear (.stack 0) = false ∧ (at_ 8 true).bgPending .telemetry (.stack 0) = true ∧
    bgClasses.getD ((bgIx .wear + 2) % 6) .telemetry = .telemetry ∧ bgWeight .audit (.stack 0) = 0 ∧ bgWeight .telemetry (.stack 0) ≠ 0 ∧
    turn 11 (.stack 0) = none ∧ wingsThere .hub = true ∧ turn 0 .hub = some .serdes ∧ turn 3 .hub = some .telemetry ∧ turn 4 .hub = none ∧
    (∀ u ∈ bgClasses, bgWeight u .hub = 0 ∨ (at_ 0 false).bgPending u .hub = false) ∧
    (BitVec.ofNat 64 (2 ^ 58 * 64)).toNat / 64 ∈ ({ (at_ 0 false) with mem := { (at_ 0 false).mem with writeBack := [0] } } : Dev).mem.writeBack := by
  simp only [State.live]; decide +kernel

/-- A calendar of one partition with a whole second: slots it uses, and a slot of an empty entry that goes to another. -/
theorem witness_calendar :
    let share := fun p => if p = 0 then 33 else if p = 15 then 31 else 0
    ((List.range 16).map share).sum ≤ 64 ∧ 0 < share 0 ∧ 30 < share 15 ∧ calEntry share 0 = some 0 ∧ calEntry share 63 = some 15 ∧
    calEntry Dev.reset.share 0 = none ∧ Dev.reset.isConf ((Tab.get 0 Dev.reset.cue.ptr 0 + 15) % 16) = false ∧
    (∀ m, m < 15 → (fun q => q == 15 : Nat → Bool) ((Tab.get 0 Dev.reset.cue.ptr 0 + m) % 16) = false) := by decide +kernel

theorem witness_fatal : (st id).live ∧ (st id).dev.flt.fatal = false := by simp only [State.live]; decide +kernel

theorem witness_stepTakesFront (c : Instr) (rest : List Instr) : ({ dev := Dev.reset, pending := c :: rest } : State).pending = c :: rest := rfl

/-- A device that is off, one that its boot ROM holds, and an empty queue. -/
theorem witness_everyCommand :
    ¬(st (fun d => { d with pwr := { d.pwr with powered := false } })).live ∧ ¬(st (fun d => { d with pwr := { d.pwr with romFatal := true } })).live ∧
    actsAlways .join = false ∧ State.reset.pending = [] := by
  simp only [State.live]; decide +kernel

end Sys2Proof.Tests
end

section
/-! The calendar of foreground slots (R44) and the use of a slot (R45, R553). -/

namespace Sys2Proof.Machine

/-! ## The reversal of six bits -/

theorem fld_one_lt (v lo : Nat) : fld v lo 1 < 2 := Nat.mod_lt _ (by decide)

theorem testBit_eq_fld (v lo : Nat) : v.testBit lo = decide (fld v lo 1 = 1) := Nat.testBit_eq_decide_div_mod_eq

/-- Each of the six bits that the reversal adds up is 0 or 1. -/
theorem bitrev6_bits_lt (i : Nat) : fld i 0 1 < 2 ∧ fld i 1 1 < 2 ∧ fld i 2 1 < 2 ∧ fld i 3 1 < 2 ∧ fld i 4 1 < 2 ∧ fld i 5 1 < 2 :=
  ⟨fld_one_lt i 0, fld_one_lt i 1, fld_one_lt i 2, fld_one_lt i 3, fld_one_lt i 4, fld_one_lt i 5⟩

theorem bitrev6_lt (i : Nat) : bitrev6 i < 64 := by
  have hbits := bitrev6_bits_lt i
  unfold bitrev6
  omega

theorem fld_bitrev6 (i : Nat) {b : Nat} (hb : b < 6) : fld (bitrev6 i) b 1 = fld i (5 - b) 1 := by
  have hbits := bitrev6_bits_lt i
  rw [fld, bitrev6]
  interval_cases b <;> simp only [Nat.reduceSub] <;> omega

theorem testBit_bitrev6 (i : Nat) {b : Nat} (hb : b < 6) : (bitrev6 i).testBit b = i.testBit (5 - b) := by
  rw [testBit_eq_fld, testBit_eq_fld, fld_bitrev6 i hb]

/-- Reversing six bits twice gives them back. -/
theorem bitrev6_bitrev6 {i : Nat} (hi : i < 64) : bitrev6 (bitrev6 i) = i := by
  have low {n : Nat} (hn : n < 2 ^ 6) {b : Nat} (hb : ¬ b < 6) : n.testBit b = false :=
    Nat.testBit_lt_two_pow (hn.trans_le (Nat.pow_le_pow_right (by decide) (Nat.le_of_not_lt hb)))
  refine Nat.eq_of_testBit_eq fun b => ?_
  by_cases hb : b < 6
  · rw [testBit_bitrev6 _ hb, testBit_bitrev6 _ (by omega), show 5 - (5 - b) = b by omega]
  · rw [low (bitrev6_lt _) hb, low hi hb]

/-- The reversal of six bits permutes the entries of the calendar. -/
theorem map_bitrev6_perm : ((List.range 64).map bitrev6).Perm (List.range 64) := by
  have nodup : ((List.range 64).map bitrev6).Nodup :=
    List.nodup_range.map_on fun i hi j hj hij => by
      rw [← bitrev6_bitrev6 (List.mem_range.mp hi), hij, bitrev6_bitrev6 (List.mem_range.mp hj)]
  have subset : (List.range 64).map bitrev6 ⊆ List.range 64 := by
    intro j hj
    obtain ⟨i, -, rfl⟩ := List.mem_map.mp hj
    exact List.mem_range.mpr (bitrev6_lt i)
  exact (nodup.subperm subset).perm_of_length_le (by simp)

/-! ## The shares, written one after another -/

theorem length_flatMap_shares (share : Nat → Nat) (l : List Nat) :
    (l.flatMap fun p => List.replicate (share p) (some p)).length = (l.map share).sum := by
  simp [List.length_flatMap]

theorem length_shareSeq (share : Nat → Nat) : (shareSeq share).length = ((List.range 16).map share).sum :=
  length_flatMap_shares share _

/-- The entries of partition p stand after those of the partitions below it. -/
theorem shareSeq_split (share : Nat → Nat) {p : Nat} (hp : p < 16) :
    ∃ rest, shareSeq share =
      (List.range p).flatMap (fun q => List.replicate (share q) (some q)) ++ (List.replicate (share p) (some p) ++ rest) := by
  obtain ⟨k, hk⟩ : ∃ k, 16 = p + 1 + k := Nat.exists_eq_add_of_le hp
  refine ⟨((List.range k).map (p + 1 + ·)).flatMap fun q => List.replicate (share q) (some q), ?_⟩
  rw [shareSeq, hk, List.range_add, List.range_succ]
  simp only [List.flatMap_append, List.flatMap_singleton, List.append_assoc]

theorem getElem?_shareSeq (share : Nat → Nat) {p n : Nat} (hp : p < 16) (hn : n < share p) :
    (shareSeq share)[((List.range p).map share).sum + n]? = some (some p) := by
  obtain ⟨rest, hsplit⟩ := shareSeq_split share hp
  rw [hsplit, List.getElem?_append_right (by rw [length_flatMap_shares]; omega), length_flatMap_shares, Nat.add_sub_cancel_left,
    List.getElem?_append_left (by simpa using hn), List.getElem?_replicate_of_lt hn]

/-- A partition has as many entries as its share. -/
theorem count_shareSeq (share : Nat → Nat) {p : Nat} (hp : p < 16) : (shareSeq share).count (some p) = share p := by
  have other (q : Nat) (hq : q ≠ p) (_ : q ∈ List.range 16) : (List.replicate (share q) (some q)).count (some p) = 0 := by
    simp [List.count_replicate, hq]
  have once : (List.range 16).count p = 1 := List.count_eq_one_of_mem List.nodup_range (List.mem_range.mpr hp)
  rw [shareSeq, List.count_flatMap]
  refine (List.sum_map_eq_nsmul_single p _ other).trans ?_
  simp [once]

/-! ## The calendar -/

theorem calEntry_mod (share : Nat → Nat) (f : Nat) : calEntry share (f % 64) = calEntry share f := by
  simp [calEntry]

theorem calEntry_bitrev6 (share : Nat → Nat) {i : Nat} (hi : i < 64) : calEntry share (bitrev6 i) = (shareSeq share).getD i none := by
  rw [calEntry, Nat.mod_eq_of_lt (bitrev6_lt i), bitrev6_bitrev6 hi]

/-- Positions past the end of a list hold no partition, so counting over enough positions is counting in the list. -/
theorem countP_range_getD (l : List (Option Nat)) (p : Nat) {n : Nat} (hn : l.length ≤ n) :
    (List.range n).countP (fun i => l.getD i none == some p) = l.count (some p) := by
  have padded : (List.range n).map (fun i => l.getD i none) = l ++ List.replicate (n - l.length) none := by
    refine List.ext_getElem (by simp; omega) fun i _ _ => ?_
    by_cases hi : i < l.length
    · simp [hi]
    · simp [List.getElem_append_right, Nat.le_of_not_lt hi]
  calc (List.range n).countP (fun i => l.getD i none == some p)
      = ((List.range n).map (fun i => l.getD i none)).count (some p) := by rw [List.count, List.countP_map]; rfl
    _ = l.count (some p) := by rw [padded, List.count_append]; simp [List.count_replicate]

/-- A partition owns as many of the 64 entries as its share. -/
theorem countP_calEntry {share : Nat → Nat} {p : Nat} (hp : p < 16) (hsum : ((List.range 16).map share).sum ≤ 64) :
    (List.range 64).countP (fun j => calEntry share j == some p) = share p := by
  calc (List.range 64).countP (fun j => calEntry share j == some p)
      = ((List.range 64).map bitrev6).countP (fun j => calEntry share j == some p) := (map_bitrev6_perm.countP_eq _).symm
    _ = (List.range 64).countP (fun i => (shareSeq share).getD i none == some p) := by
      rw [List.countP_map]
      exact List.countP_congr fun i hi => by simp [calEntry_bitrev6 share (List.mem_range.mp hi)]
    _ = (shareSeq share).count (some p) := countP_range_getD _ p (by rw [length_shareSeq]; exact hsum)
    _ = share p := count_shareSeq share hp

/-! ## The slots that a duty leaves usable (R553) -/

theorem dutySlots_le (duty : Nat) : dutySlots duty ≤ 15 := Nat.min_le_left ..

/-- One slot more counts where that slot is usable; the last of sixteen never is. -/
theorem usableBelow_succ (duty k : Nat) : usableBelow duty (k + 1) = usableBelow duty k + if usableSlot duty k then 1 else 0 := by
  have hle := dutySlots_le duty
  simp only [usableBelow, usableSlot, decide_eq_true_eq]
  by_cases hlast : k % 16 = 15
  · have hdiv : (k + 1) / 16 = k / 16 + 1 := by omega
    rw [hdiv, Nat.succ_mul]
    split <;> omega
  · have hdiv : (k + 1) / 16 = k / 16 := by omega
    rw [hdiv]
    split <;> omega

theorem usableBelow_eq_countP (duty k : Nat) : usableBelow duty k = (List.range k).countP (usableSlot duty) := by
  induction k with
  | zero => simp [usableBelow]
  | succ k ih => rw [usableBelow_succ, ih, List.range_succ, List.countP_append, List.countP_singleton]

theorem usableBelow_fifteen (k : Nat) : usableBelow 15 k = foreground k := by
  simp only [usableBelow, dutySlots, foreground, Nat.min_self]
  omega

/-! ## Who uses a slot (R45) -/

/-- The partition to which a slot that its owner leaves free is lent, if any: the first from the search pointer on that is not confidential and
has work pending. -/
def Dev.borrower (d : Dev) (res : Nat) (pending : Nat → Bool) : Option Nat :=
  (fromPart (Tab.get 0 d.cue.ptr res)).find? fun q => !d.isConf q && pending q

/-- The slot's entry is free, or its owner has no work and is not confidential. -/
def Dev.Lends (d : Dev) (f : Nat) (pending : Nat → Bool) : Prop :=
  calEntry d.share f = none ∨ ∃ o, calEntry d.share f = some o ∧ pending o = false ∧ d.isConf o = false

variable {d : Dev} {res f : Nat} {pending : Nat → Bool}

theorem Dev.borrower_eq_none (h : ∀ q, q < 16 → d.isConf q = true ∨ pending q = false) : d.borrower res pending = none := by
  refine List.find?_eq_none.mpr fun q hq => ?_
  obtain ⟨i, -, rfl⟩ := List.mem_map.mp hq
  rcases h ((Tab.get 0 d.cue.ptr res + i) % 16) (Nat.mod_lt _ (by decide)) with hconf | hidle
  · simp [hconf]
  · simp [hidle]

theorem Dev.borrower_eq_some {n : Nat} (hn : n < 16)
    (hat : d.isConf ((Tab.get 0 d.cue.ptr res + n) % 16) = false ∧ pending ((Tab.get 0 d.cue.ptr res + n) % 16) = true)
    (hbefore : ∀ m, m < n → d.isConf ((Tab.get 0 d.cue.ptr res + m) % 16) = true ∨ pending ((Tab.get 0 d.cue.ptr res + m) % 16) = false) :
    d.borrower res pending = some ((Tab.get 0 d.cue.ptr res + n) % 16) := by
  obtain ⟨hconf, hpend⟩ := hat
  rw [Dev.borrower, fromPart, List.find?_map, Option.map_eq_some_iff]
  refine ⟨n, List.find?_range_eq_some.mpr ⟨by simp [hconf, hpend], List.mem_range.mpr hn, fun m hm => ?_⟩, rfl⟩
  rcases hbefore m hm with hc | hp
  · simp [hc]
  · simp [hp]

theorem Dev.useSlot_of_pending {o : Nat} (ho : calEntry d.share f = some o) (hp : pending o = true) :
    d.useSlot res f pending = (d, some o) := by
  simp [Dev.useSlot, ho, hp]

theorem Dev.useSlot_of_isConf {o : Nat} (ho : calEntry d.share f = some o) (hp : pending o = false) (hc : d.isConf o = true) :
    d.useSlot res f pending = (d, none) := by
  simp [Dev.useSlot, ho, hp, hc]

theorem Dev.useSlot_of_no_borrower (hl : d.Lends f pending) (hb : d.borrower res pending = none) :
    d.useSlot res f pending = (d, none) := by
  rw [Dev.borrower] at hb
  rcases hl with hfree | ⟨o, ho, hp, hc⟩
  · simp [Dev.useSlot, hfree, hb]
  · simp [Dev.useSlot, ho, hp, hc, hb]

/-- After a lend the pointer names the partition after the borrower. -/
theorem Dev.useSlot_of_borrower {q : Nat} (hl : d.Lends f pending) (hb : d.borrower res pending = some q) :
    d.useSlot res f pending = ({ d with cue := { d.cue with ptr := Tab.set 0 d.cue.ptr res ((q + 1) % 16) } }, some q) := by
  rw [Dev.borrower] at hb
  rcases hl with hfree | ⟨o, ho, hp, hc⟩
  · simp [Dev.useSlot, hfree, hb]
  · simp [Dev.useSlot, ho, hp, hc, hb]

end Sys2Proof.Machine

open Sys2Proof Sys2Proof.Machine

/-- Settles O60: the reversal of six bits permutes the 64 positions, so the calendar holds the shares' sequence; the usable slots are counted by
induction on the slot; a lent slot goes to the first partition of the search. -/
theorem calendarSlots : Obligations.CalendarSlots := by
  unfold Obligations.CalendarSlots
  refine ⟨?entryOfSlot, ?entryOfPosition, ?positionsOfPartition, length_shareSeq, ?entriesOfPartition, ?pointerAtReset, ?usableSlots, ?useOfSlot⟩
  case entryOfSlot => exact fun share f => (calEntry_mod share f).symm
  case entryOfPosition => exact fun share i hi => ⟨bitrev6_lt i, fun b hb => testBit_bitrev6 i hb, calEntry_bitrev6 share hi⟩
  case positionsOfPartition => exact fun share p n hp hn => getElem?_shareSeq share hp hn
  case entriesOfPartition => exact fun share p hp hsum => countP_calEntry hp hsum
  case pointerAtReset => exact fun res => rfl
  case usableSlots => exact fun duty k => ⟨usableBelow_eq_countP duty k, usableBelow_fifteen k⟩
  case useOfSlot =>
    intro d res f pending
    refine ⟨fun o ho hp => Dev.useSlot_of_pending ho hp, fun o ho hp hc => Dev.useSlot_of_isConf ho hp hc, fun hlends => ⟨fun hnone => ?_, ?_⟩⟩
    · exact Dev.useSlot_of_no_borrower hlends (Dev.borrower_eq_none hnone)
    · intro n hn hat hbefore
      rw [Dev.useSlot_of_borrower hlends (Dev.borrower_eq_some hn hat hbefore)]
      exact ⟨rfl, Tab.get_set_self ..⟩
end

section
/-! Registers of the device that a script reads and writes (R93, R572). -/

namespace Sys2Proof.Machine

/-! ## Time as an instruction sees it -/

theorem Dev.Slots.cueNow {a b : Dev} (h : a.Slots b) : b.cueNow = a.cueNow := by rw [h]; rfl
theorem Dev.Slots.tb {a b : Dev} (h : a.Slots b) : b.tb = a.tb := by rw [h]
theorem Dev.Slots.isConf {a b : Dev} (h : a.Slots b) (p : Nat) : b.isConf p = a.isConf p := by rw [h]; rfl

/-- The device after a reading of the clock at sub ns into the cue. -/
def Dev.readAt (d : Dev) (sub : Nat) : Dev := { d with freeIx := d.freeIx + 1, tb := { d.tb with sub := sub } }

/-- The clock is read no earlier in the cue than it was read before. -/
theorem Dev.stampNow_eq {d : Dev} (h : d.tb.sub < 250) :
    ∃ sub, d.tb.sub ≤ sub ∧ sub < 250 ∧ d.stampNow = (d.readAt sub, d.tb.tbase + sub) := by
  have hpart := Nat.mod_lt (Config.free64 d.freeIx).toNat (Nat.sub_pos_of_lt h)
  exact ⟨d.tb.sub + (Config.free64 d.freeIx).toNat % (250 - d.tb.sub), by omega, by omega, rfl⟩

/-! ## Reads and writes of a script -/

theorem scriptCsr_of_space {a : Nat} (h : spaceOf a = 8) : scriptCsr a = some (offOf a) := if_pos h

/-- CUE_NOW lies in none of the families of registers, and is a single register of its own. -/
theorem Dev.regValue_cueNow (d : Dev) : d.regValue CUE_NOW = d.cueNow := by
  have hfam : d.famValue CUE_NOW = none := rfl
  have hfam2 : d.famValue2 CUE_NOW = none := rfl
  have hone : d.oneValue CUE_NOW = some d.cueNow := rfl
  simp only [Dev.regValue, hfam, hfam2, hone]

theorem Dev.scriptRead_cueNow (d : Dev) (c : CtxId) (p : Nat) : d.scriptRead c p CUE_NOW = (d, BitVec.ofNat 64 d.cueNow) := by
  simp [Dev.scriptRead, Dev.csrRead, d.regValue_cueNow]

theorem Dev.scriptRead_tbNow (d : Dev) {c : CtxId} (p : Nat) (hc : c.ctx ≠ 15) :
    d.scriptRead c p TB_NOW = (d.stampNow.1, BitVec.ofNat 64 (d.stampNow.1.seenTime p d.stampNow.2)) := if_pos ⟨rfl, hc⟩

theorem mayReadCsr_of_partition {c : CtxId} {off : Nat} (hc : c.ctx ≠ 15) : mayReadCsr c (some off) = (off == TB_NOW || off == CUE_NOW) := by
  simp only [mayReadCsr, beq_false_of_ne hc, Bool.false_or]

section
variable {c : CtxId} {f : RegFnF} {s : State}

/-- csrr of a register that the context may read. -/
theorem exec_csrr_of_mayRead (hs : s.issues c (encode (.csrr f)) [f.rd.toNat, f.ra.toNat])
    {off : Nat} (hoff : scriptCsr ((s.dev.ctx c).gr f.ra.toNat).toNat = some off) (hmay : mayReadCsr c (some off) = true)
    {d : Dev} {v : Word} (hread : (s.dev.slotted c).scriptRead c (s.dev.ctx c).part off = (d, v)) :
    exec (.csrr c f) s = .next { s with dev := d.setCtx c ((s.dev.ctx c).setG f.rd.toNat v).retire } := by
  simp [execCsrr, run_issue_of_issues _ hs, hoff, hmay, hread]

theorem exec_csrr_of_not_mayRead (hs : s.issues c (encode (.csrr f)) [f.rd.toNat, f.ra.toNat])
    (hmay : mayReadCsr c (scriptCsr ((s.dev.ctx c).gr f.ra.toNat).toNat) = false) :
    Yields (.csrr c f) s ((s.dev.slotted c).raise c .accessViolation .ok (s.dev.ctx c).pc (encode (.csrr f))) := by
  simp [Yields, execCsrr, run_issue_of_issues _ hs, hmay]

theorem exec_csrw_of_context15 (hs : s.issues c (encode (.csrw f)) [f.ra.toNat, f.rb.toNat])
    {off : Nat} (hoff : scriptCsr ((s.dev.ctx c).gr f.ra.toNat).toNat = some off) (hc : c.ctx = 15) :
    Yields (.csrw c f) s (((s.dev.slotted c).setCtx c (s.dev.ctx c).retire).csrPut off ((s.dev.ctx c).gr f.rb.toNat)) := by
  simp [Yields, execCsrw, run_issue_of_issues _ hs, hoff, hc]

theorem exec_csrw_of_partition (hs : s.issues c (encode (.csrw f)) [f.ra.toNat, f.rb.toNat]) (hc : c.ctx ≠ 15) :
    Yields (.csrw c f) s ((s.dev.slotted c).raise c .accessViolation .ok (s.dev.ctx c).pc (encode (.csrw f))) := by
  rw [Yields, exec_csrw, execCsrw, run_issue_of_issues _ hs]
  cases scriptCsr ((s.dev.ctx c).gr f.ra.toNat).toNat <;> simp [hc]

/-- A script reads CUE_NOW. -/
theorem csrr_cueNow (hs : s.issues c (encode (.csrr f)) [f.rd.toNat, f.ra.toNat])
    (hoff : scriptCsr ((s.dev.ctx c).gr f.ra.toNat).toNat = some CUE_NOW) :
    ∃ t, exec (.csrr c f) s = .next t ∧ OnlyCtx s t c ∧ GWritten (s.dev.ctx c) (t.dev.ctx c) f.rd.toNat (BitVec.ofNat 64 s.dev.cueNow) := by
  have hread := (s.dev.slotted c).scriptRead_cueNow c (s.dev.ctx c).part
  rw [(s.dev.slotted_slots c).cueNow] at hread
  refine ⟨_, exec_csrr_of_mayRead hs hoff (by simp [mayReadCsr]) hread, onlyCtx_setCtx .., ?_⟩
  rw [Dev.ctx_setCtx]
  exact gWritten_setG ..

/-- A script of a partition reads TB_NOW. -/
theorem csrr_tbNow (hs : s.issues c (encode (.csrr f)) [f.rd.toNat, f.ra.toNat])
    (hoff : scriptCsr ((s.dev.ctx c).gr f.ra.toNat).toNat = some TB_NOW) (hc : c.ctx ≠ 15) (hsub : s.dev.tb.sub < 250) :
    ∃ t sub, exec (.csrr c f) s = .next t ∧ s.dev.tb.sub ≤ sub ∧ sub < 250 ∧ t.dev.tb = { s.dev.tb with sub := sub } ∧
      t.dev.mem = s.dev.mem ∧
      GWritten (s.dev.ctx c) (t.dev.ctx c) f.rd.toNat (BitVec.ofNat 64 (s.dev.seenTime (s.dev.ctx c).part (s.dev.tb.tbase + sub))) := by
  have hslots := s.dev.slotted_slots c
  obtain ⟨sub, hle, hlt, hstamp⟩ := Dev.stampNow_eq (d := s.dev.slotted c) (by rwa [hslots.tb])
  rw [hslots.tb] at hle hstamp
  have hconf (p : Nat) : ((s.dev.slotted c).readAt sub).isConf p = s.dev.isConf p := hslots.isConf p
  have hread := (s.dev.slotted c).scriptRead_tbNow (s.dev.ctx c).part hc
  rw [hstamp, Dev.seenTime, hconf] at hread
  refine ⟨_, sub, exec_csrr_of_mayRead hs hoff (by simp [mayReadCsr]) hread, hle, hlt, ?_, hslots.mem, ?_⟩
  · simp [Dev.readAt, hslots.tb]
  · rw [Dev.ctx_setCtx]
    exact gWritten_setG ..

end

end Sys2Proof.Machine

open Sys2Proof Sys2Proof.Machine

/-- Settles O21: a register access is a read of the clock, a read of the cue count, a write of context 15, or an exception. -/
theorem scriptRegisters : Obligations.ScriptRegisters := by
  unfold Obligations.ScriptRegisters
  intro c f s x a
  refine ⟨fun hs hspace => ?csrr, fun hs hspace => ?csrw⟩
  case csrr =>
    have hoff : scriptCsr a = some (offOf a) := scriptCsr_of_space hspace
    refine ⟨fun hcue => ?_, fun hc htb hsub => ?_, fun hc hcue htb => ?_⟩
    · exact csrr_cueNow hs (hcue ▸ hoff)
    · exact csrr_tbNow hs (htb ▸ hoff) hc hsub
    · refine exec_csrr_of_not_mayRead hs ?_
      rw [show scriptCsr (x.gr f.ra.toNat).toNat = some (offOf a) from hoff, mayReadCsr_of_partition hc]
      simp [hcue, htb]
  case csrw =>
    exact ⟨fun hc => exec_csrw_of_context15 hs (scriptCsr_of_space hspace) hc, fun hc => exec_csrw_of_partition hs hc⟩
end

section
/-! What a context holds at dispatch (R68): a register reads as the last entry that names it. -/

namespace Sys2Proof.Machine

/-- After a list of writes a key reads as its last entry in the list. -/
theorem Tab.get_foldl_set {α : Type} [DecidableEq α] (dflt : α) (l : List (Nat × α)) (t : Tab α) (k : Nat) :
    Tab.get dflt (l.foldl (fun t e => Tab.set dflt t e.1 e.2) t) k = l.foldl (fun v e => if k = e.1 then e.2 else v) (Tab.get dflt t k) := by
  induction l generalizing t with
  | nil => rfl
  | cons e l ih => rw [List.foldl_cons, ih, Tab.get_set, List.foldl_cons]

theorem length_slice (bs : Bytes) (pos n : Nat) : (slice bs pos n).length = n := by
  simp [slice]

/-- A slice reads as its source, with zeros past the source's end. -/
theorem getD_slice (bs : Bytes) (pos : Nat) {n k : Nat} (hk : k < n) : (slice bs pos n).getD k 0 = bs.getD (pos + k) 0 := by
  by_cases hin : pos + k < bs.length
  · have htaken : k < ((bs.drop pos).take n).length := by simp; omega
    rw [slice, List.getD_append _ _ _ _ htaken]
    simp [hk]
  · have hpast : ((bs.drop pos).take n).length ≤ k := by simp; omega
    rw [slice, List.getD_append_right _ _ _ _ hpast, List.getD_eq_default bs _ (Nat.le_of_not_lt hin),
      List.getD_eq_getElem?_getD, List.getElem?_getD_replicate_default_eq]

variable (d : Dev) (c : CtxId) (p : Nat) (b : Bundle) (e : Binding) (r : ReqId) (t : Txn) (stamp : Nat)

/-- What the context does next, for whom, and that nothing of an earlier script is left. -/
theorem Dev.startCtx_run :
    let x := (d.startCtx c p b e r t stamp).ctx c
    x.run = .running ∧ x.pc = e.entry ∧ x.code = b.uid ∧ x.part = p ∧ x.budget = e.budget ∧ x.startCue = d.tb.cueCount ∧ x.req = some r ∧
      x.tickets = [] ∧ x.outst = [] := by
  simp [Dev.startCtx, Ctx.setLocal]

theorem Dev.gr_startCtx {k : Nat} (hk : k ≠ 0) :
    ((d.startCtx c p b e r t stamp).ctx c).gr k =
      (dispatchRegs (d.role r.link == 3) p r t (d.seenTime p stamp)).foldl (fun v e => if k = e.1 then e.2 else v) 0 := by
  simp only [Dev.startCtx, Ctx.setLocal, Dev.ctx_setCtx, Ctx.gr, if_neg hk]
  exact Tab.get_foldl_set 0 _ [] k

/-- Only p0 reads as 1. -/
theorem Dev.pr_startCtx {k : Nat} (hk : 1 ≤ k) : ((d.startCtx c p b e r t stamp).ctx c).pr k = false := by
  simp [Dev.startCtx, Ctx.setLocal, Ctx.pr, pGet, Nat.ne_of_gt hk]

theorem Dev.dr_startCtx (k : Nat) : ((d.startCtx c p b e r t stamp).ctx c).dr k = 0 := by
  simp [Dev.startCtx, Ctx.setLocal, Ctx.dr, Tab.get]

/-- The argument block takes the first 192 bytes of LOCAL, padded with zeros. -/
theorem Dev.localByte_startCtx (k : Nat) :
    ((d.startCtx c p b e r t stamp).ctx c).localByte k = if k < 192 then t.data.getD k 0 else (d.ctx c).localByte k := by
  simp only [Dev.startCtx, Dev.ctx_setCtx, Ctx.localByte, Ctx.setLocal, get_putBytes, length_slice, Nat.zero_le, true_and, Nat.zero_add, Nat.sub_zero]
  split
  next hk => rw [getD_slice _ _ hk, Nat.zero_add]
  next => rfl

end Sys2Proof.Machine

open Sys2Proof Sys2Proof.Machine

/-- Settles O22: each register reads as its entry of the dispatch table, and as 0 where it has none. -/
theorem dispatchState : Obligations.DispatchState := by
  unfold Obligations.DispatchState
  intro d c p b e r t stamp x
  obtain ⟨hrun, hpc, hcode, hpart, hbudget, hcue, hreq, htickets, houtst⟩ := d.startCtx_run c p b e r t stamp
  have hgr {k : Nat} (hk : k ≠ 0) := d.gr_startCtx c p b e r t stamp hk
  refine ⟨hrun, hpc, hcode, hpart, hbudget, hcue, hreq, htickets, houtst, ?request, ?length, ?count, ?operands, ?time, ?others, ?preds,
    ?descs, ?args, ?rest⟩
  case request =>
    rw [hgr (by decide)]
    simp [dispatchRegs, b2n]
  case length => rw [hgr (by decide)]; simp [dispatchRegs]
  case count => rw [hgr (by decide)]; simp [dispatchRegs]
  case operands =>
    intro k hk
    rw [hgr (by omega)]
    interval_cases k <;> simp [dispatchRegs]
  case time => rw [hgr (by decide)]; simp [dispatchRegs]
  case others =>
    intro k hk
    rw [hgr (by omega)]
    simp only [dispatchRegs, List.foldl_cons, List.foldl_nil]
    grind
  case preds => exact fun k hk => d.pr_startCtx c p b e r t stamp hk
  case descs => exact d.dr_startCtx c p b e r t stamp
  case args => exact fun k hk => (d.localByte_startCtx c p b e r t stamp k).trans (if_pos hk)
  case rest => exact fun k hk => (d.localByte_startCtx c p b e r t stamp k).trans (if_neg (Nat.not_lt.mpr hk))
end

section
/-! The clearing of statistics counters (R485): what FLT_CNT_CLR clears, and what a counter reads after a reset. -/

namespace Sys2Proof.Machine

/-! ## FLT_CNT_CLR -/

theorem Dev.cntClr_of_counter (d : Dev) {a : Nat} (hspace : spaceOf a = 8) (hoff : offOf a < 2 ^ 24)
    (hcounter : (csrFam (offOf a)).any (·.counter) = true) : d.cntClr a = d.putReg (offOf a) 0 := if_pos ⟨hspace, hoff, hcounter⟩

theorem Dev.cntClr_of_not_counter (d : Dev) {a : Nat}
    (h : spaceOf a ≠ 8 ∨ 2 ^ 24 ≤ offOf a ∨ (csrFam (offOf a)).any (·.counter) = false) : d.cntClr a = d := by
  refine if_neg fun ⟨hspace, hoff, hcounter⟩ => ?_
  rcases h with hother | hhigh | hplain
  · exact hother hspace
  · exact Nat.not_lt.mpr hhigh hoff
  · exact Bool.false_ne_true (hplain.symm.trans hcounter)

/-- Putting a value into a register changes the register file alone. -/
theorem Dev.putReg_with_csr (d : Dev) (off v : Nat) : { d.putReg off v with csr := d.csr } = d := rfl

theorem exec_fltCntClr_of_live {s : State} (hs : s.live) (a : Word) : Yields (.fltCntClr a) s (s.dev.cntClr a.toNat) := by
  rw [Yields, exec_fltCntClr, execFltCntClr, State.run_live s _ hs]

/-! ## Resets -/

/-- In the register maps a counter's reset value is 0. -/
theorem RegFam.reset_of_counter : ∀ f ∈ csrFams, f.counter = true → f.reset = 0 := by decide +kernel

theorem csrReset_of_counter {off : Nat} (h : (csrFam off).any (·.counter) = true) : csrReset off = 0 := by
  obtain ⟨f, hf, hcounter⟩ := (Option.any_eq_true ..).mp h
  rw [csrReset, hf]
  exact RegFam.reset_of_counter f (List.mem_of_find?_eq_some hf) hcounter

/-- A counter reads 0 while the register file holds nothing. -/
theorem Dev.reg_counter_of_csr_nil {d : Dev} {off : Nat} (hcsr : d.csr = []) (h : (csrFam off).any (·.counter) = true) :
    d.reg off = 0 := by
  rw [Dev.reg, hcsr]
  exact csrReset_of_counter h

theorem Dev.csr_resetN (d : Dev) (addr : BitVec 3) : (d.resetN addr).csr = [] := rfl
theorem Dev.csr_warmReset (d : Dev) : d.warmReset.csr = [] := rfl

/-- A fatal device whose last step may begin is reset once that step's entry is in the prompt book. -/
theorem Dev.warmResetCmd_of_stepBegins {d : Dev} (cause : Nat) (hfatal : d.flt.fatal = true) (hstep : d.stepBegins 4 = true) :
    d.warmResetCmd cause = (d.lastEntry 0x1B).warmReset := by
  simp [Dev.warmResetCmd, hfatal, hstep]

theorem csr_of_exec_resetN {addr : BitVec 3} {s t : State} (h : exec (.resetN addr) s = .next t) : t.dev.csr = [] := by
  cases h
  exact s.dev.csr_resetN addr

theorem csr_of_exec_warmReset {cause : Nat} {s t : State} (hs : s.live) (hfatal : s.dev.flt.fatal = true)
    (hstep : s.dev.stepBegins 4 = true) (h : exec (.warmReset cause) s = .next t) : t.dev.csr = [] := by
  rw [exec_warmReset, execWarmReset, State.run_live s _ hs, Dev.warmResetCmd_of_stepBegins cause hfatal hstep] at h
  cases h
  exact Dev.csr_warmReset _

end Sys2Proof.Machine

open Sys2Proof Sys2Proof.Machine

/-- Settles O25: the write is a put of 0 into the counter's register, or nothing; a reset empties the register file, and the register maps
reset every counter to 0. -/
theorem counterClear : Obligations.CounterClear := by
  unfold Obligations.CounterClear
  refine ⟨fun s a hs => ⟨fun hspace hoff hcounter => ?clears, fun hother => ?ignores⟩, fun o hcounter => ⟨?atReset, ?resetN, ?warmReset⟩⟩
  case clears =>
    refine ⟨_, exec_fltCntClr_of_live hs a, ?_⟩
    rw [s.dev.cntClr_of_counter hspace hoff hcounter]
    exact ⟨Dev.reg_putReg .., fun o ho => Dev.reg_putReg_ne _ _ ho, s.dev.putReg_with_csr ..⟩
  case ignores =>
    have h := exec_fltCntClr_of_live hs a
    rwa [s.dev.cntClr_of_not_counter hother] at h
  case atReset => exact Dev.reg_counter_of_csr_nil rfl hcounter
  case resetN => exact fun addr s t h => Dev.reg_counter_of_csr_nil (csr_of_exec_resetN h) hcounter
  case warmReset => exact fun cause s t hs hfatal hstep h => Dev.reg_counter_of_csr_nil (csr_of_exec_warmReset hs hfatal hstep h) hcounter
end
